-- ==== Sys2Proof/Word.lean ====
section
/-! DEFINITION. The word of a BAR0 register, the byte, and the plainest arithmetic on them. -/

set_option Elab.async false

namespace Sys2Proof

/-- A 32-bit register word (R8). -/
abbrev Word := BitVec 32

/-- A byte. -/
abbrev Byte := BitVec 8

end Sys2Proof
end

