-- ==== Sys2Proof/Machine/Data.lean ====
section
/-! DEFINITION. The plain data that commands carry and the machine keeps: descriptors, events, barges,
frames, log entries. Multi-byte fields are little-endian (R6). -/

set_option Elab.async false

namespace Sys2Proof

/-- A binary32 value, as its bits (R7). -/
abbrev F32 := BitVec 32

/-- A run of bytes, lowest address first. -/
abbrev Bytes := List Byte

/-- The `n`-byte little-endian number at offset `off`; bytes past the end read 0. -/
def leAt (b : Bytes) (off n : Nat) : Nat :=
  match n with
  | 0 => 0
  | m + 1 => (b.getD off 0).toNat + 256 * leAt b (off + 1) m

/-- Byte `i` of a layout given as (offset, length, value) fields; 0 where no field lies. -/
def layByte : List (Nat × Nat × Nat) → Nat → Byte
  | [], _ => 0
  | (o, n, v) :: t, i => if o ≤ i ∧ i < o + n then BitVec.ofNat 8 (v / 256 ^ (i - o)) else layByte t i

/-- `len` bytes laid out from (offset, length, value) fields. -/
def layBytes (len : Nat) (fs : List (Nat × Nat × Nat)) : Bytes :=
  (List.range len).map (layByte fs)

/-- A ring descriptor as the host wrote it: bytes 0 to 23 of Table 4.4; `ops` holds bytes 4 to 23. -/
structure Desc where
  opcode : Byte
  flags : Byte
  tag : BitVec 16
  ops : Bytes
  deriving DecidableEq, Repr

/-- The `n`-byte operand at descriptor byte `i` (4 to 23). -/
def Desc.le (d : Desc) (i n : Nat) : Nat := leAt d.ops (i - 4) n

/-- FENCE (Table 4.4). -/
def Desc.fence (d : Desc) : Bool := d.flags.getLsbD 1

/-- IRQ_NOW (Table 4.4). -/
def Desc.irqNow (d : Desc) : Bool := d.flags.getLsbD 0

/-- Are operand bytes `i` to `i + n - 1` all zero? -/
def Desc.zero (d : Desc) (i n : Nat) : Bool := d.le i n = 0

/-- The bytes 0 to 23 of a descriptor. -/
def Desc.bytes (d : Desc) : Bytes :=
  [d.opcode, d.flags] ++ layBytes 2 [(0, 2, d.tag.toNat)] ++ (List.range 20).map fun i => d.ops.getD i 0

/-- What a command asks for that Table 17.3 lets through where it limits: GRID_MODE IDLE, CELL_BYPASS PARK, SLUICE
STOP. -/
def Desc.limited (d : Desc) : Bool :=
  if d.opcode = 0x10#8 then d.le 4 1 = 0
  else if d.opcode = 0x42#8 then d.le 6 1 = 0
  else if d.opcode = 0x50#8 then d.le 4 1 = 1
  else false

/-- Reserved FLAGS bits are zero (Table 4.4). -/
def Desc.flagsOk (d : Desc) : Bool := d.flags.toNat < 4

/-- The words of an encoded signed value in `n` bits. -/
def sx (n : Nat) (v : Nat) : Int := if v % 2 ^ n < 2 ^ (n - 1) then Int.ofNat (v % 2 ^ n) else Int.ofNat (v % 2 ^ n) - 2 ^ n

/-- A signed value as the unsigned number of `n` bits that encodes it. -/
def ux (n : Nat) (v : Int) : Nat := (v % (2 ^ n : Int)).toNat

/-- A signed value limited to what `n` bits hold, encoded in `n` bits. -/
def uxSat (n : Nat) (v : Int) : Nat :=
  ux n (max (-(2 ^ (n - 1) : Int)) (min v ((2 ^ (n - 1) : Int) - 1)))

/-- A barge as sent or received (Tables 6.1 and 6.2). LENGTH is `length`; `crc` is the CRC carried. -/
structure Barge where
  typ : Nat
  position : Nat
  pound : Nat
  flags : Nat
  hops : Nat
  cycle : Nat
  seq : Nat
  length : Nat
  payload : Bytes
  crc : Word
  deriving DecidableEq, Repr

/-- The eight header bytes of a barge (Table 6.1, version 0x1). -/
def Barge.header (b : Barge) : Bytes :=
  layBytes 8 [(0, 1, b.typ * 16 + 1), (1, 1, b.position), (2, 1, b.pound * 16 + b.flags), (3, 1, b.hops),
    (4, 2, b.cycle), (6, 1, b.seq), (7, 1, b.length)]

/-- One bit of the reflected CRC-32C register (R153). -/
def crcBit (c : BitVec 32) : BitVec 32 :=
  if c.getLsbD 0 then (c >>> 1) ^^^ 0x82F63B78#32 else c >>> 1

/-- One byte through the CRC-32C register. -/
def crcByte (c : BitVec 32) (b : Byte) : BitVec 32 :=
  crcBit (crcBit (crcBit (crcBit (crcBit (crcBit (crcBit (crcBit (c ^^^ b.setWidth 32))))))))

/-- A register fed with a run of bytes: a left fold whose register is worked out at every byte, so that the kernel's
evaluation of a long run stays shallow. -/
def feedBytes {n : Nat} (f : BitVec n → Byte → BitVec n) : Bytes → BitVec n → BitVec n
  | [], c => c
  | b :: t, c =>
    match (f c b).toNat with
    | 0 => feedBytes f t 0
    | k + 1 => feedBytes f t (BitVec.ofNat n (k + 1))

/-- CRC-32C of a run of bytes (R153). -/
def crc32c (bs : Bytes) : BitVec 32 := feedBytes crcByte bs 0xFFFFFFFF#32 ^^^ 0xFFFFFFFF#32

/-- The CRC a barge should carry: over the header and the payload (R153). -/
def Barge.goodCrc (b : Barge) : Word := crc32c (b.header ++ b.payload)

/-- One bit of the keep-alive CRC register (R145). -/
def crc16Bit (c : BitVec 16) : BitVec 16 :=
  if c.getLsbD 15 then (c <<< 1) ^^^ 0x1021#16 else c <<< 1

/-- One byte, most significant bit first, through the keep-alive CRC register. -/
def crc16Byte (c : BitVec 16) (b : Byte) : BitVec 16 :=
  crc16Bit (crc16Bit (crc16Bit (crc16Bit (crc16Bit (crc16Bit (crc16Bit (crc16Bit
    (c ^^^ (b.setWidth 16 <<< 8)))))))))

/-- The keep-alive CRC over bytes 0 to 9 of a frame (R145). -/
def keepAliveCrc (bs : Bytes) : BitVec 16 := feedBytes crc16Byte (bs.take 10) 0xFFFF#16

/-- A symbol as a lane's receiver decodes it: a data byte, a control symbol by its byte, or a code violation (R123). -/
inductive Symbol where
  | data (b : Byte)
  | ctrl (b : Byte)
  | violation
  deriving DecidableEq, Repr

/-- A receiver's symbols as it looks for alignment (R126): the lane, and what it has received. -/
structure LaneHeard where
  lane : Fin 28
  symbols : List Symbol := []
  deriving DecidableEq, Repr

/-- A loss of lock (R138, R139): the cause 1 to 4 of Table 5.7, less 1, and the symbols received until then. -/
structure LaneLoss where
  cause : Fin 4
  symbols : List Symbol := []
  deriving DecidableEq, Repr

/-- A barge inside a RELAY barge, and when it arrives, in ns after the present SAMPLE mark (R168, R173). -/
structure Relayed where
  barge : Barge
  time : Nat
  deriving DecidableEq, Repr

/-- An access of the host over BAR0 (R8): a write of 32 or 64 bits, or a read of a number of bytes. -/
inductive BarAccess where
  | write32
  | write64
  | read (bytes : Nat)
  deriving DecidableEq, Repr

/-- A write of a doorbell; `off` tells of a disable of its ring in the same clock (R95). -/
structure Doorbell where
  word : Word
  off : Bool := false
  deriving DecidableEq, Repr

/-- MSI-X Enable and Function Mask in configuration space (R116). -/
structure MsixControl where
  enable : Bool
  mask : Bool := false
  deriving DecidableEq, Repr

/-- An always-on feed that leaves its range, or is back in it (R51). -/
structure FeedChange where
  feed : Fin 2
  back : Bool := false
  deriving DecidableEq, Repr

/-- An event record before it is written (Table 4.14): `payload` holds bytes 16 to 31. -/
structure Event where
  cls : Nat
  code : Nat
  cycle : Nat
  seq : Nat
  time : Nat
  payload : Bytes
  deriving DecidableEq, Repr

/-- A fine or fast result as a modulator's filter gives it: channel, value of full scale, and whether nothing that
invalidates the input fell within the filter span (R272, R274). -/
structure Sample where
  channel : Nat
  x : F32
  clean : Bool
  deriving DecidableEq, Repr

/-- Two adjacent fast-path windows about a SAMPLE mark; `frac` is the time from the first clock to the mark in ps,
0 to 50,000 (R275). -/
structure MarkSample where
  channel : Nat
  y0 : F32
  y1 : F32
  frac : Nat
  clean : Bool
  deriving DecidableEq, Repr

/-- A sample taken while a vector of the drive was applied. -/
structure ShuntSample where
  vec : Nat
  mark : MarkSample
  deriving DecidableEq, Repr

/-- Which staged register a write reaches (R295). -/
inductive Staged where
  | period (g : Fin 8)
  | duty (n : Fin 48)
  | phase (n : Fin 48)
  deriving DecidableEq, Repr

/-- The data set of a foreign master, as its Announce gives it (R344), and what else the Announce carries. -/
structure PtpMaster where
  priority1 : Nat
  clockClass : Nat
  accuracy : Nat
  variance : Nat
  priority2 : Nat
  /-- grandmasterIdentity -/
  gm : Nat
  stepsRemoved : Nat
  /-- sourcePortIdentity: clock and port -/
  clock : Nat
  port : Nat
  /-- currentUtcOffset and its valid flag -/
  utc : Nat
  utcValid : Bool
  /-- the C37.238-2017 TLV is present -/
  tlv : Bool
  /-- Announce interval in ms -/
  interval : Nat
  deriving DecidableEq, Repr

/-- What a PTP message says; times in 2^-16 ns of the PTP timescale. `mine` tells whether requestingPortIdentity names
this tracker's port. -/
inductive PtpBody where
  | announce (m : PtpMaster)
  | sync (twoStep : Bool) (origin : Int)
  | followUp (origin : Int)
  | delayResp (receive : Int) (mine : Bool)
  | pdelayReq
  | pdelayResp (twoStep : Bool) (receipt : Int) (mine : Bool)
  | pdelayRespFollowUp (origin : Int) (mine : Bool)
  /-- any other message type: management, signaling -/
  | other
  deriving DecidableEq, Repr

/-- A PTP message as received (R345): domainNumber, VID where tagged, sourcePortIdentity, sequence, correctionField in
2^-16 ns. -/
structure PtpMsg where
  domain : Nat
  vid : Option Nat
  clock : Nat
  port : Nat
  seq : Nat
  correction : Int
  body : PtpBody
  deriving DecidableEq, Repr

end Sys2Proof
end

