-- ==== Sys2Proof/Syntax.lean ====
section
/-! DEFINITION. The commands of the controller: one constructor per row of spec/opcode_table.json, with what comes
with it from outside. A ring command carries the ring it comes up in and its descriptor; a received barge carries its
CRC as received; times are whole ns, or 2^-16 ns where said. -/

set_option Elab.async false

namespace Sys2Proof

/-- A ring (Table 4.3). -/
abbrev RingIx := Fin 23

/-- A Canal lane of a pound: 2p the east end of pound p, 2p + 1 the west end (R14). -/
abbrev LaneIx := Fin 24

/-- A pound, or its towpath port. -/
abbrev PoundIx := Fin 12

/-- A cell by its global index g. -/
abbrev CellIx := Fin 192

/-- A command. -/
inductive Instr where
  /-- HEARTBEAT (R118): the descriptor comes up in a ring and is checked (R102). -/
  | heartbeat (r : RingIx) (d : Desc)
  /-- POWER_STATE (R83): the descriptor comes up in a ring and is checked (R102). -/
  | powerState (r : RingIx) (d : Desc)
  /-- HOST_RESUME (R120): the descriptor comes up in a ring and is checked (R102). -/
  | hostResume (r : RingIx) (d : Desc)
  /-- GRID_MODE (R239): the descriptor comes up in a ring and is checked (R102). -/
  | gridMode (r : RingIx) (d : Desc)
  /-- ENERGY_DIR (R251): the descriptor comes up in a ring and is checked (R102). -/
  | energyDir (r : RingIx) (d : Desc)
  /-- SETPOINT (R216): the descriptor comes up in a ring and is checked (R102). -/
  | setpoint (r : RingIx) (d : Desc)
  /-- STRING_SETPOINT (R252): the descriptor comes up in a ring and is checked (R102). -/
  | stringSetpoint (r : RingIx) (d : Desc)
  /-- BANK_COMMIT (R207): the descriptor comes up in a ring and is checked (R102). -/
  | bankCommit (r : RingIx) (d : Desc)
  /-- POUND_ENABLE (R226): the descriptor comes up in a ring and is checked (R102). -/
  | poundEnable (r : RingIx) (d : Desc)
  /-- POUND_DISABLE (R228): the descriptor comes up in a ring and is checked (R102). -/
  | poundDisable (r : RingIx) (d : Desc)
  /-- CELL_BYPASS (R233): the descriptor comes up in a ring and is checked (R102). -/
  | cellBypass (r : RingIx) (d : Desc)
  /-- CELL_SERVICE (R188): the descriptor comes up in a ring and is checked (R102). -/
  | cellService (r : RingIx) (d : Desc)
  /-- SLUICE (R260): the descriptor comes up in a ring and is checked (R102). -/
  | sluice (r : RingIx) (d : Desc)
  /-- ENERGY_RECORD (R265): the descriptor comes up in a ring and is checked (R102). -/
  | energyRecord (r : RingIx) (d : Desc)
  /-- AUX_RUN (R326): the descriptor comes up in a ring and is checked (R102). -/
  | auxRun (r : RingIx) (d : Desc)
  /-- AUX_STOP (R326): the descriptor comes up in a ring and is checked (R102). -/
  | auxStop (r : RingIx) (d : Desc)
  /-- FAULT_CLEAR (R400): the descriptor comes up in a ring and is checked (R102). -/
  | faultClear (r : RingIx) (d : Desc)
  /-- ROLE_SWAP (R378): the descriptor comes up in a ring and is checked (R102). -/
  | roleSwap (r : RingIx) (d : Desc)
  /-- ATTEST (R414): the descriptor comes up in a ring and is checked (R102). -/
  | attest (r : RingIx) (d : Desc)
  /-- DEBUG_UNLOCK (R419): the descriptor comes up; `resp` is what the buffer of a response holds. -/
  | debugUnlock (r : RingIx) (d : Desc) (resp : Bytes)
  /-- FRAME_TX (R110): a frame descriptor comes up, with the frame that its fetch reads. -/
  | frameTx (r : RingIx) (d : Desc) (frame : Bytes)
  /-- RX_BUFFER (R111): a receive buffer comes up. -/
  | rxBuffer (r : RingIx) (d : Desc)
  /-- TLM_BUFFER (R108): a telemetry buffer comes up. -/
  | tlmBuffer (r : RingIx) (d : Desc)
  /-- DEFER_TIMEOUT (R257): the kept command of fetch number `seq` has waited for `NRG_DEFER.TMO`. -/
  | deferTimeout (seq : Nat)
  /-- RING_DOORBELL (R93): a write of `HST_RING_DB` of a posted ring. -/
  | ringDoorbell (r : RingIx) (v : Doorbell)
  /-- EVENT_RING_CONSUMER_WRITE (R94): a write of `HST_RING_DB` of the event ring. -/
  | eventRingConsumerWrite (v : Word)
  /-- RING_DISABLE (R95): a write of `HST_RING_CTL` with ENABLE 0; `fetched` is the index fetching had reached. -/
  | ringDisable (r : RingIx) (v : Word) (fetched : BitVec 16)
  /-- RING_QUIESCED (R95): a disabled ring has finished what it had fetched. -/
  | ringQuiesced (r : RingIx)
  /-- RING_ENABLE (R95): a write of `HST_RING_CTL` with ENABLE 1. -/
  | ringEnable (r : RingIx) (v : Word)
  /-- RING_ERROR (R88): a DMA access for the ring ends in an error. -/
  | ringError (r : RingIx) (addr : BitVec 64) (write : Bool)
  /-- MSIX_HOLDOFF_EXPIRY (R116): HOLDOFF of the ring has passed since the first completion or record that gathered. -/
  | msixHoldoffExpiry (r : RingIx)
  /-- MSIX_UNMASK (R116): the host unmasks a vector, with MSI-X Enable and Function Mask as configuration space has
  them. -/
  | msixUnmask (vec : Fin 32) (c : MsixControl)
  /-- EVENT_RECORD_WRITE (R114): held records are written where the ring has space and DMA can be issued. -/
  | eventRecordWrite
  /-- TLM_ENABLE (R106): a write of `HST_TLM_CTL` with ENABLE 1; `list` is the item list read, none where the read
  failed. -/
  | tlmEnable (i : Fin 8) (v : Word) (list : Option (List Word))
  /-- TELEMETRY_BLOCK_WRITE (R107): the block of a stream falls due. -/
  | telemetryBlockWrite (i : Fin 8)
  /-- PERST (R87): `PERST_N` falls. -/
  | perst
  /-- FUNCTION_LEVEL_RESET (R87): a Function Level Reset. -/
  | functionLevelReset
  /-- BUS_MASTER_ENABLE_CLEAR (R87): Bus Master Enable is cleared. -/
  | busMasterEnableClear
  /-- WATCH_WARN (R118): TIMEOUT/2 has passed without a restart. -/
  | watchWarn
  /-- WATCH_EXPIRED (R118, R121): TIMEOUT has passed without a restart. -/
  | watchExpired
  /-- PLAN_RAMP_END (R119): the ramp of the host-loss plan ends. -/
  | planRampEnd
  /-- REGISTER_WRITE (R8, R9): an access over BAR0; a write carries its data and byte enables. -/
  | registerWrite (a : BitVec 20) (data : BitVec 64) (enables : BitVec 8) (x : BarAccess)
  /-- SYS_PWR_CTL_REQ (R83): a write of `SYS_PWR_CTL`. -/
  | sysPwrCtlReq (v : Word)
  /-- CYCLE_COMMIT (R26): a write of `SYS_CYCLE` with COMMIT 1. -/
  | cycleCommit (v : Word)
  /-- SYS_RST (R77): a write of `SYS_RST_CTL`. -/
  | sysRst (v : Word)
  /-- BLK_RST (R78): a write of `SYS_RST_CTL`; a reset by a reaction follows from its fault (Machine/Settle.lean). -/
  | blkRst (v : Word)
  /-- SYS_OVERLAY_WRITE (R429): a write of `SYS_OVERLAY`. -/
  | sysOverlayWrite (v : Word)
  /-- CLK_RETURN (R71): a write of `CLK_RETURN`. -/
  | clkReturn (v : Word)
  /-- CLK_UPDATE (R74): a write of `CLK_UPDATE`. -/
  | clkUpdate (v : Word)
  /-- LOOP_VERIFY_GO (R205): 1 written to `LOOP_VERIFY.GO`. -/
  | loopVerifyGo
  /-- BANK_VERIFIED (R205): the verification in progress ends. -/
  | bankVerified
  /-- BANK_DESCRIPTOR_WRITE (R205): a write of word `i` of the descriptor banks, bank B following bank A. -/
  | bankDescriptorWrite (i : Fin 65536) (v : Word)
  /-- PWM_LOAD (R295): a write of `PWM_LOAD`. -/
  | pwmLoad (v : Word)
  /-- PWM_GRP_ENABLE (R292): a write of `PWM_GRP_CTL` of a group. -/
  | pwmGrpEnable (g : Fin 8) (v : Word)
  /-- PWM_STAGED_WRITE (R296): a staged PERIOD, DUTY or PHASE; `late` tells that it meets the load in the same TB
  clock. -/
  | pwmStagedWrite (t : Staged) (v : Word) (late : Bool)
  /-- CMP_REARM (R311): a write of `CMP_REARM_LO`, or of `CMP_REARM_HI` when `high`. -/
  | cmpRearm (high : Bool) (v : Word)
  /-- CMP_LATCH_RELEASE_WRITE (R310): a write of `CMP_CH_STAT`; `blanked` tells whether a blanking window is open. -/
  | cmpLatchReleaseWrite (c : Fin 64) (v : Word) (blanked : Bool)
  /-- MTR_DIAG_GO (R286): a write of `MTR_DIAG` with GO 1. -/
  | mtrDiagGo (v : Word)
  /-- DIAG_DONE (R286): a diagnostic run ends with its two means. -/
  | diagDone (m1 : F32) (m2 : F32)
  /-- MTR_TRK_CLEAR (R283): a write of `MTR_TRK_CLEAR`. -/
  | mtrTrkClear (v : Word)
  /-- SOE_SET (R248): a write of `NRG_STR_SOE_SET` of a string. -/
  | soeSet (i : Fin 16) (v : Word)
  /-- LANE_RESTART (R127): a write of `CNL_LANE_CTL` with RESTART 1. -/
  | laneRestart (n : Fin 28) (v : Word)
  /-- STEP_REQ (R342): a write of `TSN_TIME_CTL` with STEP_REQ 1. -/
  | stepReq (v : Word)
  /-- FLT_REARM (R392): a write of `FLT_CTL` with REARM 1. -/
  | fltRearm (v : Word)
  /-- FLT_LOG_IDX_WRITE (R393): a write of `FLT_LOG_IDX`. -/
  | fltLogIdxWrite (v : Word)
  /-- TSN_NOW_CAPTURE (R356): a read of `TSN_NOW_LO`. -/
  | tsnNowCapture
  /-- ACCUMULATOR_CAPTURE (R281): a read of bytes 0 to 3 of an accumulator item. -/
  | accumulatorCapture (a : Fin 64)
  /-- SEC_DBG_GO_READ (R416): GO_READ written to `SEC_DBG_CMD`. -/
  | secDbgGoRead
  /-- SEC_DBG_GO_WRITE (R416): GO_WRITE written to `SEC_DBG_CMD`. -/
  | secDbgGoWrite
  /-- LE_HALT (R417): a halt request on an interface, 0 PCIe and 1 JTAG. -/
  | leHalt (i : Fin 2)
  /-- LE_STEP (R417): a single step; `mismatch` tells what the two copies give. -/
  | leStep (i : Fin 2) (mismatch : Bool)
  /-- LE_HALT_END (R417): a halt ends where its conditions no longer hold. -/
  | leHaltEnd
  /-- JTAG_BOUNDARY_SCAN (R418): a pin-driving boundary-scan instruction. -/
  | jtagBoundaryScan
  /-- TEST_LOGIC_RESET (R418): Test-Logic-Reset. -/
  | testLogicReset
  /-- POWER_ON_RESET (R44, R77): the release of a power-on reset, with the straps and the feeds that it samples. -/
  | powerOnReset (straps : BitVec 3) (feeds : BitVec 2)
  /-- SUPPLY_MONITOR_TRIP (R50): rails out of range; `sys` tells of a system reset in the same clock. -/
  | supplyMonitorTrip (rails : BitVec 6) (sys : Bool)
  /-- MAIN_RESET_RELEASE (R50): the rails have been in range for 1 ms. -/
  | mainResetRelease
  /-- AON_FEED_LOST (R51): an always-on feed leaves its range, or is back in it. -/
  | aonFeedLost (f : FeedChange)
  /-- DIE_TEMPERATURE_HIGH (R53): the die passes 115 °C, at `temp` in 0.125 °C. -/
  | dieTemperatureHigh (temp : BitVec 12)
  /-- DIE_TEMPERATURE_LIMIT (R53): the die passes 130 °C. -/
  | dieTemperatureLimit (temp : BitVec 12)
  /-- BOOT_START (R79): boot begins at TR. -/
  | bootStart
  /-- SRAM_INIT_DONE (R79): step 3 of boot ends. -/
  | sramInitDone (ok : Bool)
  /-- SETTINGS_LOADED (R411): what the flash gave for each copy, none for no response; `bad` names fuse rows that do
  not program. -/
  | settingsLoaded (primary : Option Bytes) (backup : Option Bytes) (bad : List Nat)
  /-- BOOT_DONE (R79): step 7 of boot. -/
  | bootDone
  /-- BOOT_FAIL (R80): a step of boot has not succeeded in time. -/
  | bootFail
  /-- BAND_SEARCH_DONE (R65): the search of a loop finds a band. -/
  | bandSearchDone (n : Fin 12)
  /-- BAND_SEARCH_FAILED (R65): no band locks within 1 ms. -/
  | bandSearchFailed (n : Fin 12)
  /-- REFERENCE_LOST (R66): a reference fails, 0 `REFA` and 1 `REFB`. -/
  | referenceLost (k : Fin 2)
  /-- REFERENCE_QUALIFIED (R66, R73): a reference qualifies; `err` is the phase error on leaving holdover, in 10 ps. -/
  | referenceQualified (k : Fin 2) (err : Int)
  /-- SLEW_COMPLETE (R73): PLL_TB has slewed its error out. -/
  | slewComplete
  /-- BACKUP_CLOCK_LOST (R67): the backup clock fails. -/
  | backupClockLost
  /-- PLL_LOCK_LOST (R70): a loop loses lock. -/
  | pllLockLost (n : Fin 12)
  /-- SYNC_IN_PULSE (R76): a `SYNC_IN` pulse; the operands tell which dividers it finds off by more than a clock. -/
  | syncInPulse (tb : Bool) (mtr : Bool)
  /-- SAMPLE_MARK (R23): the next SAMPLE mark, with the samples of the MARK values. -/
  | sampleMark (xs : List MarkSample)
  /-- COMPUTE_WINDOW_OPEN (R202, R214, R215): the compute window opens; a lockstep mismatch names its loop, `flagged`
  is what the self-test finds. -/
  | computeWindowOpen (mismatch : Option Nat) (flagged : Bool)
  /-- LOOP_SCHEDULE_DONE (R223): the last stage is done. -/
  | loopScheduleDone
  /-- CYCLE_OVERRUN (R24): the window ends before compute has finished. -/
  | cycleOverrun
  /-- DOWNLINK_WINDOW_START (R167): the downlink windows of the cycle. -/
  | downlinkWindowStart
  /-- SERVICE_WINDOW_OPEN (R169): a service window opens on every pound. -/
  | serviceWindowOpen
  /-- APPLY_MARK (R18): the APPLY mark of the cycle. -/
  | applyMark
  /-- STATE_BARGE_RECEIVED (R173): a STATE or STATE_LEAN barge arrives, `t` ns after the present SAMPLE mark. -/
  | stateBargeReceived (n : LaneIx) (b : Barge) (t : Nat)
  /-- FAULT_BARGE_RECEIVED (R176): a FAULT barge arrives. -/
  | faultBargeReceived (n : LaneIx) (b : Barge)
  /-- SERVICE_RSP_RECEIVED (R177): a SERVICE_RSP barge arrives. -/
  | serviceRspReceived (n : LaneIx) (b : Barge)
  /-- SERVICE_REQ_TIMEOUT (R177): a cell has not answered for 64 cycles. -/
  | serviceReqTimeout (g : CellIx)
  /-- RELAY_RECEIVED (R168, R178): a RELAY barge of a kind on a lock-link lane, for pound lane `n`. -/
  | relayReceived (ll : Fin 4) (kind : BitVec 4) (n : LaneIx) (b : Relayed)
  /-- DELAY_MEASUREMENT (R159): a DELAY_RSP arrives; `rtt` is t4 − t1 in 2^-16 ns. -/
  | delayMeasurement (n : LaneIx) (rtt : Nat) (b : Barge)
  /-- LANE_ALIGNED (R126): a lane finds signal, or its receiver looks for alignment in the symbols it has received. -/
  | laneAligned (x : LaneHeard)
  /-- LANE_ABSENT (R126, R127): a training state times out. -/
  | laneAbsent (n : Fin 28)
  /-- BACKOFF_EXPIRY (R127): the back-off of a lane ends. -/
  | backoffExpiry (n : Fin 28)
  /-- HELLO_RECEIVED (R128): a HELLO arrives. -/
  | helloReceived (n : LaneIx) (b : Barge)
  /-- REPORT_RECEIVED (R128): a REPORT arrives. -/
  | reportReceived (n : LaneIx) (b : Barge)
  /-- REACH_SETTLED (R128): 200 µs have passed with no new REPORT. -/
  | reachSettled (n : LaneIx)
  /-- ENUM_RETRY (R128): a lane of a pound not fully covered repeats ENUM. -/
  | enumRetry (n : LaneIx)
  /-- STEP_ISSUE (R130): the lead issues a rate step; `wait` is how far ahead its time lies, in ns. -/
  | stepIssue (p : PoundIx) (wait : Nat)
  /-- STEP_TIME (R130): the step time of a pound. -/
  | stepTime (p : PoundIx)
  /-- EQ_REQ_RECEIVED (R134): an EQ_REQ arrives. -/
  | eqReqReceived (n : Fin 28) (b : Barge)
  /-- EQ_RSP_RECEIVED (R134): an EQ_RSP arrives; the eye the receiver measures, and the request it would make next. -/
  | eqRspReceived (n : LaneIx) (b : Barge) (eye : Nat) (pre : Fin 3) (post : Fin 3)
  /-- CONFIRM (R130): the lead confirms a step. -/
  | confirm (p : PoundIx)
  /-- STEP_REVERT (R131): no CONFIRM by the step time + 4 ms. -/
  | stepRevert (p : PoundIx)
  /-- HOP_REJOIN (R132): a lane that trains alone reaches the pound rate, or fails. -/
  | hopRejoin (n : LaneIx) (ok : Bool)
  /-- LANE_LOST (R138, R139): a lane loses lock. -/
  | laneLost (n : Fin 28) (x : LaneLoss)
  /-- TOWPATH_KEEPALIVE_SEND (R144): a keep-alive starts on each enabled port. -/
  | towpathKeepaliveSend
  /-- TOWPATH_FRAME_RECEIVED (R145, R148): 12 bytes arrive on a towpath port. -/
  | towpathFrameReceived (p : PoundIx) (f : Bytes)
  /-- TOWPATH_LOST (R148): no valid frame for 40.96 µs. -/
  | towpathLost (p : PoundIx)
  /-- PRECHARGE_TIMEOUT (R227): PRECH_TMO has passed. -/
  | prechargeTimeout (p : PoundIx)
  /-- STOPPING_END (R228): STOPPING ends by BYP_TMO. -/
  | stoppingEnd (p : PoundIx)
  /-- BYPASS_TIMEOUT (R232): a bypass is not confirmed within BYP_TMO. -/
  | bypassTimeout (g : CellIx)
  /-- REJOIN_TIMEOUT (R234): a rejoin has taken longer than PRECH_TMO. -/
  | rejoinTimeout (g : CellIx)
  /-- OUT_TIMEOUT (R235): a pound has been OUT for OUT_TMO cycles. -/
  | outTimeout (p : PoundIx)
  /-- SHUTDOWN_RAMP_END (R241): the ramp of a shut-down ends. -/
  | shutdownRampEnd
  /-- SLUICE_CELL_TIMEOUT (R261): a sluicing cell has not finished within TMO. -/
  | sluiceCellTimeout (g : CellIx)
  /-- RECORD_READY (R265): the energy record is signed; `ok` tells whether its write succeeded. -/
  | recordReady (ok : Bool)
  /-- ATTEST_READY (R414): the attestation record is signed. -/
  | attestReady (ok : Bool)
  /-- FINE_RESULT (R274): the fine results of the instant `n` × 250 µs. -/
  | fineResult (n : Nat) (xs : List Sample)
  /-- INPUT_STATE (R272): a channel is clear, overloaded or stuck. -/
  | inputState (c : Fin 64) (st : Fin 3)
  /-- CAL_SLICE_STEP (R284): the next timed step of calibration, with the measured gain and offset. -/
  | calSliceStep (gain : F32) (ofs : F32)
  /-- PWM_PERIOD_BOUNDARY (R302): a group wraps at PERIOD; `blank` names the comparator channels with an edge window
  open. -/
  | pwmPeriodBoundary (grp : Fin 8) (blank : BitVec 64)
  /-- TRIP_IN_ASSERTED (R301, R302): a `TRIP_IN` pin changes. -/
  | tripInAsserted (n : Fin 8) (low : Bool)
  /-- COMPARATOR_ASSERTED (R310): what the comparators of a channel assert now. -/
  | comparatorAsserted (c : Fin 64) (hi : Bool) (lo : Bool) (blanked : Bool)
  /-- COMPARATOR_RESOLVED (R308): a comparator resolves after its start-up. -/
  | comparatorResolved (c : Fin 64) (hi : Bool) (on : Bool) (blanked : Bool)
  /-- AUX_FAULT_IN (R318): `AUX_FLT_N` of a drive changes. -/
  | auxFaultIn (dr : Fin 4) (asserted : Bool)
  /-- AUX_DECISION (R319): the decision of a period of a drive, with the shunt samples available. -/
  | auxDecision (dr : Fin 4) (xs : List ShuntSample)
  /-- AUX_PROBE_SET (R328): a probe set has run, with the samples of V1, V3 and V5. -/
  | auxProbeSet (dr : Fin 4) (xs : List MarkSample)
  /-- AUX_ALIGN_DONE (R328): ALIGN_T has passed. -/
  | auxAlignDone (dr : Fin 4)
  /-- AUX_COAST_END (R330): COAST_T has passed. -/
  | auxCoastEnd (dr : Fin 4)
  /-- RECATCH_RESET (R330): 1 s in RUNNING without loss. -/
  | recatchReset (dr : Fin 4)
  /-- PORT_DOWN (R334): a port goes down, by cause 1 to 6 of Table 13.6. -/
  | portDown (port : Fin 2) (cause : Fin 6)
  /-- PORT_UP (R334): a port has held lock for 1 ms. -/
  | portUp (port : Fin 2)
  /-- ETHERNET_FRAME_RECEIVED (R335): a frame arrives; `fcs` tells whether its FCS is good, `x` is the instant of its
  timestamp point. -/
  | ethernetFrameReceived (port : Fin 2) (bytes : Bytes) (fcs : Bool) (x : Int)
  /-- PTP_MESSAGE_RECEIVED (R345): a tracker sees a PTP message; `x` is the instant of its timestamp point, `y` that
  of an answer. -/
  | ptpMessageReceived (t : Fin 2) (port : Fin 2) (m : PtpMsg) (x : Int) (y : Int)
  /-- ANNOUNCE_TIMEOUT (R347): loss of Announce (0), Sync (1) or delay responses (2). -/
  | announceTimeout (t : Fin 2) (kind : Fin 3)
  /-- HOLDOVER_TIMEOUT (R347): 60 s of HOLDOVER with no master. -/
  | holdoverTimeout (t : Fin 2)
  /-- REVERT_TIMER (R348): PREF has been LOCKED for REVERT_S seconds. -/
  | revertTimer
  /-- SLEW_DONE (R343): plant time reaches the correction of the tracker. -/
  | slewDone
  /-- FRAME_LAUNCH (R350 to R353): the head of a launch queue; the instants at which its timestamp point would pass
  each port. -/
  | frameLaunch (q : Fin 8) (x0 : Int) (x1 : Int)
  /-- PARTNER_CLAIM_ASSERTED (R357, R359, R360): `PARTNER_CLAIM_N` is seen asserted. -/
  | partnerClaimAsserted
  /-- CLAIM_ASSERT (R361): a RELEASED seat that meets every condition claims. -/
  | claimAssert
  /-- GATE_OPEN (R359): the line has been deasserted for 2 µs. -/
  | gateOpen
  /-- CLAIM_CONTESTED_TIMEOUT (R360): seat A has been CONTESTED too long. -/
  | claimContestedTimeout
  /-- CLAIM_KEEPER_EXPIRED (R363): the keeper has not been refreshed. -/
  | claimKeeperExpired
  /-- START_T_EXPIRY (R361): START_T has passed since boot. -/
  | startTExpiry
  /-- HEARTBEAT_RECEIVED (R358, R366 to R368): the first copy of a partner heartbeat. -/
  | heartbeatReceived (bytes : Bytes)
  /-- NOTICE_RECEIVED (R365, R379): a partner NOTICE. -/
  | noticeReceived (bytes : Bytes)
  /-- MIRROR_RECEIVED (R371): a mirrored command. -/
  | mirrorReceived (bytes : Bytes)
  /-- HEALTH_RECEIVED (R376): a HEALTH message. -/
  | healthReceived (bytes : Bytes)
  /-- ROLE_SWAP_RUN (R379): APPLY of cycle s. -/
  | roleSwapRun
  /-- ROLE_SWAP_DONE (R380): the swap has ended, or is past its time. -/
  | roleSwapDone
  /-- FAULT_SOURCE_ASSERTED (R385, R387): what a source pair shows: 0 a pulse, 1 asserted, 2 clear; instance, address,
  master and access of Table 15.4. -/
  | faultSourceAsserted (src : Fin 512) (inst : BitVec 16) (pair : Fin 3) (addr : BitVec 64) (master : BitVec 4) (access : BitVec 4)
  /-- FAULT_SIGNAL_PAIR_BROKEN (R385): a pair is read invalid twice in a row. -/
  | faultSignalPairBroken (src : Fin 512)
  /-- FAULT_COLLECTOR_INTEGRITY (R399): a copy difference or a parity error. -/
  | faultCollectorIntegrity
  /-- SHADOW_END (R391): a shadow window ends. -/
  | shadowEnd (blk : Fin 16)
  /-- POWER_TRANSITION_DONE (R83): the transition in progress completes. -/
  | powerTransitionDone
  /-- TOWPATH_ENTRY_HOLD_DONE (R84): the 16 cycles of HOLD barges are over. -/
  | towpathEntryHoldDone
  /-- PCIE_LINK_DOWN (R87): the link goes down without a reset. -/
  | pcieLinkDown
  /-- PCIE_LINK_UP (R87): the link comes up. -/
  | pcieLinkUp
  /-- D3HOT_ENTRY (R87): the function enters D3hot. -/
  | d3hotEntry
  /-- D0_RETURN (R87): the function returns to D0. -/
  | d0Return
  /-- BUS_MASTER_ENABLE_SET (R87): Bus Master Enable is set. -/
  | busMasterEnableSet
  /-- PERST_RELEASE (R80): `PERST_N` rises. -/
  | perstRelease
  /-- STEP_RECEIVED (R130): a STEP arrives at a seat that does not lead. -/
  | stepReceived (n : LaneIx) (b : Barge)
  /-- CONFIRM_RECEIVED (R131): a CONFIRM arrives. -/
  | confirmReceived (n : LaneIx) (b : Barge)
  /-- DELAY_REQ_RECEIVED (R159): a DELAY_REQ arrives; `turn` is the time to the answer, 2^-16 ns. -/
  | delayReqReceived (n : LaneIx) (turn : Nat) (b : Barge)
  /-- COPY_RECEIVED (R370): a COPY segment. -/
  | copyReceived (bytes : Bytes)
  /-- PARTNER_CLAIM_DEASSERTED (R360): `PARTNER_CLAIM_N` is seen deasserted. -/
  | partnerClaimDeasserted
  /-- JTAG_IMAGE_RECEIVED (R46): an image over JTAG; `bad` names fuse rows that do not program. -/
  | jtagImageReceived (image : Bytes) (bad : List Nat)
  /-- JTAG_DBG_UNLOCK (R419): an exchange through DBG_UNLOCK: operands as DEBUG_UNLOCK, and the response. -/
  | jtagDbgUnlock (ops : Bytes) (resp : Bytes)
  /-- JTAG_DBG_ACCESS (R416): a debug access through DBG_ACCESS. -/
  | jtagDbgAccess (a : BitVec 64) (write : Bool) (v : Word)
  /-- CAPTURE_WINDOW_END (R392): with no marks running, a 5 µs window ends. -/
  | captureWindowEnd
  /-- PTP_DELAY_REQ_SEND (R345): the interval timer of a tracker; `x` is the instant of egress. -/
  | ptpDelayReqSend (t : Fin 2) (x : Int)
  /-- FAST_PATH_RESULT (R283): a fast-path result. -/
  | fastPathResult (x : Sample)
  /-- BOOT_REFERENCE_FOUND (R79): a reference is found during boot. -/
  | bootReferenceFound (k : Fin 2)
  deriving DecidableEq, Repr

end Sys2Proof
end

