-- ==== Sys2Proof/Config.lean ====
section
/-! DEFINITION. The free values: what the spec leaves open while the machine goes on. Nothing here has a
body, so no claim can rest on a value. -/

set_option Elab.async false

namespace Sys2Proof

/-- A free value: the number the hardware produces at its `n`-th open point (log entry 5). -/
opaque Config.freeNat : Nat → Nat

/-- Is the cosine of an angle, where binary32 does not hold it, rounded upward? The spec states no rounding of the frame
unit's cosine and sine (log entry 11). -/
opaque Config.cosineUp : F32 → Bool

/-- The same for the sine. -/
opaque Config.sineUp : F32 → Bool

/-- What a drive keeps for an exact quantity that binary32 does not hold: the spec states no rounding (log entry 12). -/
opaque Config.driveVal : Rat → F32

/-- Square root as a drive forms it (log entry 12). -/
opaque Config.driveRoot : Rat → F32

/-- Is a time that is no whole number of units rounded up by a drive? (log entry 12) -/
opaque Config.driveUp : Rat → Bool

/-- Rotation in rad, within ±π, from the vector (a, b) to (c, d), as a drive forms it (log entry 12). -/
opaque Config.rotation : F32 → F32 → F32 → F32 → F32

/-- α and β current that a drive's observer predicts from flux, voltage and the currents before: the spec gives no
formula (log entry 12). -/
opaque Config.predictA : List F32 → F32
/-- The β current, as above. -/
opaque Config.predictB : List F32 → F32

/-- Integrator of a speed PI after back-calculation, from the integrator and the excess: the spec gives no gain
(log entry 12). -/
opaque Config.backCalc : F32 → F32 → F32

/-- Fused unique identifier of the device (Table 9.7, log entry 15). -/
opaque Config.deviceUid : Nat

/-- Vendor ID of Kelketha (R86, log entry 15). -/
opaque Config.vendorId : BitVec 16

/-- The Device Serial Number made from the fused unique identifier (R86, log entry 15). -/
opaque Config.serialNumber : Nat → BitVec 64

/-- Hash of the vendor's key in OTP (R409, log entry 15). -/
opaque Config.vendorHash : Bytes

/-- The device's private key, generated at MANUFACTURE and held in OTP (R413, log entry 15). -/
opaque Config.deviceKey : Nat

/-- The device certificate, DER-encoded (R413, log entry 15). -/
opaque Config.certificate : Bytes

end Sys2Proof
end

