-- ==== Sys2Proof/Machine/F32.lean ====
section
/-! DEFINITION. binary32 arithmetic (R7, R191): round to nearest even, a fused multiply-add rounded once,
a result that is tiny after rounding flushed to zero of the same sign. -/

set_option Elab.async false

namespace Sys2Proof.Machine

open Sys2Proof

/-- The quiet NaN an invalid operation gives. -/
def fNan : F32 := 0x7FC00000#32

/-- Sign bit. -/
def fSign (x : F32) : Bool := x.getLsbD 31

/-- Exponent field. -/
def fExp (x : F32) : Nat := x.toNat / 2 ^ 23 % 256

/-- Fraction field. -/
def fFrac (x : F32) : Nat := x.toNat % 2 ^ 23

/-- Is the value finite? -/
def fFinite (x : F32) : Bool := fExp x ≠ 255

/-- Is it a NaN? -/
def fIsNan (x : F32) : Bool := fExp x = 255 && fFrac x ≠ 0

/-- Zero of either sign? -/
def fIsZero (x : F32) : Bool := x.toNat % 2 ^ 31 = 0

/-- Significand of a finite value, as an integer; its weight is 2^(`fScale` − 149). -/
def fMant (x : F32) : Nat := if fExp x = 0 then fFrac x else fFrac x + 2 ^ 23

/-- Power of two by which the significand is scaled, above 2^-149. -/
def fScale (x : F32) : Nat := if fExp x = 0 then 0 else fExp x - 1

/-- A finite value as a whole multiple of 2^-149. -/
def fUnits (x : F32) : Int :=
  let m : Int := (fMant x * 2 ^ fScale x : Nat)
  if fSign x then -m else m

/-- Infinity or zero of a sign. -/
def fInf (neg : Bool) : F32 := if neg then 0xFF800000#32 else 0x7F800000#32
/-- Zero of a sign. -/
def fZero (neg : Bool) : F32 := if neg then 0x80000000#32 else 0#32

/-- The binary32 value nearest to `m × 2^e / 2^p` (ties to even), overflow to infinity, tiny results to zero. -/
def fRound (neg : Bool) (m e p : Nat) : F32 :=
  if m = 0 then fZero neg
  else
    let len := m.log2 + 1
    let q0 := if len ≤ 24 then m * 2 ^ (24 - len) else m / 2 ^ (len - 24)
    let r := if len ≤ 24 then 0 else m % 2 ^ (len - 24)
    let half := if len ≤ 24 then 1 else 2 ^ (len - 25)
    let q1 := if r > half ∨ (r = half ∧ q0 % 2 = 1) then q0 + 1 else q0
    let (q, len) := if q1 = 2 ^ 24 then (2 ^ 23, len + 1) else (q1, len)
    -- the value is q × 2^(len − 24 + e − p) with 2^23 ≤ q < 2^24; its biased exponent is len + e − p + 126
    let up := len + e + 126
    if up ≤ p then fZero neg
    else
      let be := up - p
      if 255 ≤ be then fInf neg
      else BitVec.ofNat 32 ((if neg then 2 ^ 31 else 0) + be * 2 ^ 23 + (q - 2 ^ 23))

/-- A whole number times 2^-p, rounded. -/
def fOfScaled (v : Int) (p : Nat) : F32 := fRound (decide (v < 0)) v.natAbs 0 p

/-- A whole number, rounded. -/
def fOfInt (v : Int) : F32 := fOfScaled v 0

/-- A natural number, rounded. -/
def fOfNat (v : Nat) : F32 := fRound false v 0 0

/-- The value with its sign changed. -/
def fNeg (x : F32) : F32 := x ^^^ 0x80000000#32

/-- The magnitude. -/
def fAbs (x : F32) : F32 := x &&& 0x7FFFFFFF#32

/-- Fused multiply-add `a × b + c`, rounded once. -/
def fFma (a b c : F32) : F32 :=
  if fIsNan a || fIsNan b || fIsNan c then fNan
  else
    let sp := fSign a != fSign b
    if !fFinite a || !fFinite b then
      if fIsZero a || fIsZero b then fNan
      else if !fFinite c && fSign c != sp then fNan
      else fInf sp
    else if !fFinite c then c
    else
      let prod : Int := fUnits a * fUnits b
      let sum : Int := prod + fUnits c * 2 ^ 149
      if sum = 0 then (if sp && fSign c then fZero true else fZero false)
      else fOfScaled sum 298

/-- Sum. -/
def fAdd (a b : F32) : F32 := fFma a 0x3F800000#32 b

/-- Difference. -/
def fSub (a b : F32) : F32 := fAdd a (fNeg b)

/-- Product. -/
def fMul (a b : F32) : F32 := fFma a b (fZero (fSign a != fSign b))

/-- Quotient, rounded once. -/
def fDiv (a b : F32) : F32 :=
  if fIsNan a || fIsNan b then fNan
  else
    let sg := fSign a != fSign b
    if !fFinite a then (if fFinite b then fInf sg else fNan)
    else if !fFinite b then fZero sg
    else if fIsZero b then (if fIsZero a then fNan else fInf sg)
    else
      let n := (fUnits a).natAbs * 2 ^ 180 * 2 ^ 180
      let d := (fUnits b).natAbs
      fRound sg (2 * (n / d) + (if n % d = 0 then 0 else 1)) 0 361

/-- A key whose order is the order of the values; −0 and +0 have one key. -/
def fKey (x : F32) : Int := if fSign x then -((x.toNat % 2 ^ 31 : Nat) : Int) else (x.toNat % 2 ^ 31 : Nat)

/-- `a < b`; false with a NaN. -/
def fLt (a b : F32) : Bool := !fIsNan a && !fIsNan b && decide (fKey a < fKey b)

/-- `a ≤ b`; false with a NaN. -/
def fLe (a b : F32) : Bool := !fIsNan a && !fIsNan b && decide (fKey a ≤ fKey b)

/-- Lesser of two. -/
def fMin (a b : F32) : F32 := if fLt b a then b else a

/-- Greater of two. -/
def fMax (a b : F32) : F32 := if fLt a b then b else a

/-- A value limited to a range. -/
def fClamp (lo hi x : F32) : F32 := fMin (fMax x lo) hi

/-- Sum of a list, left to right. -/
def fSum (xs : List F32) : F32 := xs.foldl fAdd 0#32

/-- The whole number nearest to `x × n / d` (ties away from zero), for a finite `x`. -/
def fScaleRound (x : F32) (n d : Nat) : Int :=
  let m := (fUnits x).natAbs * n
  let k := d * 2 ^ 149
  let r : Int := ((2 * m + k) / (2 * k) : Nat)
  if fSign x then -r else r

/-- The whole number next toward minus infinity of `x × n / d`. -/
def fScaleFloor (x : F32) (n d : Nat) : Int := (fUnits x * n) / ((d * 2 ^ 149 : Nat) : Int)

/-- 1. -/
def f1 : F32 := 0x3F800000#32
/-- 2. -/
def f2 : F32 := 0x40000000#32
/-- 0.5. -/
def fHalf : F32 := 0x3F000000#32

/-- A time of `ns` nanoseconds in seconds. -/
def fSeconds (ns : Nat) : F32 := fDiv (fOfNat ns) (fOfNat 1000000000)

/-! ### Exact values -/

/-- The exact value of a finite binary32 number. -/
def fRat (x : F32) : Rat := mkRat (fUnits x) (2 ^ 149)

/-- An exact value rounded to binary32. -/
def fOfRat (q : Rat) : F32 :=
  let n := q.num.natAbs
  let k := 28 + q.den.log2 - n.log2
  let m := n * 2 ^ k / q.den
  let sticky := if n * 2 ^ k % q.den = 0 then 0 else 1
  fRound (decide (q.num < 0)) (2 * m + sticky) 0 (k + 1)

/-- The largest number whose square is at most `n`, found bit by bit. -/
def isqrt (n : Nat) : Nat :=
  (List.range (n.log2 / 2 + 1)).foldr (fun i r => if (r + 2 ^ i) * (r + 2 ^ i) ≤ n then r + 2 ^ i else r) 0

/-- Square root of a non-negative exact value, rounded to binary32. -/
def fSqrt (q : Rat) : F32 :=
  let n := q.num.natAbs
  let k := (58 + q.den.log2 - n.log2) / 2
  let v := n * 4 ^ k / q.den
  let r := isqrt v
  let sticky := if r * r = v ∧ n * 4 ^ k % q.den = 0 then 0 else 1
  fRound false (2 * r + sticky) 0 (k + 1)

/-- The whole number nearest to an exact value, halves upward. -/
def roundRat (q : Rat) : Int := (q + 1 / 2).floor

/-- 2π as binary32. -/
def f2Pi : F32 := 0x40C90FDB#32

/-- An angle taken into 0 to 2π. -/
def fWrap (x : F32) : F32 :=
  if fFinite x then
    let q := fRat x
    let p := fRat f2Pi
    fOfRat (q - p * ((q / p).floor : Rat))
  else x

/-! ### Cosine and sine -/

/-- 2π, to 100 decimal places. -/
def exact2Pi : Rat :=
  mkRat (2 * 31415926535897932384626433832795028841971693993751058209749445923078164062862089986280348253421170679) (10 ^ 100)

/-- Terms of the power series from `t` on, all in units of 2^-256: each is the one before by −`x2` over the next two
numbers after `n`. -/
def series (x2 : Int) : Nat → Nat → Int → Int
  | 0, _, _ => 0
  | i + 1, n, t => t + series x2 i (n + 2) (-(t * x2 / 2 ^ 256) / (((n + 1) * (n + 2) : Nat) : Int))

/-- An angle in rad, taken into one turn, in units of 2^-256. -/
def turnUnits (x : F32) : Int :=
  let q := fRat x
  ((q - exact2Pi * ((q / exact2Pi).floor : Rat)) * 2 ^ 256).floor

/-- Cosine of a finite angle, to within 2^-240. -/
def exactCos (x : F32) : Rat := let a := turnUnits x; mkRat (series (a * a / 2 ^ 256) 64 0 (2 ^ 256)) (2 ^ 256)

/-- Sine of a finite angle, to within 2^-240. -/
def exactSin (x : F32) : Rat := let a := turnUnits x; mkRat (series (a * a / 2 ^ 256) 64 1 a) (2 ^ 256)

/-- The binary32 value next to an exact one, above it or below: the value itself where binary32 holds it. -/
def fToward (up : Bool) (q : Rat) : F32 :=
  let r := fOfRat q
  let v := fRat r
  if v = q ∨ (v < q) = (up = false) then r
  else if v < q then (if fSign r then r - 1 else r + 1)
  else if fSign r then r + 1 else r - 1

/-- Cosine as the frame unit forms it, one of the two binary32 values next to it (R222, log entry 11). -/
def fCos (x : F32) : F32 := if fFinite x then fToward (Config.cosineUp x) (exactCos x) else fNan

/-- Sine, as above. -/
def fSin (x : F32) : F32 := if fFinite x then fToward (Config.sineUp x) (exactSin x) else fNan

end Sys2Proof.Machine
end

