-- ==== Sys2Proof/Machine/Maps.lean ====
section
/-! DEFINITION. Sparse maps from Nat: lists of (key, value) pairs in one canonical form, keys strictly
rising and no entry equal to what an unlisted key reads as. Registers, signal slots, cells, lanes
and SRAM are held so. -/

set_option Elab.async false

namespace Sys2Proof.Machine

/-- The value at key `i`; `d` gives what an unlisted key reads as. -/
def SMap.get {α : Type} (d : Nat → α) : List (Nat × α) → Nat → α
  | [], i => d i
  | (k, v) :: t, i => if k = i then v else SMap.get d t i

/-- The entry list with the value at key `i` removed. -/
def SMap.drop {α : Type} : List (Nat × α) → Nat → List (Nat × α)
  | [], _ => []
  | (k, v) :: t, i => if k = i then t else (k, v) :: SMap.drop t i

/-- The entry list with key `i` at value `x`, keys kept rising. -/
def SMap.ins {α : Type} : List (Nat × α) → Nat → α → List (Nat × α)
  | [], i, x => [(i, x)]
  | (k, v) :: t, i, x =>
    if i < k then (i, x) :: (k, v) :: t
    else if i = k then (k, x) :: t
    else (k, v) :: SMap.ins t i x

/-- The map with key `i` at value `x`; an entry equal to the default is not listed. -/
def SMap.put {α : Type} [DecidableEq α] (d : Nat → α) (m : List (Nat × α)) (i : Nat) (x : α) :
    List (Nat × α) :=
  if x = d i then SMap.drop m i else SMap.ins m i x

/-- Every key of the list lies above `b`, and keys rise strictly. -/
def SMap.risesFrom {α : Type} : Option Nat → List (Nat × α) → Bool
  | _, [] => true
  | b, (k, _) :: t => (match b with | none => true | some j => decide (j < k)) && SMap.risesFrom (some k) t

/-- No entry equals what its key reads as when unlisted. -/
def SMap.noDefault {α : Type} [DecidableEq α] (d : Nat → α) : List (Nat × α) → Bool
  | [] => true
  | (k, v) :: t => decide (v ≠ d k) && SMap.noDefault d t

/-- The canonical form of a sparse map. -/
def SMap.wf {α : Type} [DecidableEq α] (d : Nat → α) (m : List (Nat × α)) : Bool :=
  SMap.risesFrom none m && SMap.noDefault d m

end Sys2Proof.Machine
end

