-- ==== Sys2Proof/Machine/RegTable.lean ====
section
/-! DEFINITION. The register table of BAR0: one row per register (or array of registers), with the
fields, access codes, reset values and legal encodings that the register tables of spec/00 to
spec/17 give, and the map of spec/18.  A field marked "P" resets to 0 here and is loaded by
SETTINGS_LOADED (R13, R408); a field marked "X" resets to 0 (log entry 3); `SYS_ID` is that of a
KZT-6192 (log entry 2); fused fields and the debug levels are those of a part in OPEN with a vendor key hash and no
owner slot programmed (log entry 15). -/

set_option Elab.async false

namespace Sys2Proof.Machine

/-- Access codes of Table 0.3 (R9). -/
inductive Access where
  | rw | ro | w1c | wo | rwl
  deriving DecidableEq, Repr

/-- Which encodings of a field are not reserved (R12). -/
inductive Legal where
  /-- every encoding -/
  | any
  /-- lo to hi, both included -/
  | range (lo hi : Nat)
  /-- an MSI-X vector of Table 4.17: 1 to 23 or 25 to 31 -/
  | vec
  /-- a metering channel: 0 to 39 or 48 to 63 -/
  | channel
  /-- a finite, non-negative binary32 value -/
  | f32nonneg
  /-- a non-negative binary32 value up to the given one -/
  | f32max (bits : Nat)
  /-- a finite binary32 value -/
  | f32finite
  deriving DecidableEq, Repr

/-- One field of a register. -/
structure FieldDef where
  lsb : Nat
  width : Nat
  access : Access
  legal : Legal
  deriving DecidableEq, Repr

/-- One register, or an array of `count` registers whose first has index `lo`; register `i` lies at
`base + stride * i`. -/
structure RegDef where
  name : String
  base : Nat
  stride : Nat
  lo : Nat
  count : Nat
  reset : Nat
  fields : List FieldDef
  deriving DecidableEq, Repr

/-- Registers of the `SYS_` block, part 0. -/
def sysRegs0 : List RegDef := [
  ⟨"SYS_ID", 0x0, 0x0, 0, 1, 0x6192B05A, [⟨16, 16, .ro, .any⟩, ⟨12, 4, .ro, .any⟩, ⟨8, 4, .ro, .any⟩, ⟨0, 8, .ro, .any⟩]⟩,
  ⟨"SYS_CYCLE", 0x10, 0x0, 0, 1, 0xBB8, [⟨31, 1, .wo, .any⟩, ⟨0, 15, .rw, .any⟩]⟩,
  ⟨"SYS_CYCLE_STAT", 0x14, 0x0, 0, 1, 0x0, [⟨16, 16, .ro, .any⟩, ⟨1, 3, .ro, .any⟩, ⟨0, 1, .w1c, .any⟩]⟩,
  ⟨"SYS_CYCLE_NOW", 0x18, 0x0, 0, 1, 0xBB8, [⟨0, 15, .ro, .any⟩]⟩,
  ⟨"SYS_CYCLE_OVR", 0x1C, 0x0, 0, 1, 0x0, [⟨0, 16, .ro, .any⟩]⟩,
  ⟨"SYS_STRAP", 0x20, 0x0, 0, 1, 0x0, [⟨3, 1, .ro, .any⟩, ⟨2, 1, .ro, .any⟩, ⟨1, 1, .ro, .any⟩, ⟨0, 1, .ro, .any⟩]⟩,
  ⟨"SYS_AON_STAT", 0x24, 0x0, 0, 1, 0x0, [⟨4, 1, .ro, .any⟩, ⟨3, 1, .w1c, .any⟩, ⟨2, 1, .w1c, .any⟩, ⟨1, 1, .ro, .any⟩, ⟨0, 1, .ro, .any⟩]⟩,
  ⟨"SYS_TEMP", 0x28, 0x0, 0, 1, 0x0, [⟨0, 12, .ro, .any⟩]⟩,
  ⟨"SYS_RESET_CAUSE", 0x30, 0x0, 0, 1, 0x1, [⟨16, 16, .ro, .any⟩, ⟨15, 1, .w1c, .any⟩, ⟨4, 6, .w1c, .any⟩, ⟨3, 1, .w1c, .any⟩, ⟨2, 1, .w1c, .any⟩, ⟨1, 1, .w1c, .any⟩, ⟨0, 1, .w1c, .any⟩]⟩,
  ⟨"SYS_RST_CTL", 0x34, 0x0, 0, 1, 0x0, [⟨16, 16, .wo, .any⟩, ⟨8, 4, .wo, .any⟩, ⟨1, 1, .wo, .any⟩, ⟨0, 1, .wo, .any⟩]⟩,
  ⟨"SYS_BOOT_STAT", 0x38, 0x0, 0, 1, 0x0, [⟨16, 16, .ro, .any⟩, ⟨4, 4, .ro, .any⟩, ⟨1, 1, .ro, .any⟩, ⟨0, 1, .ro, .any⟩]⟩,
  ⟨"SYS_PWR_CTL", 0x40, 0x0, 0, 1, 0x0, [⟨8, 1, .rw, .any⟩, ⟨0, 3, .wo, .any⟩]⟩,
  ⟨"SYS_PWR_STAT", 0x44, 0x0, 0, 1, 0x0, [⟨16, 1, .w1c, .any⟩, ⟨8, 8, .ro, .any⟩, ⟨4, 3, .ro, .any⟩, ⟨3, 1, .ro, .any⟩, ⟨0, 3, .ro, .any⟩]⟩,
  ⟨"SYS_OVERLAY", 0x50, 0x0, 0, 1, 0x0, [⟨16, 12, .rw, .any⟩, ⟨8, 3, .ro, .any⟩, ⟨7, 1, .w1c, .any⟩, ⟨2, 1, .rw, .any⟩, ⟨1, 1, .rw, .any⟩, ⟨0, 1, .rw, .any⟩]⟩,
  ⟨"SYS_MODE", 0x54, 0x0, 0, 1, 0x2000, [⟨24, 2, .ro, .any⟩, ⟨20, 3, .ro, .any⟩, ⟨18, 2, .ro, .any⟩, ⟨16, 2, .ro, .any⟩, ⟨14, 2, .ro, .any⟩, ⟨12, 2, .ro, .any⟩, ⟨8, 3, .ro, .any⟩, ⟨4, 4, .ro, .any⟩, ⟨0, 4, .ro, .any⟩]⟩]

/-- Registers of the `SYS_` block. -/
def sysRegs : List RegDef := sysRegs0

/-- Registers of the `CLK_` block, part 0. -/
def clkRegs0 : List RegDef := [
  ⟨"CLK_REF_CTL", 0x4000, 0x0, 0, 1, 0xA0E, [⟨8, 8, .rw, .range 1 100⟩, ⟨3, 1, .rw, .any⟩, ⟨2, 1, .rw, .any⟩, ⟨1, 1, .rw, .any⟩, ⟨0, 1, .rw, .any⟩]⟩,
  ⟨"CLK_REF_STAT", 0x4004, 0x0, 0, 1, 0x0, [⟨16, 16, .ro, .any⟩, ⟨6, 1, .w1c, .any⟩, ⟨5, 1, .w1c, .any⟩, ⟨4, 1, .ro, .any⟩, ⟨3, 1, .ro, .any⟩, ⟨2, 1, .ro, .any⟩, ⟨1, 1, .ro, .any⟩, ⟨0, 1, .ro, .any⟩]⟩,
  ⟨"CLK_PLL_STAT", 0x4008, 0x0, 0, 1, 0x0, [⟨16, 12, .ro, .any⟩, ⟨0, 12, .ro, .any⟩]⟩,
  ⟨"CLK_FB_STAT", 0x400C, 0x0, 0, 1, 0x0, [⟨16, 8, .ro, .any⟩, ⟨0, 12, .ro, .any⟩]⟩,
  ⟨"CLK_RETURN", 0x4010, 0x0, 0, 1, 0x0, [⟨0, 12, .wo, .any⟩]⟩,
  ⟨"CLK_SLEW_MAX", 0x4014, 0x0, 0, 1, 0x64, [⟨0, 16, .rw, .range 10 1000⟩]⟩,
  ⟨"CLK_DIV_STAGE", 0x4020, 0x0, 0, 1, 0xA3, [⟨4, 4, .rw, .any⟩, ⟨1, 1, .rw, .any⟩, ⟨0, 1, .rw, .any⟩]⟩,
  ⟨"CLK_DIV_NOW", 0x4024, 0x0, 0, 1, 0xA3, [⟨4, 4, .ro, .any⟩, ⟨1, 1, .ro, .any⟩, ⟨0, 1, .ro, .any⟩]⟩,
  ⟨"CLK_UPDATE", 0x4028, 0x0, 0, 1, 0x0, [⟨3, 1, .ro, .any⟩, ⟨2, 1, .w1c, .any⟩, ⟨1, 1, .w1c, .any⟩, ⟨0, 1, .wo, .any⟩]⟩,
  ⟨"CLK_SYNC", 0x402C, 0x0, 0, 1, 0x3, [⟨16, 8, .ro, .any⟩, ⟨8, 8, .ro, .any⟩, ⟨3, 1, .w1c, .any⟩, ⟨2, 1, .ro, .any⟩, ⟨1, 1, .rw, .any⟩, ⟨0, 1, .rw, .any⟩]⟩]

/-- Registers of the `CLK_` block. -/
def clkRegs : List RegDef := clkRegs0

/-- Registers of the `HST_` block, part 0. -/
def hstRegs0 : List RegDef := [
  ⟨"HST_IDX_BASE_LO", 0x8000, 0x0, 0, 1, 0x0, [⟨7, 25, .rw, .any⟩, ⟨0, 1, .rw, .any⟩]⟩,
  ⟨"HST_IDX_BASE_HI", 0x8004, 0x0, 0, 1, 0x0, [⟨0, 32, .rw, .any⟩]⟩,
  ⟨"HST_CMD_PERMIT01", 0x8008, 0x0, 0, 1, 0x0, [⟨16, 10, .rwl, .any⟩, ⟨0, 10, .rwl, .any⟩]⟩,
  ⟨"HST_CMD_PERMIT23", 0x800C, 0x0, 0, 1, 0x0, [⟨16, 10, .rwl, .any⟩, ⟨0, 10, .rwl, .any⟩]⟩,
  ⟨"HST_WATCH", 0x8010, 0x0, 0, 1, 0x0, [⟨31, 1, .rwl, .any⟩, ⟨30, 1, .rwl, .any⟩, ⟨28, 2, .rwl, .any⟩, ⟨20, 8, .rwl, .range 1 255⟩, ⟨0, 14, .rwl, .range 1 10000⟩]⟩,
  ⟨"HST_WATCH_STAT", 0x8014, 0x0, 0, 1, 0x0, [⟨16, 16, .ro, .any⟩, ⟨3, 1, .w1c, .any⟩, ⟨0, 3, .ro, .any⟩]⟩,
  ⟨"HST_KEPT", 0x8018, 0x0, 0, 1, 0x0, [⟨16, 8, .ro, .any⟩, ⟨0, 7, .ro, .any⟩]⟩,
  ⟨"HST_EVT_STAT", 0x801C, 0x0, 0, 1, 0x0, [⟨16, 16, .ro, .any⟩, ⟨0, 7, .ro, .any⟩]⟩,
  ⟨"HST_RING_BASE_LO", 0x8100, 0x20, 0, 23, 0x0, [⟨12, 20, .rw, .any⟩]⟩,
  ⟨"HST_RING_BASE_HI", 0x8104, 0x20, 0, 23, 0x0, [⟨0, 32, .rw, .any⟩]⟩,
  ⟨"HST_RING_CTL", 0x8108, 0x20, 0, 23, 0x4, [⟨31, 1, .rw, .any⟩, ⟨16, 5, .rw, .vec⟩, ⟨0, 4, .rw, .range 4 12⟩]⟩,
  ⟨"HST_RING_IRQ", 0x810C, 0x20, 0, 23, 0x1, [⟨16, 10, .rw, .any⟩, ⟨0, 8, .rw, .range 1 255⟩]⟩,
  ⟨"HST_RING_STAT", 0x8110, 0x20, 0, 23, 0x0, [⟨16, 16, .ro, .any⟩, ⟨0, 16, .ro, .any⟩]⟩,
  ⟨"HST_RING_STATE", 0x8114, 0x20, 0, 23, 0x2, [⟨8, 8, .ro, .any⟩, ⟨3, 1, .ro, .any⟩, ⟨2, 1, .ro, .any⟩, ⟨1, 1, .ro, .any⟩, ⟨0, 1, .w1c, .any⟩]⟩,
  ⟨"HST_RING_DB", 0x8118, 0x20, 0, 23, 0x0, [⟨0, 16, .wo, .any⟩]⟩,
  ⟨"HST_TLM_CTL", 0x8400, 0x10, 0, 8, 0x1, [⟨31, 1, .rw, .any⟩, ⟨16, 11, .rw, .range 1 1024⟩, ⟨0, 16, .rw, .range 1 65535⟩]⟩]

/-- Registers of the `HST_` block, part 1. -/
def hstRegs1 : List RegDef := [
  ⟨"HST_TLM_LIST_LO", 0x8404, 0x10, 0, 8, 0x0, [⟨2, 30, .rw, .any⟩]⟩,
  ⟨"HST_TLM_LIST_HI", 0x8408, 0x10, 0, 8, 0x0, [⟨0, 32, .rw, .any⟩]⟩,
  ⟨"HST_TLM_STAT", 0x840C, 0x10, 0, 8, 0x0, [⟨16, 16, .ro, .any⟩, ⟨4, 4, .ro, .any⟩, ⟨0, 1, .w1c, .any⟩]⟩]

/-- Registers of the `HST_` block. -/
def hstRegs : List RegDef := hstRegs0 ++ hstRegs1

/-- Registers of the `CNL_` block, part 0. -/
def cnlRegs0 : List RegDef := [
  ⟨"CNL_LANE_CTL", 0x10000, 0x40, 0, 28, 0x0, [⟨31, 1, .rwl, .any⟩, ⟨30, 1, .rwl, .any⟩, ⟨29, 1, .rwl, .any⟩, ⟨28, 1, .rw, .any⟩, ⟨27, 1, .wo, .any⟩, ⟨24, 2, .rwl, .any⟩, ⟨12, 4, .rw, .any⟩, ⟨8, 3, .rw, .any⟩]⟩,
  ⟨"CNL_LANE_STAT", 0x10004, 0x40, 0, 28, 0xC00, [⟨24, 5, .ro, .any⟩, ⟨16, 8, .ro, .any⟩, ⟨10, 2, .ro, .any⟩, ⟨8, 2, .ro, .any⟩, ⟨5, 1, .w1c, .any⟩, ⟨4, 1, .w1c, .any⟩, ⟨0, 3, .ro, .any⟩]⟩,
  ⟨"CNL_LANE_TAPS", 0x10008, 0x40, 0, 28, 0x0, [⟨24, 8, .ro, .any⟩, ⟨20, 4, .ro, .any⟩, ⟨16, 3, .ro, .any⟩, ⟨8, 4, .ro, .any⟩, ⟨4, 3, .ro, .any⟩]⟩,
  ⟨"CNL_LANE_ERR", 0x1000C, 0x40, 0, 28, 0x0, [⟨16, 16, .ro, .any⟩, ⟨8, 8, .ro, .any⟩, ⟨0, 8, .ro, .any⟩]⟩,
  ⟨"CNL_TP_CTL", 0x10780, 0x0, 0, 1, 0x0, [⟨0, 12, .rwl, .any⟩]⟩,
  ⟨"CNL_TP_STAT", 0x10800, 0x10, 0, 12, 0x0, [⟨16, 8, .ro, .any⟩, ⟨8, 8, .ro, .any⟩, ⟨3, 1, .ro, .any⟩, ⟨2, 1, .ro, .any⟩, ⟨1, 1, .w1c, .any⟩, ⟨0, 1, .ro, .any⟩]⟩,
  ⟨"CNL_TP_MAP", 0x10804, 0x10, 0, 12, 0x0, [⟨16, 16, .ro, .any⟩, ⟨0, 16, .ro, .any⟩]⟩,
  ⟨"CNL_TP_ERR", 0x10808, 0x10, 0, 12, 0x0, [⟨16, 16, .ro, .any⟩, ⟨0, 16, .ro, .any⟩]⟩,
  ⟨"CNL_POUND_CTL", 0x10A00, 0x20, 0, 12, 0x3100, [⟨12, 4, .rw, .range 0 8⟩, ⟨8, 1, .rw, .any⟩, ⟨0, 5, .rwl, .range 0 16⟩]⟩,
  ⟨"CNL_POUND_STAT", 0x10A04, 0x20, 0, 12, 0x2, [⟨24, 5, .ro, .any⟩, ⟨16, 5, .ro, .any⟩, ⟨8, 1, .w1c, .any⟩, ⟨6, 1, .ro, .any⟩, ⟨5, 1, .ro, .any⟩, ⟨4, 1, .ro, .any⟩, ⟨2, 1, .ro, .any⟩, ⟨0, 2, .ro, .any⟩]⟩,
  ⟨"CNL_POUND_MAP", 0x10A08, 0x20, 0, 12, 0x0, [⟨16, 16, .ro, .any⟩, ⟨0, 16, .ro, .any⟩]⟩,
  ⟨"CNL_POUND_ERR", 0x10A0C, 0x20, 0, 12, 0x0, [⟨16, 16, .ro, .any⟩, ⟨0, 16, .ro, .any⟩]⟩,
  ⟨"CNL_POUND_TIME", 0x10A10, 0x20, 0, 12, 0x8000, [⟨16, 16, .ro, .any⟩, ⟨0, 16, .ro, .any⟩]⟩,
  ⟨"CNL_CELL_STAT", 0x11000, 0x8, 0, 192, 0xFF0000, [⟨16, 8, .ro, .any⟩, ⟨8, 4, .ro, .any⟩, ⟨7, 1, .ro, .any⟩, ⟨6, 1, .ro, .any⟩, ⟨5, 1, .ro, .any⟩, ⟨4, 1, .ro, .any⟩, ⟨0, 3, .ro, .any⟩]⟩,
  ⟨"CNL_CELL_PATH", 0x11004, 0x8, 0, 192, 0x0, [⟨0, 16, .ro, .any⟩]⟩]

/-- Registers of the `CNL_` block. -/
def cnlRegs : List RegDef := cnlRegs0

/-- Registers of the `LOOP_` block, part 0. -/
def loopRegs0 : List RegDef := [
  ⟨"LOOP_BANK_STAT", 0x20000, 0x0, 0, 1, 0x0, [⟨4, 1, .ro, .any⟩, ⟨3, 1, .ro, .any⟩, ⟨2, 1, .ro, .any⟩, ⟨0, 1, .ro, .any⟩]⟩,
  ⟨"LOOP_VERIFY", 0x20004, 0x0, 0, 1, 0x0, [⟨16, 10, .ro, .any⟩, ⟨8, 4, .ro, .any⟩, ⟨0, 1, .wo, .any⟩]⟩,
  ⟨"LOOP_DIGEST_STAGED", 0x20008, 0x0, 0, 1, 0x0, [⟨0, 32, .ro, .any⟩]⟩,
  ⟨"LOOP_DIGEST_ACTIVE", 0x2000C, 0x0, 0, 1, 0x0, [⟨0, 32, .ro, .any⟩]⟩,
  ⟨"LOOP_SCHED", 0x20010, 0x0, 0, 1, 0x0, [⟨16, 16, .ro, .any⟩, ⟨0, 16, .ro, .any⟩]⟩,
  ⟨"LOOP_BUDGET", 0x20014, 0x0, 0, 1, 0x0, [⟨16, 16, .ro, .any⟩, ⟨0, 16, .ro, .any⟩]⟩,
  ⟨"LOOP_COPY", 0x20018, 0x0, 0, 1, 0x0, [⟨16, 16, .ro, .any⟩, ⟨0, 16, .ro, .any⟩]⟩,
  ⟨"LOOP_LOCKSTEP", 0x2001C, 0x0, 0, 1, 0x0, [⟨16, 1, .ro, .any⟩, ⟨8, 8, .ro, .any⟩, ⟨0, 8, .ro, .any⟩]⟩,
  ⟨"LOOP_REGION", 0x20100, 0x4, 0, 16, 0x0, [⟨28, 4, .rwl, .range 0 7⟩, ⟨12, 13, .rwl, .any⟩, ⟨0, 12, .rwl, .any⟩]⟩,
  ⟨"LOOP_STAGE", 0x20200, 0x4, 0, 32, 0x0, [⟨16, 16, .ro, .any⟩, ⟨0, 11, .ro, .any⟩]⟩,
  ⟨"LOOP_LSTAT", 0x21000, 0x4, 0, 1024, 0x0, [⟨24, 8, .ro, .any⟩, ⟨16, 8, .ro, .any⟩, ⟨12, 1, .ro, .any⟩, ⟨11, 1, .w1c, .any⟩, ⟨10, 1, .ro, .any⟩, ⟨9, 1, .ro, .any⟩, ⟨8, 1, .ro, .any⟩, ⟨5, 1, .ro, .any⟩, ⟨4, 1, .ro, .any⟩, ⟨0, 4, .ro, .any⟩]⟩]

/-- Registers of the `LOOP_` block. -/
def loopRegs : List RegDef := loopRegs0

/-- Registers of the `CELL_` block, part 0. -/
def cellRegs0 : List RegDef := [
  ⟨"CELL_CTL", 0x28000, 0x0, 0, 1, 0x280404, [⟨16, 8, .rw, .range 1 255⟩, ⟨8, 4, .rw, .range 1 6⟩, ⟨3, 1, .rwl, .any⟩, ⟨2, 1, .rw, .any⟩, ⟨0, 1, .rw, .any⟩]⟩,
  ⟨"CELL_CARRIER", 0x28004, 0x0, 0, 1, 0x3D090, [⟨0, 20, .rw, .range 2500 1000000⟩]⟩,
  ⟨"CELL_SLOTS", 0x28008, 0x0, 0, 1, 0x0, [⟨16, 12, .rw, .any⟩, ⟨0, 12, .rw, .any⟩]⟩,
  ⟨"CELL_OUT", 0x2800C, 0x0, 0, 1, 0x0, [⟨0, 12, .rw, .any⟩]⟩,
  ⟨"CELL_TIMING", 0x28010, 0x0, 0, 1, 0x14101000, [⟨24, 8, .rw, .range 1 255⟩, ⟨16, 8, .rw, .range 1 255⟩, ⟨8, 8, .rw, .range 1 255⟩]⟩,
  ⟨"CELL_TMO", 0x28014, 0x0, 0, 1, 0x13880014, [⟨16, 16, .rw, .range 1 65535⟩, ⟨0, 16, .rw, .range 1 1000⟩]⟩,
  ⟨"CELL_IDLE_RAMP", 0x28018, 0x0, 0, 1, 0x64, [⟨0, 14, .rw, .range 1 10000⟩]⟩,
  ⟨"CELL_STAT", 0x2801C, 0x0, 0, 1, 0x0, [⟨4, 4, .ro, .any⟩, ⟨3, 1, .ro, .any⟩, ⟨2, 1, .ro, .any⟩, ⟨0, 2, .ro, .any⟩]⟩,
  ⟨"CELL_M_MAX", 0x28020, 0x0, 0, 1, 0x3F733333, [⟨0, 32, .rw, .f32max 0x3F800000⟩]⟩,
  ⟨"CELL_BAL_MAX", 0x28024, 0x0, 0, 1, 0x3D4CCCCD, [⟨0, 32, .rw, .f32nonneg⟩]⟩,
  ⟨"CELL_DAB_MAX", 0x28028, 0x0, 0, 1, 0x3E800000, [⟨0, 32, .rw, .f32max 0x3F000000⟩]⟩,
  ⟨"CELL_IBAL_MIN", 0x2802C, 0x0, 0, 1, 0x40000000, [⟨0, 32, .rw, .f32nonneg⟩]⟩,
  ⟨"CELL_VMARGIN", 0x28030, 0x0, 0, 1, 0x0, [⟨0, 32, .rwl, .f32nonneg⟩]⟩,
  ⟨"CELL_VDC_MAX", 0x28034, 0x0, 0, 1, 0x0, [⟨0, 32, .rwl, .f32nonneg⟩]⟩,
  ⟨"CELL_VDC_NOM", 0x28038, 0x0, 0, 1, 0x0, [⟨0, 32, .rwl, .f32nonneg⟩]⟩,
  ⟨"CELL_PRECH_MIN", 0x2803C, 0x0, 0, 1, 0x0, [⟨0, 32, .rwl, .f32nonneg⟩]⟩]

/-- Registers of the `CELL_` block, part 1. -/
def cellRegs1 : List RegDef := [
  ⟨"CELL_PRECH_DAB", 0x28040, 0x0, 0, 1, 0x3CA3D70A, [⟨0, 32, .rw, .f32nonneg⟩]⟩,
  ⟨"CELL_PRECH_IDAB", 0x28044, 0x0, 0, 1, 0x41A00000, [⟨0, 32, .rw, .f32nonneg⟩]⟩,
  ⟨"CELL_VPK_FIX", 0x28048, 0x0, 0, 1, 0x0, [⟨0, 32, .rwl, .f32nonneg⟩]⟩,
  ⟨"CELL_VPK_LIVE", 0x2804C, 0x0, 0, 1, 0x0, [⟨0, 32, .rwl, .f32nonneg⟩]⟩,
  ⟨"CELL_VPK_DEAD", 0x28050, 0x0, 0, 1, 0x0, [⟨0, 32, .rwl, .f32nonneg⟩]⟩,
  ⟨"CELL_REJOIN_BAND", 0x28054, 0x0, 0, 1, 0x41A00000, [⟨0, 32, .rw, .f32nonneg⟩]⟩,
  ⟨"CELL_FRAME_FREQ", 0x28060, 0x0, 0, 1, 0x0, [⟨31, 1, .rw, .any⟩, ⟨0, 12, .rw, .any⟩]⟩,
  ⟨"CELL_FRAME_FWD", 0x28064, 0x4, 0, 4, 0x0, [⟨31, 1, .rw, .any⟩, ⟨0, 12, .rw, .any⟩]⟩,
  ⟨"CELL_FRAME_INV", 0x28074, 0x0, 0, 1, 0x0, [⟨31, 1, .rw, .any⟩, ⟨30, 1, .rw, .any⟩, ⟨16, 12, .rw, .any⟩, ⟨0, 12, .rw, .any⟩]⟩,
  ⟨"CELL_LEG_CTL", 0x28100, 0x20, 0, 3, 0x0, [⟨16, 7, .rwl, .range 1 64⟩, ⟨0, 12, .rw, .any⟩]⟩,
  ⟨"CELL_LEG_SRC0", 0x28104, 0x20, 0, 3, 0x0, [⟨16, 12, .rw, .any⟩, ⟨0, 12, .rw, .any⟩]⟩,
  ⟨"CELL_LEG_SRC1", 0x28108, 0x20, 0, 3, 0x0, [⟨16, 12, .rw, .any⟩, ⟨0, 12, .rw, .any⟩]⟩,
  ⟨"CELL_LEG_IDAB", 0x2810C, 0x20, 0, 3, 0x0, [⟨0, 32, .rw, .any⟩]⟩,
  ⟨"CELL_LEG_STAT", 0x28110, 0x20, 0, 3, 0x30000000, [⟨28, 3, .ro, .any⟩, ⟨24, 4, .ro, .any⟩, ⟨16, 7, .ro, .any⟩, ⟨8, 7, .ro, .any⟩, ⟨0, 7, .ro, .any⟩]⟩,
  ⟨"CELL_LEG_VSYN", 0x28114, 0x20, 0, 3, 0x0, [⟨0, 32, .ro, .any⟩]⟩,
  ⟨"CELL_POUND_STAT", 0x28200, 0x4, 0, 12, 0x0, [⟨7, 1, .ro, .any⟩, ⟨0, 4, .ro, .any⟩]⟩]

/-- Registers of the `CELL_` block, part 2. -/
def cellRegs2 : List RegDef := [
  ⟨"CELL_CELL_STAT", 0x28400, 0x4, 0, 192, 0xFF00, [⟨16, 16, .ro, .any⟩, ⟨8, 8, .ro, .any⟩, ⟨0, 4, .ro, .any⟩]⟩]

/-- Registers of the `CELL_` block. -/
def cellRegs : List RegDef := cellRegs0 ++ cellRegs1 ++ cellRegs2

/-- Registers of the `NRG_` block, part 0. -/
def nrgRegs0 : List RegDef := [
  ⟨"NRG_CTL", 0x2C000, 0x0, 0, 1, 0x40002, [⟨16, 8, .rw, .range 1 255⟩, ⟨3, 1, .rwl, .any⟩, ⟨2, 1, .rwl, .any⟩, ⟨0, 2, .ro, .any⟩]⟩,
  ⟨"NRG_DEFER", 0x2C004, 0x0, 0, 1, 0x3E8, [⟨0, 16, .rw, .range 1 60000⟩]⟩,
  ⟨"NRG_STAT", 0x2C008, 0x0, 0, 1, 0x0, [⟨24, 8, .ro, .any⟩, ⟨16, 8, .ro, .any⟩, ⟨10, 2, .ro, .any⟩, ⟨9, 1, .ro, .any⟩, ⟨8, 1, .ro, .any⟩, ⟨4, 1, .ro, .any⟩, ⟨3, 1, .ro, .any⟩, ⟨2, 1, .ro, .any⟩, ⟨1, 1, .ro, .any⟩, ⟨0, 1, .ro, .any⟩]⟩,
  ⟨"NRG_CAP_CELL_LO", 0x2C010, 0x0, 0, 1, 0x0, [⟨0, 32, .rwl, .any⟩]⟩,
  ⟨"NRG_CAP_CELL_HI", 0x2C014, 0x0, 0, 1, 0x0, [⟨0, 32, .rwl, .any⟩]⟩,
  ⟨"NRG_CAP_POUND_LO", 0x2C018, 0x0, 0, 1, 0x0, [⟨0, 32, .rwl, .any⟩]⟩,
  ⟨"NRG_CAP_POUND_HI", 0x2C01C, 0x0, 0, 1, 0x0, [⟨0, 32, .rwl, .any⟩]⟩,
  ⟨"NRG_CAP_TOTAL_LO", 0x2C020, 0x0, 0, 1, 0x0, [⟨0, 32, .rwl, .any⟩]⟩,
  ⟨"NRG_CAP_TOTAL_HI", 0x2C024, 0x0, 0, 1, 0x0, [⟨0, 32, .rwl, .any⟩]⟩,
  ⟨"NRG_CAP_RELEASE_LO", 0x2C028, 0x0, 0, 1, 0x0, [⟨0, 32, .rwl, .any⟩]⟩,
  ⟨"NRG_CAP_RELEASE_HI", 0x2C02C, 0x0, 0, 1, 0x0, [⟨0, 32, .rwl, .any⟩]⟩,
  ⟨"NRG_P_RATED", 0x2C030, 0x0, 0, 1, 0x0, [⟨0, 32, .rwl, .f32nonneg⟩]⟩,
  ⟨"NRG_C_LV", 0x2C040, 0x0, 0, 1, 0x0, [⟨0, 32, .rwl, .f32nonneg⟩]⟩,
  ⟨"NRG_C_AUX", 0x2C044, 0x0, 0, 1, 0x0, [⟨0, 32, .rwl, .f32nonneg⟩]⟩,
  ⟨"NRG_V_LV_MAX", 0x2C048, 0x0, 0, 1, 0x0, [⟨0, 32, .rwl, .f32nonneg⟩]⟩,
  ⟨"NRG_V_AUX_MAX", 0x2C04C, 0x0, 0, 1, 0x0, [⟨0, 32, .rwl, .f32nonneg⟩]⟩]

/-- Registers of the `NRG_` block, part 1. -/
def nrgRegs1 : List RegDef := [
  ⟨"NRG_F_MV", 0x2C050, 0x0, 0, 1, 0x0, [⟨0, 32, .rwl, .f32max 0x3F800000⟩]⟩,
  ⟨"NRG_I_ARM_LIM", 0x2C054, 0x0, 0, 1, 0x0, [⟨0, 32, .rwl, .f32nonneg⟩]⟩,
  ⟨"NRG_I_LV_LIM", 0x2C058, 0x0, 0, 1, 0x0, [⟨0, 32, .rwl, .f32nonneg⟩]⟩,
  ⟨"NRG_I_AUX_LIM", 0x2C05C, 0x0, 0, 1, 0x0, [⟨0, 32, .rwl, .f32nonneg⟩]⟩,
  ⟨"NRG_T_CLR_MV", 0x2C060, 0x0, 0, 1, 0x0, [⟨0, 32, .rwl, .f32nonneg⟩]⟩,
  ⟨"NRG_T_CLR_LV", 0x2C064, 0x0, 0, 1, 0x0, [⟨0, 32, .rwl, .f32nonneg⟩]⟩,
  ⟨"NRG_T_CLR_AUX", 0x2C068, 0x0, 0, 1, 0x0, [⟨0, 32, .rwl, .f32nonneg⟩]⟩,
  ⟨"NRG_T_MIN", 0x2C06C, 0x0, 0, 1, 0x42700000, [⟨0, 32, .rw, .f32nonneg⟩]⟩,
  ⟨"NRG_ETA", 0x2C070, 0x0, 0, 1, 0x3F733333, [⟨0, 32, .rw, .f32max 0x3F800000⟩]⟩,
  ⟨"NRG_AUX_TAU", 0x2C074, 0x0, 0, 1, 0x3D4CCCCD, [⟨0, 32, .rw, .f32nonneg⟩]⟩,
  ⟨"NRG_SLUICE_AUTO_V", 0x2C078, 0x0, 0, 1, 0x0, [⟨0, 32, .rwl, .f32nonneg⟩]⟩,
  ⟨"NRG_C_POUND", 0x2C080, 0x4, 0, 12, 0x0, [⟨0, 32, .rwl, .f32nonneg⟩]⟩,
  ⟨"NRG_SRC", 0x2C0C0, 0x0, 0, 1, 0x0, [⟨16, 12, .rw, .any⟩, ⟨0, 12, .rw, .any⟩]⟩,
  ⟨"NRG_PCC", 0x2C0C4, 0x0, 0, 1, 0x0, [⟨31, 1, .rwl, .any⟩, ⟨8, 6, .rwl, .any⟩, ⟨0, 6, .rwl, .any⟩]⟩,
  ⟨"NRG_OUT", 0x2C0C8, 0x0, 0, 1, 0x0, [⟨0, 12, .rw, .any⟩]⟩,
  ⟨"NRG_SLUICE", 0x2C0CC, 0x0, 0, 1, 0x75300004, [⟨16, 16, .rw, .range 1 65535⟩, ⟨0, 4, .rw, .range 1 15⟩]⟩]

/-- Registers of the `NRG_` block, part 2. -/
def nrgRegs2 : List RegDef := [
  ⟨"NRG_SPCLASS", 0x2C100, 0x4, 0, 16, 0x0, [⟨31, 1, .rwl, .any⟩, ⟨24, 4, .rwl, .range 0 3⟩, ⟨16, 4, .rwl, .range 0 3⟩, ⟨0, 12, .rwl, .any⟩]⟩,
  ⟨"NRG_STR_CTL", 0x2C200, 0x20, 0, 16, 0x0, [⟨31, 1, .rwl, .any⟩, ⟨0, 6, .rwl, .any⟩]⟩,
  ⟨"NRG_STR_CAP", 0x2C204, 0x20, 0, 16, 0x0, [⟨0, 32, .rwl, .any⟩]⟩,
  ⟨"NRG_STR_RES", 0x2C208, 0x20, 0, 16, 0x0, [⟨0, 32, .rwl, .any⟩]⟩,
  ⟨"NRG_STR_TOP", 0x2C20C, 0x20, 0, 16, 0x0, [⟨0, 32, .rwl, .any⟩]⟩,
  ⟨"NRG_STR_IMAX", 0x2C210, 0x20, 0, 16, 0x0, [⟨0, 32, .rwl, .any⟩]⟩,
  ⟨"NRG_STR_SOE_LO", 0x2C214, 0x20, 0, 16, 0x0, [⟨0, 32, .ro, .any⟩]⟩,
  ⟨"NRG_STR_SOE_HI", 0x2C218, 0x20, 0, 16, 0x0, [⟨0, 32, .ro, .any⟩]⟩,
  ⟨"NRG_STR_SOE_SET", 0x2C21C, 0x20, 0, 16, 0x0, [⟨0, 32, .wo, .any⟩]⟩,
  ⟨"NRG_STR_STAT", 0x2C400, 0x4, 0, 16, 0x0, [⟨3, 1, .w1c, .any⟩, ⟨2, 1, .ro, .any⟩, ⟨1, 1, .ro, .any⟩, ⟨0, 1, .ro, .any⟩]⟩]

/-- Registers of the `NRG_` block. -/
def nrgRegs : List RegDef := nrgRegs0 ++ nrgRegs1 ++ nrgRegs2

/-- Registers of the `MTR_` block, part 0. -/
def mtrRegs0 : List RegDef := [
  ⟨"MTR_CTL", 0x30000, 0x0, 0, 1, 0x100, [⟨8, 1, .rw, .any⟩, ⟨0, 8, .rw, .any⟩]⟩,
  ⟨"MTR_CAL_STAT", 0x30008, 0x0, 0, 1, 0x3F0000, [⟨24, 8, .ro, .any⟩, ⟨16, 6, .ro, .any⟩, ⟨8, 8, .ro, .any⟩, ⟨1, 1, .ro, .any⟩, ⟨0, 1, .ro, .any⟩]⟩,
  ⟨"MTR_DIAG", 0x30010, 0x0, 0, 1, 0x0, [⟨31, 1, .wo, .any⟩, ⟨22, 6, .rw, .channel⟩, ⟨0, 12, .rw, .any⟩]⟩,
  ⟨"MTR_DIAG_RES", 0x30014, 0x0, 0, 1, 0x0, [⟨30, 2, .ro, .any⟩, ⟨29, 1, .ro, .any⟩, ⟨28, 1, .ro, .any⟩, ⟨0, 16, .ro, .any⟩]⟩,
  ⟨"MTR_TRK_CLEAR", 0x30018, 0x0, 0, 1, 0x0, [⟨0, 32, .wo, .any⟩]⟩,
  ⟨"MTR_CH_CFG", 0x30100, 0x4, 0, 40, 0x0, [⟨31, 1, .rwl, .any⟩, ⟨30, 1, .rwl, .any⟩, ⟨29, 1, .rwl, .any⟩, ⟨8, 3, .rwl, .any⟩]⟩,
  ⟨"MTR_CH_CFG", 0x30100, 0x4, 48, 16, 0x0, [⟨31, 1, .rwl, .any⟩, ⟨30, 1, .rwl, .any⟩, ⟨29, 1, .rwl, .any⟩, ⟨8, 3, .rwl, .any⟩]⟩,
  ⟨"MTR_CH_SCALE", 0x30200, 0x8, 0, 40, 0x0, [⟨0, 32, .rwl, .f32finite⟩]⟩,
  ⟨"MTR_CH_SCALE", 0x30200, 0x8, 48, 16, 0x0, [⟨0, 32, .rwl, .f32finite⟩]⟩,
  ⟨"MTR_CH_OFS", 0x30204, 0x8, 0, 40, 0x0, [⟨0, 32, .rwl, .f32finite⟩]⟩,
  ⟨"MTR_CH_OFS", 0x30204, 0x8, 48, 16, 0x0, [⟨0, 32, .rwl, .f32finite⟩]⟩,
  ⟨"MTR_CH_STAT", 0x30400, 0x4, 0, 40, 0x0, [⟨16, 16, .ro, .any⟩, ⟨8, 8, .ro, .any⟩, ⟨5, 1, .w1c, .any⟩, ⟨4, 1, .ro, .any⟩, ⟨3, 1, .ro, .any⟩, ⟨2, 1, .ro, .any⟩, ⟨1, 1, .ro, .any⟩, ⟨0, 1, .ro, .any⟩]⟩,
  ⟨"MTR_CH_STAT", 0x30400, 0x4, 48, 16, 0x0, [⟨16, 16, .ro, .any⟩, ⟨8, 8, .ro, .any⟩, ⟨5, 1, .w1c, .any⟩, ⟨4, 1, .ro, .any⟩, ⟨3, 1, .ro, .any⟩, ⟨2, 1, .ro, .any⟩, ⟨1, 1, .ro, .any⟩, ⟨0, 1, .ro, .any⟩]⟩,
  ⟨"MTR_ROUTE", 0x30500, 0x4, 0, 128, 0x0, [⟨28, 4, .rw, .range 0 5⟩, ⟨12, 6, .rw, .any⟩, ⟨0, 12, .rw, .any⟩]⟩,
  ⟨"MTR_ACC_CFG", 0x30800, 0x4, 0, 64, 0x0, [⟨29, 3, .rwl, .range 0 4⟩, ⟨27, 2, .rwl, .range 0 2⟩, ⟨26, 1, .rwl, .any⟩, ⟨20, 6, .rwl, .channel⟩, ⟨14, 6, .rwl, .channel⟩, ⟨0, 14, .rwl, .range 1 16000⟩]⟩,
  ⟨"MTR_TRK_CFG", 0x30900, 0x4, 0, 32, 0x0, [⟨31, 1, .rw, .any⟩, ⟨30, 1, .rw, .any⟩, ⟨24, 6, .rw, .channel⟩, ⟨0, 16, .rw, .any⟩]⟩]

/-- Registers of the `MTR_` block, part 1. -/
def mtrRegs1 : List RegDef := [
  ⟨"MTR_TRK_MAX", 0x30A00, 0x8, 0, 32, 0x0, [⟨0, 32, .ro, .any⟩]⟩,
  ⟨"MTR_TRK_MIN", 0x30A04, 0x8, 0, 32, 0x0, [⟨0, 32, .ro, .any⟩]⟩,
  ⟨"MTR_ACC_ITEM", 0x31000, 0x4, 0, 512, 0x0, [⟨0, 32, .ro, .any⟩]⟩]

/-- Registers of the `MTR_` block. -/
def mtrRegs : List RegDef := mtrRegs0 ++ mtrRegs1

/-- Registers of the `PWM_` block, part 0. -/
def pwmRegs0 : List RegDef := [
  ⟨"PWM_LOAD", 0x34000, 0x0, 0, 1, 0x0, [⟨0, 8, .wo, .any⟩]⟩,
  ⟨"PWM_TRIPIN", 0x34004, 0x0, 0, 1, 0x0, [⟨16, 8, .w1c, .any⟩, ⟨8, 8, .ro, .any⟩, ⟨0, 8, .rwl, .any⟩]⟩,
  ⟨"PWM_GRP_CTL", 0x34100, 0x10, 0, 8, 0x0, [⟨31, 1, .rw, .any⟩, ⟨30, 1, .rw, .any⟩, ⟨0, 20, .rw, .range 16 1048575⟩]⟩,
  ⟨"PWM_GRP_STAT", 0x34104, 0x10, 0, 8, 0x0, [⟨23, 1, .ro, .any⟩, ⟨22, 1, .w1c, .any⟩, ⟨21, 1, .w1c, .any⟩, ⟨20, 1, .ro, .any⟩, ⟨0, 20, .ro, .any⟩]⟩,
  ⟨"PWM_CH_CFG", 0x34400, 0x20, 0, 48, 0x4000000, [⟨31, 1, .rw, .any⟩, ⟨28, 3, .rw, .any⟩, ⟨27, 1, .rw, .any⟩, ⟨26, 1, .rw, .any⟩, ⟨24, 2, .rw, .range 0 2⟩, ⟨23, 1, .rw, .any⟩, ⟨0, 12, .rw, .any⟩]⟩,
  ⟨"PWM_CH_DUTY", 0x34404, 0x20, 0, 48, 0x0, [⟨0, 24, .rw, .any⟩]⟩,
  ⟨"PWM_CH_PHASE", 0x34408, 0x20, 0, 48, 0x0, [⟨0, 20, .rw, .any⟩]⟩,
  ⟨"PWM_CH_DT", 0x3440C, 0x20, 0, 48, 0x0, [⟨0, 16, .rw, .any⟩]⟩,
  ⟨"PWM_CH_TRIP", 0x34410, 0x20, 0, 48, 0x0, [⟨16, 8, .rwl, .any⟩, ⟨0, 16, .rwl, .any⟩]⟩,
  ⟨"PWM_CH_NOW", 0x34414, 0x20, 0, 48, 0x0, [⟨0, 24, .ro, .any⟩]⟩,
  ⟨"PWM_CH_STAT", 0x34418, 0x20, 0, 48, 0x0, [⟨16, 16, .ro, .any⟩, ⟨6, 1, .ro, .any⟩, ⟨5, 1, .ro, .any⟩, ⟨4, 1, .w1c, .any⟩, ⟨3, 1, .w1c, .any⟩, ⟨2, 1, .w1c, .any⟩, ⟨1, 1, .ro, .any⟩, ⟨0, 1, .ro, .any⟩]⟩]

/-- Registers of the `PWM_` block. -/
def pwmRegs : List RegDef := pwmRegs0

/-- Registers of the `CMP_` block, part 0. -/
def cmpRegs0 : List RegDef := [
  ⟨"CMP_CTL", 0x36000, 0x0, 0, 1, 0x0, [⟨0, 8, .rwl, .any⟩]⟩,
  ⟨"CMP_LINE_STAT", 0x36004, 0x0, 0, 1, 0x0, [⟨16, 16, .ro, .any⟩, ⟨0, 16, .w1c, .any⟩]⟩,
  ⟨"CMP_WATCH_LO", 0x36008, 0x0, 0, 1, 0x0, [⟨0, 32, .rw, .any⟩]⟩,
  ⟨"CMP_WATCH_HI", 0x3600C, 0x0, 0, 1, 0x0, [⟨0, 32, .rw, .any⟩]⟩,
  ⟨"CMP_WATCH_STAT_LO", 0x36010, 0x0, 0, 1, 0x0, [⟨0, 32, .w1c, .any⟩]⟩,
  ⟨"CMP_WATCH_STAT_HI", 0x36014, 0x0, 0, 1, 0x0, [⟨0, 32, .w1c, .any⟩]⟩,
  ⟨"CMP_REARM_LO", 0x36018, 0x0, 0, 1, 0x0, [⟨0, 32, .wo, .any⟩]⟩,
  ⟨"CMP_REARM_HI", 0x3601C, 0x0, 0, 1, 0x0, [⟨0, 32, .wo, .any⟩]⟩,
  ⟨"CMP_CH_CFG", 0x36100, 0x10, 0, 64, 0x0, [⟨31, 1, .rwl, .any⟩, ⟨29, 2, .rwl, .any⟩, ⟨27, 2, .rwl, .range 1 3⟩, ⟨26, 1, .rwl, .any⟩, ⟨25, 1, .rwl, .any⟩, ⟨24, 1, .rwl, .any⟩, ⟨20, 4, .rwl, .any⟩, ⟨16, 4, .rwl, .any⟩]⟩,
  ⟨"CMP_CH_THR", 0x36104, 0x10, 0, 64, 0x0, [⟨16, 10, .rwl, .any⟩, ⟨0, 10, .rwl, .any⟩]⟩,
  ⟨"CMP_CH_BLANK", 0x36108, 0x10, 0, 64, 0x0, [⟨24, 6, .rwl, .range 0 47⟩, ⟨16, 5, .rwl, .any⟩, ⟨0, 12, .rwl, .any⟩]⟩,
  ⟨"CMP_CH_STAT", 0x3610C, 0x10, 0, 64, 0x0, [⟨24, 8, .ro, .any⟩, ⟨16, 8, .ro, .any⟩, ⟨7, 1, .ro, .any⟩, ⟨6, 1, .ro, .any⟩, ⟨5, 1, .ro, .any⟩, ⟨4, 1, .ro, .any⟩, ⟨3, 1, .ro, .any⟩, ⟨2, 1, .w1c, .any⟩, ⟨1, 1, .w1c, .any⟩, ⟨0, 1, .ro, .any⟩]⟩]

/-- Registers of the `CMP_` block. -/
def cmpRegs : List RegDef := cmpRegs0

/-- Registers of the `AUX_` block, part 0. -/
def auxRegs0 : List RegDef := [
  ⟨"AUX_CTL", 0x38000, 0x80, 0, 4, 0x30832, [⟨31, 1, .rwl, .any⟩, ⟨30, 1, .rwl, .any⟩, ⟨24, 4, .rwl, .range 1 15⟩, ⟨16, 4, .rw, .any⟩, ⟨8, 8, .rw, .range 1 255⟩, ⟨0, 8, .rw, .range 1 255⟩]⟩,
  ⟨"AUX_SRC", 0x38004, 0x80, 0, 4, 0x0, [⟨16, 6, .rwl, .channel⟩, ⟨0, 12, .rw, .any⟩]⟩,
  ⟨"AUX_TIME", 0x38008, 0x80, 0, 4, 0x1E140A0A, [⟨24, 8, .rw, .any⟩, ⟨16, 8, .rw, .range 1 255⟩, ⟨8, 8, .rw, .range 1 255⟩, ⟨0, 8, .rw, .range 1 255⟩]⟩,
  ⟨"AUX_STAT", 0x3800C, 0x80, 0, 4, 0x0, [⟨15, 1, .ro, .any⟩, ⟨14, 1, .ro, .any⟩, ⟨8, 4, .ro, .any⟩, ⟨4, 1, .ro, .any⟩, ⟨0, 4, .ro, .any⟩]⟩,
  ⟨"AUX_CNT", 0x38010, 0x80, 0, 4, 0x0, [⟨16, 16, .ro, .any⟩, ⟨0, 16, .ro, .any⟩]⟩,
  ⟨"AUX_RS", 0x38020, 0x80, 0, 4, 0x0, [⟨0, 32, .rwl, .f32nonneg⟩]⟩,
  ⟨"AUX_LS", 0x38024, 0x80, 0, 4, 0x0, [⟨0, 32, .rwl, .f32nonneg⟩]⟩,
  ⟨"AUX_PSI_M", 0x38028, 0x80, 0, 4, 0x0, [⟨0, 32, .rwl, .f32nonneg⟩]⟩,
  ⟨"AUX_I_MAX", 0x3802C, 0x80, 0, 4, 0x0, [⟨0, 32, .rwl, .f32nonneg⟩]⟩,
  ⟨"AUX_SPEED_MAX", 0x38030, 0x80, 0, 4, 0x0, [⟨0, 32, .rwl, .f32nonneg⟩]⟩,
  ⟨"AUX_FLUX_REF", 0x38034, 0x80, 0, 4, 0x0, [⟨0, 32, .rwl, .f32nonneg⟩]⟩,
  ⟨"AUX_FLUX_BAND", 0x38038, 0x80, 0, 4, 0x0, [⟨0, 32, .rwl, .f32nonneg⟩]⟩,
  ⟨"AUX_TQ_BAND", 0x3803C, 0x80, 0, 4, 0x0, [⟨0, 32, .rwl, .f32nonneg⟩]⟩,
  ⟨"AUX_KP_W", 0x38040, 0x80, 0, 4, 0x0, [⟨0, 32, .rwl, .f32nonneg⟩]⟩,
  ⟨"AUX_KI_W", 0x38044, 0x80, 0, 4, 0x0, [⟨0, 32, .rwl, .f32nonneg⟩]⟩,
  ⟨"AUX_VBUS_HI", 0x38048, 0x80, 0, 4, 0x0, [⟨0, 32, .rwl, .f32nonneg⟩]⟩]

/-- Registers of the `AUX_` block, part 1. -/
def auxRegs1 : List RegDef := [
  ⟨"AUX_VBUS_HYST", 0x3804C, 0x80, 0, 4, 0x0, [⟨0, 32, .rwl, .f32nonneg⟩]⟩,
  ⟨"AUX_STOP_SPEED", 0x38050, 0x80, 0, 4, 0x0, [⟨0, 32, .rwl, .f32nonneg⟩]⟩,
  ⟨"AUX_CATCH_I_MIN", 0x38054, 0x80, 0, 4, 0x0, [⟨0, 32, .rwl, .f32nonneg⟩]⟩,
  ⟨"AUX_I_INCON", 0x38058, 0x80, 0, 4, 0x0, [⟨0, 32, .rwl, .f32nonneg⟩]⟩,
  ⟨"AUX_ALIGN_I", 0x3805C, 0x80, 0, 4, 0x0, [⟨0, 32, .rwl, .f32nonneg⟩]⟩,
  ⟨"AUX_OUT", 0x38400, 0x0, 0, 1, 0x0, [⟨0, 12, .rw, .any⟩]⟩]

/-- Registers of the `AUX_` block. -/
def auxRegs : List RegDef := auxRegs0 ++ auxRegs1

/-- Registers of the `TSN_` block, part 0. -/
def tsnRegs0 : List RegDef := [
  ⟨"TSN_TIME_CTL", 0x3A000, 0x0, 0, 1, 0x403C03E8, [⟨31, 1, .rwl, .any⟩, ⟨30, 1, .rw, .any⟩, ⟨29, 1, .wo, .any⟩, ⟨24, 1, .rw, .any⟩, ⟨16, 8, .rw, .any⟩, ⟨0, 14, .rw, .range 10 10000⟩]⟩,
  ⟨"TSN_TIME_STAT", 0x3A004, 0x0, 0, 1, 0x0, [⟨24, 8, .ro, .any⟩, ⟨16, 8, .ro, .any⟩, ⟨5, 1, .w1c, .any⟩, ⟨4, 1, .ro, .any⟩, ⟨3, 1, .ro, .any⟩, ⟨2, 1, .ro, .any⟩, ⟨1, 1, .ro, .any⟩, ⟨0, 1, .ro, .any⟩]⟩,
  ⟨"TSN_TIME_DIFF", 0x3A008, 0x0, 0, 1, 0x0, [⟨0, 32, .ro, .any⟩]⟩,
  ⟨"TSN_NOW_LO", 0x3A010, 0x0, 0, 1, 0x0, [⟨0, 32, .ro, .any⟩]⟩,
  ⟨"TSN_NOW_HI", 0x3A014, 0x0, 0, 1, 0x0, [⟨0, 32, .ro, .any⟩]⟩,
  ⟨"TSN_LOCAL_LO", 0x3A020, 0x0, 0, 1, 0x0, [⟨0, 32, .ro, .any⟩]⟩,
  ⟨"TSN_LOCAL_HI", 0x3A024, 0x0, 0, 1, 0x0, [⟨0, 32, .ro, .any⟩]⟩,
  ⟨"TSN_PLANT_RATE_LO", 0x3A028, 0x0, 0, 1, 0x0, [⟨0, 32, .ro, .any⟩]⟩,
  ⟨"TSN_PLANT_RATE_HI", 0x3A02C, 0x0, 0, 1, 0x0, [⟨0, 32, .ro, .any⟩]⟩,
  ⟨"TSN_NOW_FRAC", 0x3A018, 0x0, 0, 1, 0x0, [⟨0, 16, .ro, .any⟩]⟩,
  ⟨"TSN_DOM_CTL", 0x3A100, 0x40, 0, 2, 0x0, [⟨31, 1, .rwl, .any⟩, ⟨29, 2, .rwl, .range 1 3⟩, ⟨26, 3, .rwl, .range 0 4⟩, ⟨25, 1, .rwl, .any⟩, ⟨24, 1, .rw, .any⟩, ⟨21, 3, .rwl, .any⟩, ⟨8, 12, .rwl, .any⟩, ⟨0, 8, .rwl, .any⟩]⟩,
  ⟨"TSN_DOM_STAT", 0x3A104, 0x40, 0, 2, 0x0, [⟨24, 8, .ro, .any⟩, ⟨16, 8, .ro, .any⟩, ⟨3, 1, .ro, .any⟩, ⟨0, 3, .ro, .any⟩]⟩,
  ⟨"TSN_DOM_OFS", 0x3A108, 0x40, 0, 2, 0x0, [⟨0, 32, .ro, .any⟩]⟩,
  ⟨"TSN_DOM_MPD", 0x3A10C, 0x40, 0, 2, 0x0, [⟨0, 32, .ro, .any⟩]⟩,
  ⟨"TSN_DOM_RATE_LO", 0x3A110, 0x40, 0, 2, 0x0, [⟨0, 32, .ro, .any⟩]⟩,
  ⟨"TSN_DOM_RATE_HI", 0x3A114, 0x40, 0, 2, 0x0, [⟨0, 32, .ro, .any⟩]⟩]

/-- Registers of the `TSN_` block, part 1. -/
def tsnRegs1 : List RegDef := [
  ⟨"TSN_DOM_GM_LO", 0x3A118, 0x40, 0, 2, 0x0, [⟨0, 32, .ro, .any⟩]⟩,
  ⟨"TSN_DOM_GM_HI", 0x3A11C, 0x40, 0, 2, 0x0, [⟨0, 32, .ro, .any⟩]⟩,
  ⟨"TSN_DOM_UTC", 0x3A120, 0x40, 0, 2, 0x0, [⟨16, 1, .ro, .any⟩, ⟨0, 16, .ro, .any⟩]⟩,
  ⟨"TSN_DOM_SERVO", 0x3A124, 0x40, 0, 2, 0x6403E8, [⟨16, 16, .rw, .any⟩, ⟨0, 16, .rw, .any⟩]⟩,
  ⟨"TSN_PORT_CTL", 0x3A400, 0x80, 0, 2, 0x40000000, [⟨31, 1, .rwl, .any⟩, ⟨30, 1, .rw, .any⟩]⟩,
  ⟨"TSN_PORT_STAT", 0x3A404, 0x80, 0, 2, 0x0, [⟨3, 1, .ro, .any⟩, ⟨2, 1, .w1c, .any⟩, ⟨1, 1, .ro, .any⟩, ⟨0, 1, .ro, .any⟩]⟩,
  ⟨"TSN_PORT_MAC_HI", 0x3A408, 0x80, 0, 2, 0x0, [⟨0, 16, .rwl, .any⟩]⟩,
  ⟨"TSN_PORT_MAC_LO", 0x3A40C, 0x80, 0, 2, 0x0, [⟨0, 32, .rwl, .any⟩]⟩,
  ⟨"TSN_PORT_ING_LAT", 0x3A410, 0x80, 0, 2, 0x0, [⟨0, 32, .rwl, .any⟩]⟩,
  ⟨"TSN_PORT_EGR_LAT", 0x3A414, 0x80, 0, 2, 0x0, [⟨0, 32, .rwl, .any⟩]⟩,
  ⟨"TSN_PORT_ASYM", 0x3A418, 0x80, 0, 2, 0x0, [⟨0, 32, .rwl, .any⟩]⟩,
  ⟨"TSN_PORT0_VLAN", 0x3A420, 0x4, 0, 8, 0x0, [⟨31, 1, .rwl, .any⟩, ⟨0, 12, .rwl, .any⟩]⟩,
  ⟨"TSN_PORT0_MC_HI", 0x3A440, 0x8, 0, 4, 0x0, [⟨31, 1, .rwl, .any⟩, ⟨0, 16, .rwl, .any⟩]⟩,
  ⟨"TSN_PORT0_MC_LO", 0x3A444, 0x8, 0, 4, 0x0, [⟨0, 32, .rwl, .any⟩]⟩,
  ⟨"TSN_PORT1_VLAN", 0x3A4A0, 0x4, 0, 8, 0x0, [⟨31, 1, .rwl, .any⟩, ⟨0, 12, .rwl, .any⟩]⟩,
  ⟨"TSN_PORT1_MC_HI", 0x3A4C0, 0x8, 0, 4, 0x0, [⟨31, 1, .rwl, .any⟩, ⟨0, 16, .rwl, .any⟩]⟩]

/-- Registers of the `TSN_` block, part 2. -/
def tsnRegs2 : List RegDef := [
  ⟨"TSN_PORT1_MC_LO", 0x3A4C4, 0x8, 0, 4, 0x0, [⟨0, 32, .rwl, .any⟩]⟩,
  ⟨"TSN_PORT_DROP", 0x3A460, 0x80, 0, 2, 0x0, [⟨16, 16, .ro, .any⟩, ⟨0, 16, .ro, .any⟩]⟩,
  ⟨"TSN_PORT_ERR", 0x3A464, 0x80, 0, 2, 0x0, [⟨16, 16, .ro, .any⟩, ⟨0, 16, .ro, .any⟩]⟩,
  ⟨"TSN_Q_CTL", 0x3A600, 0x4, 0, 8, 0x64, [⟨31, 1, .rw, .any⟩, ⟨30, 1, .rw, .any⟩, ⟨0, 16, .rw, .any⟩]⟩,
  ⟨"TSN_Q_STAT", 0x3A620, 0x4, 0, 8, 0x0, [⟨16, 16, .ro, .any⟩, ⟨0, 16, .ro, .any⟩]⟩,
  ⟨"TSN_PRP_CTL", 0x3A700, 0x0, 0, 1, 0x190, [⟨31, 1, .rwl, .any⟩, ⟨0, 16, .rw, .range 1 65535⟩]⟩,
  ⟨"TSN_PRP_STAT", 0x3A704, 0x0, 0, 1, 0x0, [⟨16, 16, .ro, .any⟩, ⟨8, 8, .ro, .any⟩, ⟨0, 8, .ro, .any⟩]⟩]

/-- Registers of the `TSN_` block. -/
def tsnRegs : List RegDef := tsnRegs0 ++ tsnRegs1 ++ tsnRegs2

/-- Registers of the `RED_` block, part 0. -/
def redRegs0 : List RegDef := [
  ⟨"RED_CTL", 0x3C000, 0x0, 0, 1, 0x243200, [⟨31, 1, .rwl, .any⟩, ⟨30, 1, .rwl, .any⟩, ⟨29, 1, .rwl, .any⟩, ⟨20, 4, .rw, .range 1 15⟩, ⟨16, 4, .rw, .range 1 15⟩, ⟨8, 8, .rw, .range 1 255⟩]⟩,
  ⟨"RED_STAT", 0x3C004, 0x0, 0, 1, 0x0, [⟨24, 8, .ro, .any⟩, ⟨12, 1, .ro, .any⟩, ⟨11, 1, .ro, .any⟩, ⟨9, 2, .ro, .any⟩, ⟨8, 1, .ro, .any⟩, ⟨4, 4, .ro, .any⟩, ⟨2, 2, .ro, .any⟩, ⟨0, 2, .ro, .any⟩]⟩,
  ⟨"RED_PARTNER", 0x3C008, 0x0, 0, 1, 0x0, [⟨16, 16, .ro, .any⟩, ⟨8, 8, .ro, .any⟩, ⟨7, 1, .ro, .any⟩, ⟨5, 2, .ro, .any⟩, ⟨4, 1, .ro, .any⟩, ⟨2, 2, .ro, .any⟩, ⟨1, 1, .ro, .any⟩, ⟨0, 1, .ro, .any⟩]⟩,
  ⟨"RED_CMP", 0x3C00C, 0x0, 0, 1, 0x20, [⟨0, 16, .rw, .any⟩]⟩,
  ⟨"RED_HEALTH", 0x3C010, 0x0, 0, 1, 0xFFFF, [⟨16, 16, .ro, .any⟩, ⟨0, 16, .ro, .any⟩]⟩,
  ⟨"RED_COPY", 0x3C014, 0x0, 0, 1, 0x0, [⟨16, 16, .ro, .any⟩, ⟨0, 16, .ro, .any⟩]⟩,
  ⟨"RED_GATE", 0x3C018, 0x0, 0, 1, 0x0, [⟨0, 8, .rwl, .any⟩]⟩,
  ⟨"RED_CNT", 0x3C01C, 0x0, 0, 1, 0x0, [⟨24, 8, .ro, .any⟩, ⟨16, 8, .ro, .any⟩, ⟨8, 8, .ro, .any⟩, ⟨0, 8, .ro, .any⟩]⟩]

/-- Registers of the `RED_` block. -/
def redRegs : List RegDef := redRegs0

/-- Registers of the `FLT_` block, part 0. -/
def fltRegs0 : List RegDef := [
  ⟨"FLT_CTL", 0x3E000, 0x0, 0, 1, 0x88000, [⟨31, 1, .wo, .any⟩, ⟨16, 8, .rw, .range 1 255⟩, ⟨15, 1, .rw, .any⟩, ⟨0, 14, .rwl, .range 1 10000⟩]⟩,
  ⟨"FLT_STAT", 0x3E004, 0x0, 0, 1, 0x0, [⟨30, 2, .ro, .any⟩, ⟨29, 1, .ro, .any⟩, ⟨28, 1, .w1c, .any⟩, ⟨16, 9, .ro, .any⟩, ⟨8, 8, .ro, .any⟩, ⟨0, 5, .ro, .any⟩]⟩,
  ⟨"FLT_SAFE_CAUSE", 0x3E008, 0x0, 0, 1, 0x0, [⟨0, 6, .ro, .any⟩]⟩,
  ⟨"FLT_CNT", 0x3E00C, 0x0, 0, 1, 0x0, [⟨24, 8, .ro, .any⟩, ⟨16, 8, .ro, .any⟩, ⟨8, 8, .ro, .any⟩, ⟨0, 8, .ro, .any⟩]⟩,
  ⟨"FLT_FIRST0", 0x3E020, 0x0, 0, 1, 0x0, [⟨31, 1, .ro, .any⟩, ⟨30, 1, .ro, .any⟩, ⟨28, 2, .ro, .any⟩, ⟨16, 9, .ro, .any⟩, ⟨0, 16, .ro, .any⟩]⟩,
  ⟨"FLT_FIRST1", 0x3E024, 0x0, 0, 1, 0x0, [⟨0, 32, .ro, .any⟩]⟩,
  ⟨"FLT_FIRST2", 0x3E028, 0x0, 0, 1, 0x0, [⟨0, 32, .ro, .any⟩]⟩,
  ⟨"FLT_FIRST3", 0x3E02C, 0x0, 0, 1, 0x0, [⟨16, 16, .ro, .any⟩, ⟨8, 8, .ro, .any⟩, ⟨0, 8, .ro, .any⟩]⟩,
  ⟨"FLT_FIRST4", 0x3E030, 0x0, 0, 1, 0x0, [⟨0, 32, .ro, .any⟩]⟩,
  ⟨"FLT_FIRST5", 0x3E034, 0x0, 0, 1, 0x0, [⟨0, 32, .ro, .any⟩]⟩,
  ⟨"FLT_FIRST6", 0x3E038, 0x0, 0, 1, 0x0, [⟨0, 8, .ro, .any⟩]⟩,
  ⟨"FLT_LOG_IDX", 0x3E040, 0x0, 0, 1, 0x0, [⟨0, 8, .rw, .any⟩]⟩,
  ⟨"FLT_LOG_DATA", 0x3E080, 0x4, 0, 16, 0x0, [⟨0, 32, .ro, .any⟩]⟩,
  ⟨"FLT_ACTIVE", 0x3E100, 0x4, 0, 16, 0x0, [⟨0, 32, .ro, .any⟩]⟩,
  ⟨"FLT_LATCH", 0x3E140, 0x4, 0, 16, 0x0, [⟨0, 32, .ro, .any⟩]⟩,
  ⟨"FLT_SHADOW_MAP", 0x3E180, 0x4, 1, 10, 0x0, [⟨0, 16, .rwl, .any⟩]⟩]

/-- Registers of the `FLT_` block, part 1. -/
def fltRegs1 : List RegDef := [
  ⟨"FLT_SHADOW_CNT", 0x3E1C0, 0x4, 1, 10, 0x0, [⟨16, 16, .ro, .any⟩, ⟨0, 16, .ro, .any⟩]⟩,
  ⟨"FLT_REACT", 0x3E800, 0x4, 0, 512, 0x0, [⟨30, 2, .ro, .any⟩, ⟨29, 1, .rwl, .any⟩, ⟨28, 1, .rwl, .any⟩, ⟨27, 1, .rwl, .any⟩, ⟨26, 1, .rwl, .any⟩, ⟨25, 1, .rwl, .any⟩, ⟨24, 1, .rwl, .any⟩]⟩]

/-- Registers of the `FLT_` block. -/
def fltRegs : List RegDef := fltRegs0 ++ fltRegs1

/-- Registers of the `SEC_` block, part 0. -/
def secRegs0 : List RegDef := [
  ⟨"SEC_LC", 0x3F000, 0x0, 0, 1, 0x1, [⟨0, 2, .ro, .any⟩]⟩,
  ⟨"SEC_IMG_STAT", 0x3F004, 0x0, 0, 1, 0x77F00, [⟨24, 8, .ro, .any⟩, ⟨16, 4, .ro, .any⟩, ⟨12, 4, .ro, .any⟩, ⟨8, 4, .ro, .any⟩, ⟨2, 1, .ro, .any⟩, ⟨1, 1, .ro, .any⟩, ⟨0, 1, .ro, .any⟩]⟩,
  ⟨"SEC_ROLLBACK", 0x3F008, 0x0, 0, 1, 0x0, [⟨8, 8, .ro, .any⟩, ⟨0, 8, .ro, .any⟩]⟩,
  ⟨"SEC_KEYS", 0x3F00C, 0x0, 0, 1, 0x100, [⟨8, 1, .ro, .any⟩, ⟨4, 4, .ro, .any⟩, ⟨0, 4, .ro, .any⟩]⟩,
  ⟨"SEC_IMG_DIGEST", 0x3F010, 0x4, 0, 8, 0x0, [⟨0, 32, .ro, .any⟩]⟩,
  ⟨"SEC_CERT_LEN", 0x3F03C, 0x0, 0, 1, 0x0, [⟨0, 11, .ro, .any⟩]⟩,
  ⟨"SEC_DBG_STAT", 0x3F040, 0x0, 0, 1, 0x155, [⟨16, 16, .ro, .any⟩, ⟨13, 1, .ro, .any⟩, ⟨12, 1, .ro, .any⟩, ⟨10, 1, .ro, .any⟩, ⟨8, 2, .ro, .any⟩, ⟨6, 2, .ro, .any⟩, ⟨4, 2, .ro, .any⟩, ⟨2, 2, .ro, .any⟩, ⟨0, 2, .ro, .any⟩]⟩,
  ⟨"SEC_DBG_ADDR_LO", 0x3F050, 0x0, 0, 1, 0x0, [⟨0, 32, .rw, .any⟩]⟩,
  ⟨"SEC_DBG_ADDR_HI", 0x3F054, 0x0, 0, 1, 0x0, [⟨0, 32, .rw, .any⟩]⟩,
  ⟨"SEC_DBG_DATA", 0x3F058, 0x0, 0, 1, 0x0, [⟨0, 32, .rw, .any⟩]⟩,
  ⟨"SEC_DBG_CMD", 0x3F05C, 0x0, 0, 1, 0x0, [⟨9, 1, .ro, .any⟩, ⟨8, 1, .ro, .any⟩, ⟨1, 1, .wo, .any⟩, ⟨0, 1, .wo, .any⟩]⟩,
  ⟨"SEC_CERT", 0x3F400, 0x4, 0, 256, 0x0, [⟨0, 32, .ro, .any⟩]⟩]

/-- Registers of the `SEC_` block. -/
def secRegs : List RegDef := secRegs0

/-- The rows of the block whose window of spec/18 holds the offset. -/
def regRows (off : Nat) : List RegDef :=
  if off < 0x4000 then sysRegs
  else if off < 0x8000 then clkRegs
  else if off < 0x10000 then hstRegs
  else if off < 0x20000 then cnlRegs
  else if off < 0x28000 then loopRegs
  else if off < 0x2C000 then cellRegs
  else if off < 0x30000 then nrgRegs
  else if off < 0x34000 then mtrRegs
  else if off < 0x36000 then pwmRegs
  else if off < 0x38000 then cmpRegs
  else if off < 0x3A000 then auxRegs
  else if off < 0x3C000 then tsnRegs
  else if off < 0x3E000 then redRegs
  else if off < 0x3F000 then fltRegs
  else secRegs

/-- Index of the register of this row at `off`, if there is one. -/
def RegDef.indexOf (d : RegDef) (off : Nat) : Option Nat :=
  if off < d.base then none
  else if d.stride = 0 then (if off = d.base then some 0 else none)
  else
    let i := (off - d.base) / d.stride
    if (off - d.base) % d.stride = 0 ∧ d.lo ≤ i ∧ i < d.lo + d.count then some i else none

/-- First row of a list with a register at `off`, with that register's index. -/
def findReg (off : Nat) : List RegDef → Option (RegDef × Nat)
  | [] => none
  | d :: ds => match d.indexOf off with
    | some i => some (d, i)
    | none => findReg off ds

/-- The register at a BAR0 offset: its row and its index in the row. -/
def regAt (off : Nat) : Option (RegDef × Nat) := findReg off (regRows off)

/-- Reset vector of ring `r` (Table 4.3). -/
def ringResetVec (r : Nat) : Nat := if r = 12 then 1 else if r < 12 then r + 2 else r + 1

/-- Reset value of the register at a BAR0 offset (R13); 0 where no register exists (R8). -/
def regReset (off : Nat) : BitVec 32 :=
  match regAt off with
  | none => 0
  | some (d, i) =>
    if d.base = 0x8108 then BitVec.ofNat 32 (d.reset + ringResetVec i * 0x10000)
    else BitVec.ofNat 32 d.reset

end Sys2Proof.Machine
end

