-- ==== Sys2Proof/Machine/RegFields.lean ====
section
/-! DEFINITION. A name for every register field of BAR0: where the field lies (offset of the
register, lowest bit, width).  A field of an array of registers takes the register's index.  A
register that is one field named V, or one unnamed value, carries the register's own name. -/

set_option Elab.async false

namespace Sys2Proof.Machine

/-- A register field: the BAR0 offset of its register, its lowest bit and its width. -/
structure Fld where
  off : Nat
  lsb : Nat
  width : Nat
  deriving DecidableEq, Repr

-- the `SYS_` block
def R.SYS_ID_PART : Fld := ⟨0x0, 16, 16⟩
def R.SYS_ID_REV_MAJOR : Fld := ⟨0x0, 12, 4⟩
def R.SYS_ID_REV_MINOR : Fld := ⟨0x0, 8, 4⟩
def R.SYS_ID_FAMILY : Fld := ⟨0x0, 0, 8⟩
def R.SYS_CYCLE_COMMIT : Fld := ⟨0x10, 31, 1⟩
def R.SYS_CYCLE_PERIOD : Fld := ⟨0x10, 0, 15⟩
def R.SYS_CYCLE_STAT_CYCLE_NUM : Fld := ⟨0x14, 16, 16⟩
def R.SYS_CYCLE_STAT_REFUSE_CODE : Fld := ⟨0x14, 1, 3⟩
def R.SYS_CYCLE_STAT_REFUSED : Fld := ⟨0x14, 0, 1⟩
def R.SYS_CYCLE_NOW_PERIOD : Fld := ⟨0x18, 0, 15⟩
def R.SYS_CYCLE_OVR_COUNT : Fld := ⟨0x1C, 0, 16⟩
def R.SYS_STRAP_BOOT_IGNORED : Fld := ⟨0x20, 3, 1⟩
def R.SYS_STRAP_LANE_POL : Fld := ⟨0x20, 2, 1⟩
def R.SYS_STRAP_BOOT_SRC : Fld := ⟨0x20, 1, 1⟩
def R.SYS_STRAP_SEAT_SEL : Fld := ⟨0x20, 0, 1⟩
def R.SYS_AON_STAT_CARRYING : Fld := ⟨0x24, 4, 1⟩
def R.SYS_AON_STAT_B_LOST : Fld := ⟨0x24, 3, 1⟩
def R.SYS_AON_STAT_A_LOST : Fld := ⟨0x24, 2, 1⟩
def R.SYS_AON_STAT_B_OK : Fld := ⟨0x24, 1, 1⟩
def R.SYS_AON_STAT_A_OK : Fld := ⟨0x24, 0, 1⟩
def R.SYS_TEMP_TEMP : Fld := ⟨0x28, 0, 12⟩
def R.SYS_RESET_CAUSE_COUNT : Fld := ⟨0x30, 16, 16⟩
def R.SYS_RESET_CAUSE_BLK_REFUSED : Fld := ⟨0x30, 15, 1⟩
def R.SYS_RESET_CAUSE_MON_RAIL : Fld := ⟨0x30, 4, 6⟩
def R.SYS_RESET_CAUSE_OFF_EXIT : Fld := ⟨0x30, 3, 1⟩
def R.SYS_RESET_CAUSE_SYS : Fld := ⟨0x30, 2, 1⟩
def R.SYS_RESET_CAUSE_MON : Fld := ⟨0x30, 1, 1⟩
def R.SYS_RESET_CAUSE_POR : Fld := ⟨0x30, 0, 1⟩
def R.SYS_RST_CTL_KEY : Fld := ⟨0x34, 16, 16⟩
def R.SYS_RST_CTL_BLOCK : Fld := ⟨0x34, 8, 4⟩
def R.SYS_RST_CTL_BLK_RST : Fld := ⟨0x34, 1, 1⟩
def R.SYS_RST_CTL_SYS_RST : Fld := ⟨0x34, 0, 1⟩
def R.SYS_BOOT_STAT_TIME : Fld := ⟨0x38, 16, 16⟩
def R.SYS_BOOT_STAT_CODE : Fld := ⟨0x38, 4, 4⟩
def R.SYS_BOOT_STAT_FAILED : Fld := ⟨0x38, 1, 1⟩
def R.SYS_BOOT_STAT_DONE : Fld := ⟨0x38, 0, 1⟩
def R.SYS_PWR_CTL_WAKE_CMP : Fld := ⟨0x40, 8, 1⟩
def R.SYS_PWR_CTL_REQ : Fld := ⟨0x40, 0, 3⟩
def R.SYS_PWR_STAT_FORCED : Fld := ⟨0x44, 16, 1⟩
def R.SYS_PWR_STAT_LAST_STATUS : Fld := ⟨0x44, 8, 8⟩
def R.SYS_PWR_STAT_PENDING : Fld := ⟨0x44, 4, 3⟩
def R.SYS_PWR_STAT_MOVING : Fld := ⟨0x44, 3, 1⟩
def R.SYS_PWR_STAT_STATE : Fld := ⟨0x44, 0, 3⟩
def R.SYS_OVERLAY_LOOP_POUNDS : Fld := ⟨0x50, 16, 12⟩
def R.SYS_OVERLAY_REFUSE_CODE : Fld := ⟨0x50, 8, 3⟩
def R.SYS_OVERLAY_REFUSED : Fld := ⟨0x50, 7, 1⟩
def R.SYS_OVERLAY_CANAL_LOOPBACK : Fld := ⟨0x50, 2, 1⟩
def R.SYS_OVERLAY_MTR_TESTDAC : Fld := ⟨0x50, 1, 1⟩
def R.SYS_OVERLAY_PWM_MASKED : Fld := ⟨0x50, 0, 1⟩
def R.SYS_MODE_SAFETY : Fld := ⟨0x54, 24, 2⟩
def R.SYS_MODE_POWER : Fld := ⟨0x54, 20, 3⟩
def R.SYS_MODE_LIFECYCLE : Fld := ⟨0x54, 18, 2⟩
def R.SYS_MODE_ROLE : Fld := ⟨0x54, 16, 2⟩
def R.SYS_MODE_GRID : Fld := ⟨0x54, 14, 2⟩
def R.SYS_MODE_DIR : Fld := ⟨0x54, 12, 2⟩
def R.SYS_MODE_OVERLAY : Fld := ⟨0x54, 8, 3⟩
def R.SYS_MODE_DBG_PCIE : Fld := ⟨0x54, 4, 4⟩
def R.SYS_MODE_DBG_JTAG : Fld := ⟨0x54, 0, 4⟩
-- the `CLK_` block
def R.CLK_REF_CTL_QUAL : Fld := ⟨0x4000, 8, 8⟩
def R.CLK_REF_CTL_REFB_EN : Fld := ⟨0x4000, 3, 1⟩
def R.CLK_REF_CTL_REFA_EN : Fld := ⟨0x4000, 2, 1⟩
def R.CLK_REF_CTL_REVERT : Fld := ⟨0x4000, 1, 1⟩
def R.CLK_REF_CTL_PREF : Fld := ⟨0x4000, 0, 1⟩
def R.CLK_REF_STAT_PHASE_ERR : Fld := ⟨0x4004, 16, 16⟩
def R.CLK_REF_STAT_REFB_LOST : Fld := ⟨0x4004, 6, 1⟩
def R.CLK_REF_STAT_REFA_LOST : Fld := ⟨0x4004, 5, 1⟩
def R.CLK_REF_STAT_SLEWING : Fld := ⟨0x4004, 4, 1⟩
def R.CLK_REF_STAT_HOLDOVER : Fld := ⟨0x4004, 3, 1⟩
def R.CLK_REF_STAT_SEL : Fld := ⟨0x4004, 2, 1⟩
def R.CLK_REF_STAT_REFB_OK : Fld := ⟨0x4004, 1, 1⟩
def R.CLK_REF_STAT_REFA_OK : Fld := ⟨0x4004, 0, 1⟩
def R.CLK_PLL_STAT_SEARCH : Fld := ⟨0x4008, 16, 12⟩
def R.CLK_PLL_STAT_LOCKED : Fld := ⟨0x4008, 0, 12⟩
def R.CLK_FB_STAT_RET_REFUSED : Fld := ⟨0x400C, 16, 8⟩
def R.CLK_FB_STAT_DOMAIN : Fld := ⟨0x400C, 0, 12⟩
def R.CLK_RETURN_DOMAIN : Fld := ⟨0x4010, 0, 12⟩
def R.CLK_SLEW_MAX_RATE : Fld := ⟨0x4014, 0, 16⟩
def R.CLK_DIV_STAGE_SYNC_DIV : Fld := ⟨0x4020, 4, 4⟩
def R.CLK_DIV_STAGE_ETH1_RATE : Fld := ⟨0x4020, 1, 1⟩
def R.CLK_DIV_STAGE_ETH0_RATE : Fld := ⟨0x4020, 0, 1⟩
def R.CLK_DIV_NOW_SYNC_DIV : Fld := ⟨0x4024, 4, 4⟩
def R.CLK_DIV_NOW_ETH1_RATE : Fld := ⟨0x4024, 1, 1⟩
def R.CLK_DIV_NOW_ETH0_RATE : Fld := ⟨0x4024, 0, 1⟩
def R.CLK_UPDATE_BUSY : Fld := ⟨0x4028, 3, 1⟩
def R.CLK_UPDATE_LATE : Fld := ⟨0x4028, 2, 1⟩
def R.CLK_UPDATE_REFUSED : Fld := ⟨0x4028, 1, 1⟩
def R.CLK_UPDATE_GO : Fld := ⟨0x4028, 0, 1⟩
def R.CLK_SYNC_IGNORED : Fld := ⟨0x402C, 16, 8⟩
def R.CLK_SYNC_ALIGNED_CNT : Fld := ⟨0x402C, 8, 8⟩
def R.CLK_SYNC_MOVED : Fld := ⟨0x402C, 3, 1⟩
def R.CLK_SYNC_IN_PHASE : Fld := ⟨0x402C, 2, 1⟩
def R.CLK_SYNC_ALIGN_EN : Fld := ⟨0x402C, 1, 1⟩
def R.CLK_SYNC_OUT_EN : Fld := ⟨0x402C, 0, 1⟩
-- the `HST_` block
def R.HST_IDX_BASE_LO_ADDR : Fld := ⟨0x8000, 7, 25⟩
def R.HST_IDX_BASE_LO_EN : Fld := ⟨0x8000, 0, 1⟩
def R.HST_IDX_BASE_HI_ADDR : Fld := ⟨0x8004, 0, 32⟩
def R.HST_CMD_PERMIT01_RING1 : Fld := ⟨0x8008, 16, 10⟩
def R.HST_CMD_PERMIT01_RING0 : Fld := ⟨0x8008, 0, 10⟩
def R.HST_CMD_PERMIT23_RING3 : Fld := ⟨0x800C, 16, 10⟩
def R.HST_CMD_PERMIT23_RING2 : Fld := ⟨0x800C, 0, 10⟩
def R.HST_WATCH_ENABLE : Fld := ⟨0x8010, 31, 1⟩
def R.HST_WATCH_SWAP_FIRST : Fld := ⟨0x8010, 30, 1⟩
def R.HST_WATCH_PLAN : Fld := ⟨0x8010, 28, 2⟩
def R.HST_WATCH_RAMP : Fld := ⟨0x8010, 20, 8⟩
def R.HST_WATCH_TIMEOUT : Fld := ⟨0x8010, 0, 14⟩
def R.HST_WATCH_STAT_EXPIRIES : Fld := ⟨0x8014, 16, 16⟩
def R.HST_WATCH_STAT_EXPIRED : Fld := ⟨0x8014, 3, 1⟩
def R.HST_WATCH_STAT_STATE : Fld := ⟨0x8014, 0, 3⟩
def R.HST_KEPT_BUSY_CNT : Fld := ⟨0x8018, 16, 8⟩
def R.HST_KEPT_COUNT : Fld := ⟨0x8018, 0, 7⟩
def R.HST_EVT_STAT_LOST : Fld := ⟨0x801C, 16, 16⟩
def R.HST_EVT_STAT_HELD : Fld := ⟨0x801C, 0, 7⟩
def R.HST_RING_BASE_LO_ADDR (i : Nat) : Fld := ⟨0x8100 + 0x20 * i, 12, 20⟩
def R.HST_RING_BASE_HI_ADDR (i : Nat) : Fld := ⟨0x8104 + 0x20 * i, 0, 32⟩
def R.HST_RING_CTL_ENABLE (i : Nat) : Fld := ⟨0x8108 + 0x20 * i, 31, 1⟩
def R.HST_RING_CTL_VEC (i : Nat) : Fld := ⟨0x8108 + 0x20 * i, 16, 5⟩
def R.HST_RING_CTL_SIZE_LOG2 (i : Nat) : Fld := ⟨0x8108 + 0x20 * i, 0, 4⟩
def R.HST_RING_IRQ_HOLDOFF (i : Nat) : Fld := ⟨0x810C + 0x20 * i, 16, 10⟩
def R.HST_RING_IRQ_COUNT (i : Nat) : Fld := ⟨0x810C + 0x20 * i, 0, 8⟩
def R.HST_RING_STAT_CONS (i : Nat) : Fld := ⟨0x8110 + 0x20 * i, 16, 16⟩
def R.HST_RING_STAT_PROD (i : Nat) : Fld := ⟨0x8110 + 0x20 * i, 0, 16⟩
def R.HST_RING_STATE_ERR_CODE (i : Nat) : Fld := ⟨0x8114 + 0x20 * i, 8, 8⟩
def R.HST_RING_STATE_ENABLE_PENDING (i : Nat) : Fld := ⟨0x8114 + 0x20 * i, 3, 1⟩
def R.HST_RING_STATE_HALTED (i : Nat) : Fld := ⟨0x8114 + 0x20 * i, 2, 1⟩
def R.HST_RING_STATE_QUIESCED (i : Nat) : Fld := ⟨0x8114 + 0x20 * i, 1, 1⟩
def R.HST_RING_STATE_ERR (i : Nat) : Fld := ⟨0x8114 + 0x20 * i, 0, 1⟩
def R.HST_RING_DB_INDEX (i : Nat) : Fld := ⟨0x8118 + 0x20 * i, 0, 16⟩
def R.HST_TLM_CTL_ENABLE (i : Nat) : Fld := ⟨0x8400 + 0x10 * i, 31, 1⟩
def R.HST_TLM_CTL_ITEMS (i : Nat) : Fld := ⟨0x8400 + 0x10 * i, 16, 11⟩
def R.HST_TLM_CTL_DECIM (i : Nat) : Fld := ⟨0x8400 + 0x10 * i, 0, 16⟩
def R.HST_TLM_LIST_LO_ADDR (i : Nat) : Fld := ⟨0x8404 + 0x10 * i, 2, 30⟩
def R.HST_TLM_LIST_HI_ADDR (i : Nat) : Fld := ⟨0x8408 + 0x10 * i, 0, 32⟩
def R.HST_TLM_STAT_DROPPED (i : Nat) : Fld := ⟨0x840C + 0x10 * i, 16, 16⟩
def R.HST_TLM_STAT_REFUSE_CODE (i : Nat) : Fld := ⟨0x840C + 0x10 * i, 4, 4⟩
def R.HST_TLM_STAT_REFUSED (i : Nat) : Fld := ⟨0x840C + 0x10 * i, 0, 1⟩
-- the `CNL_` block
def R.CNL_LANE_CTL_EN (i : Nat) : Fld := ⟨0x10000 + 0x40 * i, 31, 1⟩
def R.CNL_LANE_CTL_TX_INV (i : Nat) : Fld := ⟨0x10000 + 0x40 * i, 30, 1⟩
def R.CNL_LANE_CTL_RX_INV (i : Nat) : Fld := ⟨0x10000 + 0x40 * i, 29, 1⟩
def R.CNL_LANE_CTL_EQ_FORCE (i : Nat) : Fld := ⟨0x10000 + 0x40 * i, 28, 1⟩
def R.CNL_LANE_CTL_RESTART (i : Nat) : Fld := ⟨0x10000 + 0x40 * i, 27, 1⟩
def R.CNL_LANE_CTL_TARGET (i : Nat) : Fld := ⟨0x10000 + 0x40 * i, 24, 2⟩
def R.CNL_LANE_CTL_FORCE_POST (i : Nat) : Fld := ⟨0x10000 + 0x40 * i, 12, 4⟩
def R.CNL_LANE_CTL_FORCE_PRE (i : Nat) : Fld := ⟨0x10000 + 0x40 * i, 8, 3⟩
def R.CNL_LANE_STAT_REACH (i : Nat) : Fld := ⟨0x10004 + 0x40 * i, 24, 5⟩
def R.CNL_LANE_STAT_RETRIES (i : Nat) : Fld := ⟨0x10004 + 0x40 * i, 16, 8⟩
def R.CNL_LANE_STAT_CAP_RATE (i : Nat) : Fld := ⟨0x10004 + 0x40 * i, 10, 2⟩
def R.CNL_LANE_STAT_RATE (i : Nat) : Fld := ⟨0x10004 + 0x40 * i, 8, 2⟩
def R.CNL_LANE_STAT_LOST (i : Nat) : Fld := ⟨0x10004 + 0x40 * i, 5, 1⟩
def R.CNL_LANE_STAT_WAS_ABSENT (i : Nat) : Fld := ⟨0x10004 + 0x40 * i, 4, 1⟩
def R.CNL_LANE_STAT_STATE (i : Nat) : Fld := ⟨0x10004 + 0x40 * i, 0, 3⟩
def R.CNL_LANE_TAPS_EYE (i : Nat) : Fld := ⟨0x10008 + 0x40 * i, 24, 8⟩
def R.CNL_LANE_TAPS_FAR_POST (i : Nat) : Fld := ⟨0x10008 + 0x40 * i, 20, 4⟩
def R.CNL_LANE_TAPS_FAR_PRE (i : Nat) : Fld := ⟨0x10008 + 0x40 * i, 16, 3⟩
def R.CNL_LANE_TAPS_TX_POST (i : Nat) : Fld := ⟨0x10008 + 0x40 * i, 8, 4⟩
def R.CNL_LANE_TAPS_TX_PRE (i : Nat) : Fld := ⟨0x10008 + 0x40 * i, 4, 3⟩
def R.CNL_LANE_ERR_INVALID (i : Nat) : Fld := ⟨0x1000C + 0x40 * i, 16, 16⟩
def R.CNL_LANE_ERR_LOSS_CNT (i : Nat) : Fld := ⟨0x1000C + 0x40 * i, 8, 8⟩
def R.CNL_LANE_ERR_STEP_FAIL (i : Nat) : Fld := ⟨0x1000C + 0x40 * i, 0, 8⟩
def R.CNL_TP_CTL_EN : Fld := ⟨0x10780, 0, 12⟩
def R.CNL_TP_STAT_STATE (i : Nat) : Fld := ⟨0x10800 + 0x10 * i, 16, 8⟩
def R.CNL_TP_STAT_SEQ (i : Nat) : Fld := ⟨0x10800 + 0x10 * i, 8, 8⟩
def R.CNL_TP_STAT_ORIGIN (i : Nat) : Fld := ⟨0x10800 + 0x10 * i, 3, 1⟩
def R.CNL_TP_STAT_TURNED (i : Nat) : Fld := ⟨0x10800 + 0x10 * i, 2, 1⟩
def R.CNL_TP_STAT_LOST (i : Nat) : Fld := ⟨0x10800 + 0x10 * i, 1, 1⟩
def R.CNL_TP_STAT_UP (i : Nat) : Fld := ⟨0x10800 + 0x10 * i, 0, 1⟩
def R.CNL_TP_MAP_FAULT (i : Nat) : Fld := ⟨0x10804 + 0x10 * i, 16, 16⟩
def R.CNL_TP_MAP_ALIVE (i : Nat) : Fld := ⟨0x10804 + 0x10 * i, 0, 16⟩
def R.CNL_TP_ERR_CRC_ERR (i : Nat) : Fld := ⟨0x10808 + 0x10 * i, 16, 16⟩
def R.CNL_TP_ERR_LOSS_CNT (i : Nat) : Fld := ⟨0x10808 + 0x10 * i, 0, 16⟩
def R.CNL_POUND_CTL_FULL_DIV (i : Nat) : Fld := ⟨0x10A00 + 0x20 * i, 12, 4⟩
def R.CNL_POUND_CTL_STEER (i : Nat) : Fld := ⟨0x10A00 + 0x20 * i, 8, 1⟩
def R.CNL_POUND_CTL_FITTED (i : Nat) : Fld := ⟨0x10A00 + 0x20 * i, 0, 5⟩
def R.CNL_POUND_STAT_SPLIT_W (i : Nat) : Fld := ⟨0x10A04 + 0x20 * i, 24, 5⟩
def R.CNL_POUND_STAT_SPLIT_E (i : Nat) : Fld := ⟨0x10A04 + 0x20 * i, 16, 5⟩
def R.CNL_POUND_STAT_CHANGED (i : Nat) : Fld := ⟨0x10A04 + 0x20 * i, 8, 1⟩
def R.CNL_POUND_STAT_RELAYED (i : Nat) : Fld := ⟨0x10A04 + 0x20 * i, 6, 1⟩
def R.CNL_POUND_STAT_TIME_SRC (i : Nat) : Fld := ⟨0x10A04 + 0x20 * i, 5, 1⟩
def R.CNL_POUND_STAT_BOTH_ENDS (i : Nat) : Fld := ⟨0x10A04 + 0x20 * i, 4, 1⟩
def R.CNL_POUND_STAT_PAR (i : Nat) : Fld := ⟨0x10A04 + 0x20 * i, 2, 1⟩
def R.CNL_POUND_STAT_SERVICE (i : Nat) : Fld := ⟨0x10A04 + 0x20 * i, 0, 2⟩
def R.CNL_POUND_MAP_UNREACHED (i : Nat) : Fld := ⟨0x10A08 + 0x20 * i, 16, 16⟩
def R.CNL_POUND_MAP_DARK (i : Nat) : Fld := ⟨0x10A08 + 0x20 * i, 0, 16⟩
def R.CNL_POUND_ERR_STOMPED (i : Nat) : Fld := ⟨0x10A0C + 0x20 * i, 16, 16⟩
def R.CNL_POUND_ERR_STATE_MISS (i : Nat) : Fld := ⟨0x10A0C + 0x20 * i, 0, 16⟩
def R.CNL_POUND_TIME_SEAT_OFS (i : Nat) : Fld := ⟨0x10A10 + 0x20 * i, 16, 16⟩
def R.CNL_POUND_TIME_CLOSURE (i : Nat) : Fld := ⟨0x10A10 + 0x20 * i, 0, 16⟩
def R.CNL_CELL_STAT_AGE (i : Nat) : Fld := ⟨0x11000 + 0x8 * i, 16, 8⟩
def R.CNL_CELL_STAT_DEPTH (i : Nat) : Fld := ⟨0x11000 + 0x8 * i, 8, 4⟩
def R.CNL_CELL_STAT_END (i : Nat) : Fld := ⟨0x11000 + 0x8 * i, 7, 1⟩
def R.CNL_CELL_STAT_UNREACHED (i : Nat) : Fld := ⟨0x11000 + 0x8 * i, 6, 1⟩
def R.CNL_CELL_STAT_DARK (i : Nat) : Fld := ⟨0x11000 + 0x8 * i, 5, 1⟩
def R.CNL_CELL_STAT_REACHED (i : Nat) : Fld := ⟨0x11000 + 0x8 * i, 4, 1⟩
def R.CNL_CELL_STAT_NODE_STATE (i : Nat) : Fld := ⟨0x11000 + 0x8 * i, 0, 3⟩
def R.CNL_CELL_PATH_PATH (i : Nat) : Fld := ⟨0x11004 + 0x8 * i, 0, 16⟩
-- the `LOOP_` block
def R.LOOP_BANK_STAT_SWAP_PENDING : Fld := ⟨0x20000, 4, 1⟩
def R.LOOP_BANK_STAT_VERIFY_BUSY : Fld := ⟨0x20000, 3, 1⟩
def R.LOOP_BANK_STAT_STAGED_VERIFIED : Fld := ⟨0x20000, 2, 1⟩
def R.LOOP_BANK_STAT_ACTIVE : Fld := ⟨0x20000, 0, 1⟩
def R.LOOP_VERIFY_DESC : Fld := ⟨0x20004, 16, 10⟩
def R.LOOP_VERIFY_CODE : Fld := ⟨0x20004, 8, 4⟩
def R.LOOP_VERIFY_GO : Fld := ⟨0x20004, 0, 1⟩
def R.LOOP_DIGEST_STAGED : Fld := ⟨0x20008, 0, 32⟩
def R.LOOP_DIGEST_ACTIVE : Fld := ⟨0x2000C, 0, 32⟩
def R.LOOP_SCHED_ACTIVE_CLK : Fld := ⟨0x20010, 16, 16⟩
def R.LOOP_SCHED_STAGED_CLK : Fld := ⟨0x20010, 0, 16⟩
def R.LOOP_BUDGET_MIN_PERIOD : Fld := ⟨0x20014, 16, 16⟩
def R.LOOP_BUDGET_BUDGET : Fld := ⟨0x20014, 0, 16⟩
def R.LOOP_COPY_STAGED : Fld := ⟨0x20018, 16, 16⟩
def R.LOOP_COPY_ACTIVE : Fld := ⟨0x20018, 0, 16⟩
def R.LOOP_LOCKSTEP_SELFTEST_OK : Fld := ⟨0x2001C, 16, 1⟩
def R.LOOP_LOCKSTEP_WINDOW : Fld := ⟨0x2001C, 8, 8⟩
def R.LOOP_LOCKSTEP_MISMATCH : Fld := ⟨0x2001C, 0, 8⟩
def R.LOOP_REGION_KIND (i : Nat) : Fld := ⟨0x20100 + 0x4 * i, 28, 4⟩
def R.LOOP_REGION_COUNT (i : Nat) : Fld := ⟨0x20100 + 0x4 * i, 12, 13⟩
def R.LOOP_REGION_BASE (i : Nat) : Fld := ⟨0x20100 + 0x4 * i, 0, 12⟩
def R.LOOP_STAGE_CLK (i : Nat) : Fld := ⟨0x20200 + 0x4 * i, 16, 16⟩
def R.LOOP_STAGE_LOOPS (i : Nat) : Fld := ⟨0x20200 + 0x4 * i, 0, 11⟩
def R.LOOP_LSTAT_STUCK_CNT (i : Nat) : Fld := ⟨0x21000 + 0x4 * i, 24, 8⟩
def R.LOOP_LSTAT_LOSS_CNT (i : Nat) : Fld := ⟨0x21000 + 0x4 * i, 16, 8⟩
def R.LOOP_LSTAT_LIMITED_RUN (i : Nat) : Fld := ⟨0x21000 + 0x4 * i, 12, 1⟩
def R.LOOP_LSTAT_NAN_SEEN (i : Nat) : Fld := ⟨0x21000 + 0x4 * i, 11, 1⟩
def R.LOOP_LSTAT_FF_STALE (i : Nat) : Fld := ⟨0x21000 + 0x4 * i, 10, 1⟩
def R.LOOP_LSTAT_SUBSTITUTED (i : Nat) : Fld := ⟨0x21000 + 0x4 * i, 9, 1⟩
def R.LOOP_LSTAT_AT_LIMIT (i : Nat) : Fld := ⟨0x21000 + 0x4 * i, 8, 1⟩
def R.LOOP_LSTAT_HELD_SAT (i : Nat) : Fld := ⟨0x21000 + 0x4 * i, 5, 1⟩
def R.LOOP_LSTAT_HALF (i : Nat) : Fld := ⟨0x21000 + 0x4 * i, 4, 1⟩
def R.LOOP_LSTAT_STATE (i : Nat) : Fld := ⟨0x21000 + 0x4 * i, 0, 4⟩
-- the `CELL_` block
def R.CELL_CTL_XFER : Fld := ⟨0x28000, 16, 8⟩
def R.CELL_CTL_REDIST : Fld := ⟨0x28000, 8, 4⟩
def R.CELL_CTL_DISC_SAFE : Fld := ⟨0x28000, 3, 1⟩
def R.CELL_CTL_SLOPE_EN : Fld := ⟨0x28000, 2, 1⟩
def R.CELL_CTL_SPREAD : Fld := ⟨0x28000, 0, 1⟩
def R.CELL_CARRIER_PERIOD : Fld := ⟨0x28004, 0, 20⟩
def R.CELL_SLOTS_BAL_BASE : Fld := ⟨0x28008, 16, 12⟩
def R.CELL_SLOTS_SHARE_BASE : Fld := ⟨0x28008, 0, 12⟩
def R.CELL_OUT_OUT_BASE : Fld := ⟨0x2800C, 0, 12⟩
def R.CELL_TIMING_VSYN_N : Fld := ⟨0x28010, 24, 8⟩
def R.CELL_TIMING_MISS_N : Fld := ⟨0x28010, 16, 8⟩
def R.CELL_TIMING_OUT_TMO : Fld := ⟨0x28010, 8, 8⟩
def R.CELL_TMO_PRECH_TMO : Fld := ⟨0x28014, 16, 16⟩
def R.CELL_TMO_BYP_TMO : Fld := ⟨0x28014, 0, 16⟩
def R.CELL_IDLE_RAMP_RAMP : Fld := ⟨0x28018, 0, 14⟩
def R.CELL_STAT_PENDING : Fld := ⟨0x2801C, 4, 4⟩
def R.CELL_STAT_SHUTDOWN : Fld := ⟨0x2801C, 3, 1⟩
def R.CELL_STAT_BLEND : Fld := ⟨0x2801C, 2, 1⟩
def R.CELL_STAT_GRID : Fld := ⟨0x2801C, 0, 2⟩
def R.CELL_M_MAX : Fld := ⟨0x28020, 0, 32⟩
def R.CELL_BAL_MAX : Fld := ⟨0x28024, 0, 32⟩
def R.CELL_DAB_MAX : Fld := ⟨0x28028, 0, 32⟩
def R.CELL_IBAL_MIN : Fld := ⟨0x2802C, 0, 32⟩
def R.CELL_VMARGIN : Fld := ⟨0x28030, 0, 32⟩
def R.CELL_VDC_MAX : Fld := ⟨0x28034, 0, 32⟩
def R.CELL_VDC_NOM : Fld := ⟨0x28038, 0, 32⟩
def R.CELL_PRECH_MIN : Fld := ⟨0x2803C, 0, 32⟩
def R.CELL_PRECH_DAB : Fld := ⟨0x28040, 0, 32⟩
def R.CELL_PRECH_IDAB : Fld := ⟨0x28044, 0, 32⟩
def R.CELL_VPK_FIX : Fld := ⟨0x28048, 0, 32⟩
def R.CELL_VPK_LIVE : Fld := ⟨0x2804C, 0, 32⟩
def R.CELL_VPK_DEAD : Fld := ⟨0x28050, 0, 32⟩
def R.CELL_REJOIN_BAND : Fld := ⟨0x28054, 0, 32⟩
def R.CELL_FRAME_FREQ_EN : Fld := ⟨0x28060, 31, 1⟩
def R.CELL_FRAME_FREQ_FREQ_SLOT : Fld := ⟨0x28060, 0, 12⟩
def R.CELL_FRAME_FWD_EN (i : Nat) : Fld := ⟨0x28064 + 0x4 * i, 31, 1⟩
def R.CELL_FRAME_FWD_A_SLOT (i : Nat) : Fld := ⟨0x28064 + 0x4 * i, 0, 12⟩
def R.CELL_FRAME_INV_EN : Fld := ⟨0x28074, 31, 1⟩
def R.CELL_FRAME_INV_ADD_EN : Fld := ⟨0x28074, 30, 1⟩
def R.CELL_FRAME_INV_ADD_SLOT : Fld := ⟨0x28074, 16, 12⟩
def R.CELL_FRAME_INV_D_SLOT : Fld := ⟨0x28074, 0, 12⟩
def R.CELL_LEG_CTL_N_NEED (i : Nat) : Fld := ⟨0x28100 + 0x20 * i, 16, 7⟩
def R.CELL_LEG_CTL_VPK_SLOT (i : Nat) : Fld := ⟨0x28100 + 0x20 * i, 0, 12⟩
def R.CELL_LEG_SRC0_VREF_FOLLOW (i : Nat) : Fld := ⟨0x28104 + 0x20 * i, 16, 12⟩
def R.CELL_LEG_SRC0_VREF_FORM (i : Nat) : Fld := ⟨0x28104 + 0x20 * i, 0, 12⟩
def R.CELL_LEG_SRC1_VREF_BLACK (i : Nat) : Fld := ⟨0x28108 + 0x20 * i, 16, 12⟩
def R.CELL_LEG_SRC1_DREF (i : Nat) : Fld := ⟨0x28108 + 0x20 * i, 0, 12⟩
def R.CELL_LEG_IDAB (i : Nat) : Fld := ⟨0x2810C + 0x20 * i, 0, 32⟩
def R.CELL_LEG_STAT_COND (i : Nat) : Fld := ⟨0x28110 + 0x20 * i, 28, 3⟩
def R.CELL_LEG_STAT_REDIST_LEFT (i : Nat) : Fld := ⟨0x28110 + 0x20 * i, 24, 4⟩
def R.CELL_LEG_STAT_N_FAILED (i : Nat) : Fld := ⟨0x28110 + 0x20 * i, 16, 7⟩
def R.CELL_LEG_STAT_N_AVAIL (i : Nat) : Fld := ⟨0x28110 + 0x20 * i, 8, 7⟩
def R.CELL_LEG_STAT_N_ACTIVE (i : Nat) : Fld := ⟨0x28110 + 0x20 * i, 0, 7⟩
def R.CELL_LEG_VSYN (i : Nat) : Fld := ⟨0x28114 + 0x20 * i, 0, 32⟩
def R.CELL_POUND_STAT_PENDING_EN (i : Nat) : Fld := ⟨0x28200 + 0x4 * i, 7, 1⟩
def R.CELL_POUND_STAT_STATE (i : Nat) : Fld := ⟨0x28200 + 0x4 * i, 0, 4⟩
def R.CELL_CELL_STAT_PHASE (i : Nat) : Fld := ⟨0x28400 + 0x4 * i, 16, 16⟩
def R.CELL_CELL_STAT_RANK (i : Nat) : Fld := ⟨0x28400 + 0x4 * i, 8, 8⟩
def R.CELL_CELL_STAT_ROLE (i : Nat) : Fld := ⟨0x28400 + 0x4 * i, 0, 4⟩
-- the `NRG_` block
def R.NRG_CTL_AGE_MAX : Fld := ⟨0x2C000, 16, 8⟩
def R.NRG_CTL_AUTO_SLUICE : Fld := ⟨0x2C000, 3, 1⟩
def R.NRG_CTL_DERATE_EN : Fld := ⟨0x2C000, 2, 1⟩
def R.NRG_CTL_DIR : Fld := ⟨0x2C000, 0, 2⟩
def R.NRG_DEFER_TMO : Fld := ⟨0x2C004, 0, 16⟩
def R.NRG_STAT_STALE : Fld := ⟨0x2C008, 24, 8⟩
def R.NRG_STAT_DEFER_CNT : Fld := ⟨0x2C008, 16, 8⟩
def R.NRG_STAT_SLUICE : Fld := ⟨0x2C008, 10, 2⟩
def R.NRG_STAT_SLUICE_PEND : Fld := ⟨0x2C008, 9, 1⟩
def R.NRG_STAT_AUX_OVER : Fld := ⟨0x2C008, 8, 1⟩
def R.NRG_STAT_STR_GUARD : Fld := ⟨0x2C008, 4, 1⟩
def R.NRG_STAT_OVER_REL : Fld := ⟨0x2C008, 3, 1⟩
def R.NRG_STAT_OVER_TOTAL : Fld := ⟨0x2C008, 2, 1⟩
def R.NRG_STAT_OVER_POUND : Fld := ⟨0x2C008, 1, 1⟩
def R.NRG_STAT_OVER_CELL : Fld := ⟨0x2C008, 0, 1⟩
def R.NRG_CAP_CELL_LO : Fld := ⟨0x2C010, 0, 32⟩
def R.NRG_CAP_CELL_HI : Fld := ⟨0x2C014, 0, 32⟩
def R.NRG_CAP_POUND_LO : Fld := ⟨0x2C018, 0, 32⟩
def R.NRG_CAP_POUND_HI : Fld := ⟨0x2C01C, 0, 32⟩
def R.NRG_CAP_TOTAL_LO : Fld := ⟨0x2C020, 0, 32⟩
def R.NRG_CAP_TOTAL_HI : Fld := ⟨0x2C024, 0, 32⟩
def R.NRG_CAP_RELEASE_LO : Fld := ⟨0x2C028, 0, 32⟩
def R.NRG_CAP_RELEASE_HI : Fld := ⟨0x2C02C, 0, 32⟩
def R.NRG_P_RATED : Fld := ⟨0x2C030, 0, 32⟩
def R.NRG_C_LV : Fld := ⟨0x2C040, 0, 32⟩
def R.NRG_C_AUX : Fld := ⟨0x2C044, 0, 32⟩
def R.NRG_V_LV_MAX : Fld := ⟨0x2C048, 0, 32⟩
def R.NRG_V_AUX_MAX : Fld := ⟨0x2C04C, 0, 32⟩
def R.NRG_F_MV : Fld := ⟨0x2C050, 0, 32⟩
def R.NRG_I_ARM_LIM : Fld := ⟨0x2C054, 0, 32⟩
def R.NRG_I_LV_LIM : Fld := ⟨0x2C058, 0, 32⟩
def R.NRG_I_AUX_LIM : Fld := ⟨0x2C05C, 0, 32⟩
def R.NRG_T_CLR_MV : Fld := ⟨0x2C060, 0, 32⟩
def R.NRG_T_CLR_LV : Fld := ⟨0x2C064, 0, 32⟩
def R.NRG_T_CLR_AUX : Fld := ⟨0x2C068, 0, 32⟩
def R.NRG_T_MIN : Fld := ⟨0x2C06C, 0, 32⟩
def R.NRG_ETA : Fld := ⟨0x2C070, 0, 32⟩
def R.NRG_AUX_TAU : Fld := ⟨0x2C074, 0, 32⟩
def R.NRG_SLUICE_AUTO_V : Fld := ⟨0x2C078, 0, 32⟩
def R.NRG_C_POUND (i : Nat) : Fld := ⟨0x2C080 + 0x4 * i, 0, 32⟩
def R.NRG_SRC_LV_SLOT : Fld := ⟨0x2C0C0, 16, 12⟩
def R.NRG_SRC_AUX_SLOT : Fld := ⟨0x2C0C0, 0, 12⟩
def R.NRG_PCC_EN : Fld := ⟨0x2C0C4, 31, 1⟩
def R.NRG_PCC_EXPORT : Fld := ⟨0x2C0C4, 8, 6⟩
def R.NRG_PCC_IMPORT : Fld := ⟨0x2C0C4, 0, 6⟩
def R.NRG_OUT_OUT_BASE : Fld := ⟨0x2C0C8, 0, 12⟩
def R.NRG_SLUICE_TMO : Fld := ⟨0x2C0CC, 16, 16⟩
def R.NRG_SLUICE_PER_POUND : Fld := ⟨0x2C0CC, 0, 4⟩
def R.NRG_SPCLASS_EN (i : Nat) : Fld := ⟨0x2C100 + 0x4 * i, 31, 1⟩
def R.NRG_SPCLASS_CLASS (i : Nat) : Fld := ⟨0x2C100 + 0x4 * i, 24, 4⟩
def R.NRG_SPCLASS_SCOPE (i : Nat) : Fld := ⟨0x2C100 + 0x4 * i, 16, 4⟩
def R.NRG_SPCLASS_SLOT (i : Nat) : Fld := ⟨0x2C100 + 0x4 * i, 0, 12⟩
def R.NRG_STR_CTL_EN (i : Nat) : Fld := ⟨0x2C200 + 0x20 * i, 31, 1⟩
def R.NRG_STR_CTL_SRC (i : Nat) : Fld := ⟨0x2C200 + 0x20 * i, 0, 6⟩
def R.NRG_STR_CAP (i : Nat) : Fld := ⟨0x2C204 + 0x20 * i, 0, 32⟩
def R.NRG_STR_RES (i : Nat) : Fld := ⟨0x2C208 + 0x20 * i, 0, 32⟩
def R.NRG_STR_TOP (i : Nat) : Fld := ⟨0x2C20C + 0x20 * i, 0, 32⟩
def R.NRG_STR_IMAX (i : Nat) : Fld := ⟨0x2C210 + 0x20 * i, 0, 32⟩
def R.NRG_STR_SOE_LO (i : Nat) : Fld := ⟨0x2C214 + 0x20 * i, 0, 32⟩
def R.NRG_STR_SOE_HI (i : Nat) : Fld := ⟨0x2C218 + 0x20 * i, 0, 32⟩
def R.NRG_STR_SOE_SET (i : Nat) : Fld := ⟨0x2C21C + 0x20 * i, 0, 32⟩
def R.NRG_STR_STAT_METER_GAP (i : Nat) : Fld := ⟨0x2C400 + 0x4 * i, 3, 1⟩
def R.NRG_STR_STAT_TOP (i : Nat) : Fld := ⟨0x2C400 + 0x4 * i, 2, 1⟩
def R.NRG_STR_STAT_GUARD (i : Nat) : Fld := ⟨0x2C400 + 0x4 * i, 1, 1⟩
def R.NRG_STR_STAT_SOE_VALID (i : Nat) : Fld := ⟨0x2C400 + 0x4 * i, 0, 1⟩
-- the `MTR_` block
def R.MTR_CTL_CAL_EN : Fld := ⟨0x30000, 8, 1⟩
def R.MTR_CTL_CAL_GAP : Fld := ⟨0x30000, 0, 8⟩
def R.MTR_CAL_STAT_ROUNDS : Fld := ⟨0x30008, 24, 8⟩
def R.MTR_CAL_STAT_SLICE : Fld := ⟨0x30008, 16, 6⟩
def R.MTR_CAL_STAT_FAILS : Fld := ⟨0x30008, 8, 8⟩
def R.MTR_CAL_STAT_PAUSED : Fld := ⟨0x30008, 1, 1⟩
def R.MTR_CAL_STAT_RUNNING : Fld := ⟨0x30008, 0, 1⟩
def R.MTR_DIAG_GO : Fld := ⟨0x30010, 31, 1⟩
def R.MTR_DIAG_CH : Fld := ⟨0x30010, 22, 6⟩
def R.MTR_DIAG_LEVEL : Fld := ⟨0x30010, 0, 12⟩
def R.MTR_DIAG_RES_VERDICT : Fld := ⟨0x30014, 30, 2⟩
def R.MTR_DIAG_RES_BUSY : Fld := ⟨0x30014, 29, 1⟩
def R.MTR_DIAG_RES_WAITING : Fld := ⟨0x30014, 28, 1⟩
def R.MTR_DIAG_RES_K : Fld := ⟨0x30014, 0, 16⟩
def R.MTR_TRK_CLEAR : Fld := ⟨0x30018, 0, 32⟩
def R.MTR_CH_CFG_EN (i : Nat) : Fld := ⟨0x30100 + 0x4 * i, 31, 1⟩
def R.MTR_CH_CFG_INTERLEAVE (i : Nat) : Fld := ⟨0x30100 + 0x4 * i, 30, 1⟩
def R.MTR_CH_CFG_INVERT (i : Nat) : Fld := ⟨0x30100 + 0x4 * i, 29, 1⟩
def R.MTR_CH_CFG_CAP_DLY (i : Nat) : Fld := ⟨0x30100 + 0x4 * i, 8, 3⟩
def R.MTR_CH_SCALE (i : Nat) : Fld := ⟨0x30200 + 0x8 * i, 0, 32⟩
def R.MTR_CH_OFS (i : Nat) : Fld := ⟨0x30204 + 0x8 * i, 0, 32⟩
def R.MTR_CH_STAT_GAIN_CORR (i : Nat) : Fld := ⟨0x30400 + 0x4 * i, 16, 16⟩
def R.MTR_CH_STAT_OFS_CORR (i : Nat) : Fld := ⟨0x30400 + 0x4 * i, 8, 8⟩
def R.MTR_CH_STAT_CAL_FAIL (i : Nat) : Fld := ⟨0x30400 + 0x4 * i, 5, 1⟩
def R.MTR_CH_STAT_INJECTED (i : Nat) : Fld := ⟨0x30400 + 0x4 * i, 4, 1⟩
def R.MTR_CH_STAT_STUCK (i : Nat) : Fld := ⟨0x30400 + 0x4 * i, 3, 1⟩
def R.MTR_CH_STAT_OVR (i : Nat) : Fld := ⟨0x30400 + 0x4 * i, 2, 1⟩
def R.MTR_CH_STAT_SUBST (i : Nat) : Fld := ⟨0x30400 + 0x4 * i, 1, 1⟩
def R.MTR_CH_STAT_VALID (i : Nat) : Fld := ⟨0x30400 + 0x4 * i, 0, 1⟩
def R.MTR_ROUTE_KIND (i : Nat) : Fld := ⟨0x30500 + 0x4 * i, 28, 4⟩
def R.MTR_ROUTE_SRC (i : Nat) : Fld := ⟨0x30500 + 0x4 * i, 12, 6⟩
def R.MTR_ROUTE_SLOT (i : Nat) : Fld := ⟨0x30500 + 0x4 * i, 0, 12⟩
def R.MTR_ACC_CFG_KIND (i : Nat) : Fld := ⟨0x30800 + 0x4 * i, 29, 3⟩
def R.MTR_ACC_CFG_FLOW (i : Nat) : Fld := ⟨0x30800 + 0x4 * i, 27, 2⟩
def R.MTR_ACC_CFG_PH3 (i : Nat) : Fld := ⟨0x30800 + 0x4 * i, 26, 1⟩
def R.MTR_ACC_CFG_CHB (i : Nat) : Fld := ⟨0x30800 + 0x4 * i, 20, 6⟩
def R.MTR_ACC_CFG_CHA (i : Nat) : Fld := ⟨0x30800 + 0x4 * i, 14, 6⟩
def R.MTR_ACC_CFG_WIN (i : Nat) : Fld := ⟨0x30800 + 0x4 * i, 0, 14⟩
def R.MTR_TRK_CFG_EN (i : Nat) : Fld := ⟨0x30900 + 0x4 * i, 31, 1⟩
def R.MTR_TRK_CFG_PATH (i : Nat) : Fld := ⟨0x30900 + 0x4 * i, 30, 1⟩
def R.MTR_TRK_CFG_CH (i : Nat) : Fld := ⟨0x30900 + 0x4 * i, 24, 6⟩
def R.MTR_TRK_CFG_WIN (i : Nat) : Fld := ⟨0x30900 + 0x4 * i, 0, 16⟩
def R.MTR_TRK_MAX (i : Nat) : Fld := ⟨0x30A00 + 0x8 * i, 0, 32⟩
def R.MTR_TRK_MIN (i : Nat) : Fld := ⟨0x30A04 + 0x8 * i, 0, 32⟩
def R.MTR_ACC_ITEM (i : Nat) : Fld := ⟨0x31000 + 0x4 * i, 0, 32⟩
-- the `PWM_` block
def R.PWM_LOAD_LOAD : Fld := ⟨0x34000, 0, 8⟩
def R.PWM_TRIPIN_SEEN : Fld := ⟨0x34004, 16, 8⟩
def R.PWM_TRIPIN_LEVEL : Fld := ⟨0x34004, 8, 8⟩
def R.PWM_TRIPIN_EN : Fld := ⟨0x34004, 0, 8⟩
def R.PWM_GRP_CTL_EN (i : Nat) : Fld := ⟨0x34100 + 0x10 * i, 31, 1⟩
def R.PWM_GRP_CTL_SYNC (i : Nat) : Fld := ⟨0x34100 + 0x10 * i, 30, 1⟩
def R.PWM_GRP_CTL_PERIOD (i : Nat) : Fld := ⟨0x34100 + 0x10 * i, 0, 20⟩
def R.PWM_GRP_STAT_RUNNING (i : Nat) : Fld := ⟨0x34104 + 0x10 * i, 23, 1⟩
def R.PWM_GRP_STAT_TRUNC (i : Nat) : Fld := ⟨0x34104 + 0x10 * i, 22, 1⟩
def R.PWM_GRP_STAT_LATE (i : Nat) : Fld := ⟨0x34104 + 0x10 * i, 21, 1⟩
def R.PWM_GRP_STAT_ARMED (i : Nat) : Fld := ⟨0x34104 + 0x10 * i, 20, 1⟩
def R.PWM_GRP_STAT_PERIOD (i : Nat) : Fld := ⟨0x34104 + 0x10 * i, 0, 20⟩
def R.PWM_CH_CFG_EN (i : Nat) : Fld := ⟨0x34400 + 0x20 * i, 31, 1⟩
def R.PWM_CH_CFG_GROUP (i : Nat) : Fld := ⟨0x34400 + 0x20 * i, 28, 3⟩
def R.PWM_CH_CFG_ALIGN (i : Nat) : Fld := ⟨0x34400 + 0x20 * i, 27, 1⟩
def R.PWM_CH_CFG_LO_EN (i : Nat) : Fld := ⟨0x34400 + 0x20 * i, 26, 1⟩
def R.PWM_CH_CFG_SRC (i : Nat) : Fld := ⟨0x34400 + 0x20 * i, 24, 2⟩
def R.PWM_CH_CFG_MASK_EN (i : Nat) : Fld := ⟨0x34400 + 0x20 * i, 23, 1⟩
def R.PWM_CH_CFG_SLOT (i : Nat) : Fld := ⟨0x34400 + 0x20 * i, 0, 12⟩
def R.PWM_CH_DUTY_DUTY (i : Nat) : Fld := ⟨0x34404 + 0x20 * i, 0, 24⟩
def R.PWM_CH_PHASE_PHASE (i : Nat) : Fld := ⟨0x34408 + 0x20 * i, 0, 20⟩
def R.PWM_CH_DT_DT (i : Nat) : Fld := ⟨0x3440C + 0x20 * i, 0, 16⟩
def R.PWM_CH_TRIP_TRIP_IN (i : Nat) : Fld := ⟨0x34410 + 0x20 * i, 16, 8⟩
def R.PWM_CH_TRIP_LINES (i : Nat) : Fld := ⟨0x34410 + 0x20 * i, 0, 16⟩
def R.PWM_CH_NOW_DUTY (i : Nat) : Fld := ⟨0x34414 + 0x20 * i, 0, 24⟩
def R.PWM_CH_STAT_CUT_CNT (i : Nat) : Fld := ⟨0x34418 + 0x20 * i, 16, 16⟩
def R.PWM_CH_STAT_MASKED (i : Nat) : Fld := ⟨0x34418 + 0x20 * i, 6, 1⟩
def R.PWM_CH_STAT_SLOT_LOST (i : Nat) : Fld := ⟨0x34418 + 0x20 * i, 5, 1⟩
def R.PWM_CH_STAT_LATE (i : Nat) : Fld := ⟨0x34418 + 0x20 * i, 4, 1⟩
def R.PWM_CH_STAT_CLAMPED (i : Nat) : Fld := ⟨0x34418 + 0x20 * i, 3, 1⟩
def R.PWM_CH_STAT_TRIPPED (i : Nat) : Fld := ⟨0x34418 + 0x20 * i, 2, 1⟩
def R.PWM_CH_STAT_CUT (i : Nat) : Fld := ⟨0x34418 + 0x20 * i, 1, 1⟩
def R.PWM_CH_STAT_ACTIVE (i : Nat) : Fld := ⟨0x34418 + 0x20 * i, 0, 1⟩
-- the `CMP_` block
def R.CMP_CTL_PERSIST_N : Fld := ⟨0x36000, 0, 8⟩
def R.CMP_LINE_STAT_ASSERTED : Fld := ⟨0x36004, 16, 16⟩
def R.CMP_LINE_STAT_LATCHED : Fld := ⟨0x36004, 0, 16⟩
def R.CMP_WATCH_LO : Fld := ⟨0x36008, 0, 32⟩
def R.CMP_WATCH_HI : Fld := ⟨0x3600C, 0, 32⟩
def R.CMP_WATCH_STAT_LO : Fld := ⟨0x36010, 0, 32⟩
def R.CMP_WATCH_STAT_HI : Fld := ⟨0x36014, 0, 32⟩
def R.CMP_REARM_LO : Fld := ⟨0x36018, 0, 32⟩
def R.CMP_REARM_HI : Fld := ⟨0x3601C, 0, 32⟩
def R.CMP_CH_CFG_EN (i : Nat) : Fld := ⟨0x36100 + 0x10 * i, 31, 1⟩
def R.CMP_CH_CFG_MODE (i : Nat) : Fld := ⟨0x36100 + 0x10 * i, 29, 2⟩
def R.CMP_CH_CFG_SENSE (i : Nat) : Fld := ⟨0x36100 + 0x10 * i, 27, 2⟩
def R.CMP_CH_CFG_LATCH (i : Nat) : Fld := ⟨0x36100 + 0x10 * i, 26, 1⟩
def R.CMP_CH_CFG_PU_LEVEL (i : Nat) : Fld := ⟨0x36100 + 0x10 * i, 25, 1⟩
def R.CMP_CH_CFG_LINE_EN (i : Nat) : Fld := ⟨0x36100 + 0x10 * i, 24, 1⟩
def R.CMP_CH_CFG_LINE (i : Nat) : Fld := ⟨0x36100 + 0x10 * i, 20, 4⟩
def R.CMP_CH_CFG_HYST (i : Nat) : Fld := ⟨0x36100 + 0x10 * i, 16, 4⟩
def R.CMP_CH_THR_HI (i : Nat) : Fld := ⟨0x36104 + 0x10 * i, 16, 10⟩
def R.CMP_CH_THR_LO (i : Nat) : Fld := ⟨0x36104 + 0x10 * i, 0, 10⟩
def R.CMP_CH_BLANK_REF_CH (i : Nat) : Fld := ⟨0x36108 + 0x10 * i, 24, 6⟩
def R.CMP_CH_BLANK_EVENTS (i : Nat) : Fld := ⟨0x36108 + 0x10 * i, 16, 5⟩
def R.CMP_CH_BLANK_LEN (i : Nat) : Fld := ⟨0x36108 + 0x10 * i, 0, 12⟩
def R.CMP_CH_STAT_PERSIST_CNT (i : Nat) : Fld := ⟨0x3610C + 0x10 * i, 24, 8⟩
def R.CMP_CH_STAT_TRIP_CNT (i : Nat) : Fld := ⟨0x3610C + 0x10 * i, 16, 8⟩
def R.CMP_CH_STAT_ESCALATED (i : Nat) : Fld := ⟨0x3610C + 0x10 * i, 7, 1⟩
def R.CMP_CH_STAT_UNRES_LO (i : Nat) : Fld := ⟨0x3610C + 0x10 * i, 6, 1⟩
def R.CMP_CH_STAT_UNRES_HI (i : Nat) : Fld := ⟨0x3610C + 0x10 * i, 5, 1⟩
def R.CMP_CH_STAT_RAW_LO (i : Nat) : Fld := ⟨0x3610C + 0x10 * i, 4, 1⟩
def R.CMP_CH_STAT_RAW_HI (i : Nat) : Fld := ⟨0x3610C + 0x10 * i, 3, 1⟩
def R.CMP_CH_STAT_LATCH_LO (i : Nat) : Fld := ⟨0x3610C + 0x10 * i, 2, 1⟩
def R.CMP_CH_STAT_LATCH_HI (i : Nat) : Fld := ⟨0x3610C + 0x10 * i, 1, 1⟩
def R.CMP_CH_STAT_OUT (i : Nat) : Fld := ⟨0x3610C + 0x10 * i, 0, 1⟩
-- the `AUX_` block
def R.AUX_CTL_EN (i : Nat) : Fld := ⟨0x38000 + 0x80 * i, 31, 1⟩
def R.AUX_CTL_FLT_EN (i : Nat) : Fld := ⟨0x38000 + 0x80 * i, 30, 1⟩
def R.AUX_CTL_POLES (i : Nat) : Fld := ⟨0x38000 + 0x80 * i, 24, 4⟩
def R.AUX_CTL_RECATCH_N (i : Nat) : Fld := ⟨0x38000 + 0x80 * i, 16, 4⟩
def R.AUX_CTL_LOSS_N (i : Nat) : Fld := ⟨0x38000 + 0x80 * i, 8, 8⟩
def R.AUX_CTL_ALIGN_T (i : Nat) : Fld := ⟨0x38000 + 0x80 * i, 0, 8⟩
def R.AUX_SRC_SHUNT (i : Nat) : Fld := ⟨0x38004 + 0x80 * i, 16, 6⟩
def R.AUX_SRC_VBUS_SLOT (i : Nat) : Fld := ⟨0x38004 + 0x80 * i, 0, 12⟩
def R.AUX_TIME_SETTLE (i : Nat) : Fld := ⟨0x38008 + 0x80 * i, 24, 8⟩
def R.AUX_TIME_PROBE_T (i : Nat) : Fld := ⟨0x38008 + 0x80 * i, 16, 8⟩
def R.AUX_TIME_PROBE_INT (i : Nat) : Fld := ⟨0x38008 + 0x80 * i, 8, 8⟩
def R.AUX_TIME_COAST_T (i : Nat) : Fld := ⟨0x38008 + 0x80 * i, 0, 8⟩
def R.AUX_STAT_FLT_IN (i : Nat) : Fld := ⟨0x3800C + 0x80 * i, 15, 1⟩
def R.AUX_STAT_DEC_LIM (i : Nat) : Fld := ⟨0x3800C + 0x80 * i, 14, 1⟩
def R.AUX_STAT_RECATCH_CNT (i : Nat) : Fld := ⟨0x3800C + 0x80 * i, 8, 4⟩
def R.AUX_STAT_PENDING (i : Nat) : Fld := ⟨0x3800C + 0x80 * i, 4, 1⟩
def R.AUX_STAT_STATE (i : Nat) : Fld := ⟨0x3800C + 0x80 * i, 0, 4⟩
def R.AUX_CNT_WIN_OPEN (i : Nat) : Fld := ⟨0x38010 + 0x80 * i, 16, 16⟩
def R.AUX_CNT_COMP_DROP (i : Nat) : Fld := ⟨0x38010 + 0x80 * i, 0, 16⟩
def R.AUX_RS (i : Nat) : Fld := ⟨0x38020 + 0x80 * i, 0, 32⟩
def R.AUX_LS (i : Nat) : Fld := ⟨0x38024 + 0x80 * i, 0, 32⟩
def R.AUX_PSI_M (i : Nat) : Fld := ⟨0x38028 + 0x80 * i, 0, 32⟩
def R.AUX_I_MAX (i : Nat) : Fld := ⟨0x3802C + 0x80 * i, 0, 32⟩
def R.AUX_SPEED_MAX (i : Nat) : Fld := ⟨0x38030 + 0x80 * i, 0, 32⟩
def R.AUX_FLUX_REF (i : Nat) : Fld := ⟨0x38034 + 0x80 * i, 0, 32⟩
def R.AUX_FLUX_BAND (i : Nat) : Fld := ⟨0x38038 + 0x80 * i, 0, 32⟩
def R.AUX_TQ_BAND (i : Nat) : Fld := ⟨0x3803C + 0x80 * i, 0, 32⟩
def R.AUX_KP_W (i : Nat) : Fld := ⟨0x38040 + 0x80 * i, 0, 32⟩
def R.AUX_KI_W (i : Nat) : Fld := ⟨0x38044 + 0x80 * i, 0, 32⟩
def R.AUX_VBUS_HI (i : Nat) : Fld := ⟨0x38048 + 0x80 * i, 0, 32⟩
def R.AUX_VBUS_HYST (i : Nat) : Fld := ⟨0x3804C + 0x80 * i, 0, 32⟩
def R.AUX_STOP_SPEED (i : Nat) : Fld := ⟨0x38050 + 0x80 * i, 0, 32⟩
def R.AUX_CATCH_I_MIN (i : Nat) : Fld := ⟨0x38054 + 0x80 * i, 0, 32⟩
def R.AUX_I_INCON (i : Nat) : Fld := ⟨0x38058 + 0x80 * i, 0, 32⟩
def R.AUX_ALIGN_I (i : Nat) : Fld := ⟨0x3805C + 0x80 * i, 0, 32⟩
def R.AUX_OUT_OUT_BASE : Fld := ⟨0x38400, 0, 12⟩
-- the `TSN_` block
def R.TSN_TIME_CTL_FREERUN : Fld := ⟨0x3A000, 31, 1⟩
def R.TSN_TIME_CTL_AUTO : Fld := ⟨0x3A000, 30, 1⟩
def R.TSN_TIME_CTL_STEP_REQ : Fld := ⟨0x3A000, 29, 1⟩
def R.TSN_TIME_CTL_PREF : Fld := ⟨0x3A000, 24, 1⟩
def R.TSN_TIME_CTL_REVERT_S : Fld := ⟨0x3A000, 16, 8⟩
def R.TSN_TIME_CTL_SLEW : Fld := ⟨0x3A000, 0, 14⟩
def R.TSN_TIME_STAT_SWITCHES : Fld := ⟨0x3A004, 24, 8⟩
def R.TSN_TIME_STAT_STEP_REFUSED : Fld := ⟨0x3A004, 16, 8⟩
def R.TSN_TIME_STAT_STEPPED : Fld := ⟨0x3A004, 5, 1⟩
def R.TSN_TIME_STAT_SLEWING : Fld := ⟨0x3A004, 4, 1⟩
def R.TSN_TIME_STAT_SEL : Fld := ⟨0x3A004, 3, 1⟩
def R.TSN_TIME_STAT_LOCKED : Fld := ⟨0x3A004, 2, 1⟩
def R.TSN_TIME_STAT_FREE : Fld := ⟨0x3A004, 1, 1⟩
def R.TSN_TIME_STAT_VALID : Fld := ⟨0x3A004, 0, 1⟩
def R.TSN_TIME_DIFF : Fld := ⟨0x3A008, 0, 32⟩
def R.TSN_NOW_LO : Fld := ⟨0x3A010, 0, 32⟩
def R.TSN_NOW_HI : Fld := ⟨0x3A014, 0, 32⟩
def R.TSN_LOCAL_LO : Fld := ⟨0x3A020, 0, 32⟩
def R.TSN_LOCAL_HI : Fld := ⟨0x3A024, 0, 32⟩
def R.TSN_PLANT_RATE_LO : Fld := ⟨0x3A028, 0, 32⟩
def R.TSN_PLANT_RATE_HI : Fld := ⟨0x3A02C, 0, 32⟩
def R.TSN_NOW_FRAC_FRAC : Fld := ⟨0x3A018, 0, 16⟩
def R.TSN_DOM_CTL_EN (i : Nat) : Fld := ⟨0x3A100 + 0x40 * i, 31, 1⟩
def R.TSN_DOM_CTL_PORTS (i : Nat) : Fld := ⟨0x3A100 + 0x40 * i, 29, 2⟩
def R.TSN_DOM_CTL_PROFILE (i : Nat) : Fld := ⟨0x3A100 + 0x40 * i, 26, 3⟩
def R.TSN_DOM_CTL_TAGGED (i : Nat) : Fld := ⟨0x3A100 + 0x40 * i, 25, 1⟩
def R.TSN_DOM_CTL_PTP_COPY (i : Nat) : Fld := ⟨0x3A100 + 0x40 * i, 24, 1⟩
def R.TSN_DOM_CTL_PCP (i : Nat) : Fld := ⟨0x3A100 + 0x40 * i, 21, 3⟩
def R.TSN_DOM_CTL_VID (i : Nat) : Fld := ⟨0x3A100 + 0x40 * i, 8, 12⟩
def R.TSN_DOM_CTL_DOMAIN (i : Nat) : Fld := ⟨0x3A100 + 0x40 * i, 0, 8⟩
def R.TSN_DOM_STAT_LOSS_CNT (i : Nat) : Fld := ⟨0x3A104 + 0x40 * i, 24, 8⟩
def R.TSN_DOM_STAT_STEPS (i : Nat) : Fld := ⟨0x3A104 + 0x40 * i, 16, 8⟩
def R.TSN_DOM_STAT_SLAVE_PORT (i : Nat) : Fld := ⟨0x3A104 + 0x40 * i, 3, 1⟩
def R.TSN_DOM_STAT_STATE (i : Nat) : Fld := ⟨0x3A104 + 0x40 * i, 0, 3⟩
def R.TSN_DOM_OFS (i : Nat) : Fld := ⟨0x3A108 + 0x40 * i, 0, 32⟩
def R.TSN_DOM_MPD (i : Nat) : Fld := ⟨0x3A10C + 0x40 * i, 0, 32⟩
def R.TSN_DOM_RATE_LO (i : Nat) : Fld := ⟨0x3A110 + 0x40 * i, 0, 32⟩
def R.TSN_DOM_RATE_HI (i : Nat) : Fld := ⟨0x3A114 + 0x40 * i, 0, 32⟩
def R.TSN_DOM_GM_LO (i : Nat) : Fld := ⟨0x3A118 + 0x40 * i, 0, 32⟩
def R.TSN_DOM_GM_HI (i : Nat) : Fld := ⟨0x3A11C + 0x40 * i, 0, 32⟩
def R.TSN_DOM_UTC_VALID (i : Nat) : Fld := ⟨0x3A120 + 0x40 * i, 16, 1⟩
def R.TSN_DOM_UTC_OFFSET (i : Nat) : Fld := ⟨0x3A120 + 0x40 * i, 0, 16⟩
def R.TSN_DOM_SERVO_LOCK_THR (i : Nat) : Fld := ⟨0x3A124 + 0x40 * i, 16, 16⟩
def R.TSN_DOM_SERVO_STEP_THR (i : Nat) : Fld := ⟨0x3A124 + 0x40 * i, 0, 16⟩
def R.TSN_PORT_CTL_EN (i : Nat) : Fld := ⟨0x3A400 + 0x80 * i, 31, 1⟩
def R.TSN_PORT_CTL_AN_EN (i : Nat) : Fld := ⟨0x3A400 + 0x80 * i, 30, 1⟩
def R.TSN_PORT_STAT_LOS (i : Nat) : Fld := ⟨0x3A404 + 0x80 * i, 3, 1⟩
def R.TSN_PORT_STAT_LOST (i : Nat) : Fld := ⟨0x3A404 + 0x80 * i, 2, 1⟩
def R.TSN_PORT_STAT_SPEED (i : Nat) : Fld := ⟨0x3A404 + 0x80 * i, 1, 1⟩
def R.TSN_PORT_STAT_UP (i : Nat) : Fld := ⟨0x3A404 + 0x80 * i, 0, 1⟩
def R.TSN_PORT_MAC_HI (i : Nat) : Fld := ⟨0x3A408 + 0x80 * i, 0, 16⟩
def R.TSN_PORT_MAC_LO (i : Nat) : Fld := ⟨0x3A40C + 0x80 * i, 0, 32⟩
def R.TSN_PORT_ING_LAT (i : Nat) : Fld := ⟨0x3A410 + 0x80 * i, 0, 32⟩
def R.TSN_PORT_EGR_LAT (i : Nat) : Fld := ⟨0x3A414 + 0x80 * i, 0, 32⟩
def R.TSN_PORT_ASYM (i : Nat) : Fld := ⟨0x3A418 + 0x80 * i, 0, 32⟩
def R.TSN_PORT0_VLAN_EN (i : Nat) : Fld := ⟨0x3A420 + 0x4 * i, 31, 1⟩
def R.TSN_PORT0_VLAN_VID (i : Nat) : Fld := ⟨0x3A420 + 0x4 * i, 0, 12⟩
def R.TSN_PORT0_MC_HI_EN (i : Nat) : Fld := ⟨0x3A440 + 0x8 * i, 31, 1⟩
def R.TSN_PORT0_MC_HI (i : Nat) : Fld := ⟨0x3A440 + 0x8 * i, 0, 16⟩
def R.TSN_PORT0_MC_LO (i : Nat) : Fld := ⟨0x3A444 + 0x8 * i, 0, 32⟩
def R.TSN_PORT1_VLAN_EN (i : Nat) : Fld := ⟨0x3A4A0 + 0x4 * i, 31, 1⟩
def R.TSN_PORT1_VLAN_VID (i : Nat) : Fld := ⟨0x3A4A0 + 0x4 * i, 0, 12⟩
def R.TSN_PORT1_MC_HI_EN (i : Nat) : Fld := ⟨0x3A4C0 + 0x8 * i, 31, 1⟩
def R.TSN_PORT1_MC_HI (i : Nat) : Fld := ⟨0x3A4C0 + 0x8 * i, 0, 16⟩
def R.TSN_PORT1_MC_LO (i : Nat) : Fld := ⟨0x3A4C4 + 0x8 * i, 0, 32⟩
def R.TSN_PORT_DROP_NO_BUF (i : Nat) : Fld := ⟨0x3A460 + 0x80 * i, 16, 16⟩
def R.TSN_PORT_DROP_FILTERED (i : Nat) : Fld := ⟨0x3A460 + 0x80 * i, 0, 16⟩
def R.TSN_PORT_ERR_FCS (i : Nat) : Fld := ⟨0x3A464 + 0x80 * i, 16, 16⟩
def R.TSN_PORT_ERR_LENGTH (i : Nat) : Fld := ⟨0x3A464 + 0x80 * i, 0, 16⟩
def R.TSN_Q_CTL_GUARD (i : Nat) : Fld := ⟨0x3A600 + 0x4 * i, 31, 1⟩
def R.TSN_Q_CTL_LATE_SEND (i : Nat) : Fld := ⟨0x3A600 + 0x4 * i, 30, 1⟩
def R.TSN_Q_CTL_LATE_WIN (i : Nat) : Fld := ⟨0x3A600 + 0x4 * i, 0, 16⟩
def R.TSN_Q_STAT_LATE_SENT (i : Nat) : Fld := ⟨0x3A620 + 0x4 * i, 16, 16⟩
def R.TSN_Q_STAT_LATE_DROPPED (i : Nat) : Fld := ⟨0x3A620 + 0x4 * i, 0, 16⟩
def R.TSN_PRP_CTL_EN : Fld := ⟨0x3A700, 31, 1⟩
def R.TSN_PRP_CTL_FORGET : Fld := ⟨0x3A700, 0, 16⟩
def R.TSN_PRP_STAT_DUP : Fld := ⟨0x3A704, 16, 16⟩
def R.TSN_PRP_STAT_WRONG_LAN : Fld := ⟨0x3A704, 8, 8⟩
def R.TSN_PRP_STAT_TABLE_FULL : Fld := ⟨0x3A704, 0, 8⟩
-- the `RED_` block
def R.RED_CTL_PAIRED : Fld := ⟨0x3C000, 31, 1⟩
def R.RED_CTL_CLAIM_EN : Fld := ⟨0x3C000, 30, 1⟩
def R.RED_CTL_COLD_TAKE : Fld := ⟨0x3C000, 29, 1⟩
def R.RED_CTL_HB_MISS : Fld := ⟨0x3C000, 20, 4⟩
def R.RED_CTL_MIS_N : Fld := ⟨0x3C000, 16, 4⟩
def R.RED_CTL_START_T : Fld := ⟨0x3C000, 8, 8⟩
def R.RED_STAT_SWITCHES : Fld := ⟨0x3C004, 24, 8⟩
def R.RED_STAT_SWAP_PENDING : Fld := ⟨0x3C004, 12, 1⟩
def R.RED_STAT_TAKE_READY : Fld := ⟨0x3C004, 11, 1⟩
def R.RED_STAT_HEALTH : Fld := ⟨0x3C004, 9, 2⟩
def R.RED_STAT_LINK_UP : Fld := ⟨0x3C004, 8, 1⟩
def R.RED_STAT_LANES : Fld := ⟨0x3C004, 4, 4⟩
def R.RED_STAT_CLAIM : Fld := ⟨0x3C004, 2, 2⟩
def R.RED_STAT_ROLE : Fld := ⟨0x3C004, 0, 2⟩
def R.RED_PARTNER_PART : Fld := ⟨0x3C008, 16, 16⟩
def R.RED_PARTNER_REV : Fld := ⟨0x3C008, 8, 8⟩
def R.RED_PARTNER_SEAT : Fld := ⟨0x3C008, 7, 1⟩
def R.RED_PARTNER_CLAIM : Fld := ⟨0x3C008, 5, 2⟩
def R.RED_PARTNER_TAKE_READY : Fld := ⟨0x3C008, 4, 1⟩
def R.RED_PARTNER_HEALTH : Fld := ⟨0x3C008, 2, 2⟩
def R.RED_PARTNER_LINE : Fld := ⟨0x3C008, 1, 1⟩
def R.RED_PARTNER_VALID : Fld := ⟨0x3C008, 0, 1⟩
def R.RED_CMP_TOL : Fld := ⟨0x3C00C, 0, 16⟩
def R.RED_HEALTH_MISMATCH_CYC : Fld := ⟨0x3C010, 16, 16⟩
def R.RED_HEALTH_FIRST_LOOP : Fld := ⟨0x3C010, 0, 16⟩
def R.RED_COPY_INCOMPLETE : Fld := ⟨0x3C014, 16, 16⟩
def R.RED_COPY_SIZE : Fld := ⟨0x3C014, 0, 16⟩
def R.RED_GATE_ETXQ : Fld := ⟨0x3C018, 0, 8⟩
def R.RED_CNT_KEEPER : Fld := ⟨0x3C01C, 24, 8⟩
def R.RED_CNT_CONTEST : Fld := ⟨0x3C01C, 16, 8⟩
def R.RED_CNT_HB_LOST : Fld := ⟨0x3C01C, 8, 8⟩
def R.RED_CNT_MIRROR_LATE : Fld := ⟨0x3C01C, 0, 8⟩
-- the `FLT_` block
def R.FLT_CTL_REARM : Fld := ⟨0x3E000, 31, 1⟩
def R.FLT_CTL_COAL_W : Fld := ⟨0x3E000, 16, 8⟩
def R.FLT_CTL_COAL_EN : Fld := ⟨0x3E000, 15, 1⟩
def R.FLT_CTL_SETTLE : Fld := ⟨0x3E000, 0, 14⟩
def R.FLT_STAT_SAFETY : Fld := ⟨0x3E004, 30, 2⟩
def R.FLT_STAT_HW_SAFE : Fld := ⟨0x3E004, 29, 1⟩
def R.FLT_STAT_IRQ_PEND : Fld := ⟨0x3E004, 28, 1⟩
def R.FLT_STAT_LOG_USED : Fld := ⟨0x3E004, 16, 9⟩
def R.FLT_STAT_LOG_HEAD : Fld := ⟨0x3E004, 8, 8⟩
def R.FLT_STAT_COAL_OPEN : Fld := ⟨0x3E004, 0, 5⟩
def R.FLT_SAFE_CAUSE_CAUSE : Fld := ⟨0x3E008, 0, 6⟩
def R.FLT_CNT_CLEAR_REFUSED : Fld := ⟨0x3E00C, 24, 8⟩
def R.FLT_CNT_LOG_LOST : Fld := ⟨0x3E00C, 16, 8⟩
def R.FLT_CNT_REPEAT : Fld := ⟨0x3E00C, 8, 8⟩
def R.FLT_CNT_COAL_FULL : Fld := ⟨0x3E00C, 0, 8⟩
def R.FLT_FIRST0_VALID : Fld := ⟨0x3E020, 31, 1⟩
def R.FLT_FIRST0_PROVISIONAL : Fld := ⟨0x3E020, 30, 1⟩
def R.FLT_FIRST0_CLASS : Fld := ⟨0x3E020, 28, 2⟩
def R.FLT_FIRST0_SOURCE : Fld := ⟨0x3E020, 16, 9⟩
def R.FLT_FIRST0_INSTANCE : Fld := ⟨0x3E020, 0, 16⟩
def R.FLT_FIRST1 : Fld := ⟨0x3E024, 0, 32⟩
def R.FLT_FIRST2 : Fld := ⟨0x3E028, 0, 32⟩
def R.FLT_FIRST3_CYCLE : Fld := ⟨0x3E02C, 16, 16⟩
def R.FLT_FIRST3_ACCESS : Fld := ⟨0x3E02C, 8, 8⟩
def R.FLT_FIRST3_MASTER : Fld := ⟨0x3E02C, 0, 8⟩
def R.FLT_FIRST4 : Fld := ⟨0x3E030, 0, 32⟩
def R.FLT_FIRST5 : Fld := ⟨0x3E034, 0, 32⟩
def R.FLT_FIRST6_ENTRY : Fld := ⟨0x3E038, 0, 8⟩
def R.FLT_LOG_IDX_INDEX : Fld := ⟨0x3E040, 0, 8⟩
def R.FLT_LOG_DATA (i : Nat) : Fld := ⟨0x3E080 + 0x4 * i, 0, 32⟩
def R.FLT_ACTIVE (i : Nat) : Fld := ⟨0x3E100 + 0x4 * i, 0, 32⟩
def R.FLT_LATCH (i : Nat) : Fld := ⟨0x3E140 + 0x4 * i, 0, 32⟩
def R.FLT_SHADOW_MAP_BLOCKS (i : Nat) : Fld := ⟨0x3E180 + 0x4 * i, 0, 16⟩
def R.FLT_SHADOW_CNT_LATE (i : Nat) : Fld := ⟨0x3E1C0 + 0x4 * i, 16, 16⟩
def R.FLT_SHADOW_CNT_SUPPRESSED (i : Nat) : Fld := ⟨0x3E1C0 + 0x4 * i, 0, 16⟩
def R.FLT_REACT_CLASS (i : Nat) : Fld := ⟨0x3E800 + 0x4 * i, 30, 2⟩
def R.FLT_REACT_IRQ (i : Nat) : Fld := ⟨0x3E800 + 0x4 * i, 29, 1⟩
def R.FLT_REACT_DEGRADE (i : Nat) : Fld := ⟨0x3E800 + 0x4 * i, 28, 1⟩
def R.FLT_REACT_BLK_RST (i : Nat) : Fld := ⟨0x3E800 + 0x4 * i, 27, 1⟩
def R.FLT_REACT_HOLD (i : Nat) : Fld := ⟨0x3E800 + 0x4 * i, 26, 1⟩
def R.FLT_REACT_SWITCH (i : Nat) : Fld := ⟨0x3E800 + 0x4 * i, 25, 1⟩
def R.FLT_REACT_SAFE (i : Nat) : Fld := ⟨0x3E800 + 0x4 * i, 24, 1⟩
-- the `SEC_` block
def R.SEC_LC_STATE : Fld := ⟨0x3F000, 0, 2⟩
def R.SEC_IMG_STAT_IGNORED : Fld := ⟨0x3F004, 24, 8⟩
def R.SEC_IMG_STAT_REASON_B : Fld := ⟨0x3F004, 16, 4⟩
def R.SEC_IMG_STAT_REASON_P : Fld := ⟨0x3F004, 12, 4⟩
def R.SEC_IMG_STAT_SLOT : Fld := ⟨0x3F004, 8, 4⟩
def R.SEC_IMG_STAT_LOCKED : Fld := ⟨0x3F004, 2, 1⟩
def R.SEC_IMG_STAT_UNBOUND : Fld := ⟨0x3F004, 1, 1⟩
def R.SEC_IMG_STAT_BACKUP : Fld := ⟨0x3F004, 0, 1⟩
def R.SEC_ROLLBACK_IMAGE : Fld := ⟨0x3F008, 8, 8⟩
def R.SEC_ROLLBACK_COUNTER : Fld := ⟨0x3F008, 0, 8⟩
def R.SEC_KEYS_VENDOR : Fld := ⟨0x3F00C, 8, 1⟩
def R.SEC_KEYS_REVOKED : Fld := ⟨0x3F00C, 4, 4⟩
def R.SEC_KEYS_PROGRAMMED : Fld := ⟨0x3F00C, 0, 4⟩
def R.SEC_IMG_DIGEST (i : Nat) : Fld := ⟨0x3F010 + 0x4 * i, 0, 32⟩
def R.SEC_CERT_LEN_LEN : Fld := ⟨0x3F03C, 0, 11⟩
def R.SEC_DBG_STAT_REFUSED : Fld := ⟨0x3F040, 16, 16⟩
def R.SEC_DBG_STAT_LOCKOUT_PCIE : Fld := ⟨0x3F040, 13, 1⟩
def R.SEC_DBG_STAT_LOCKOUT_JTAG : Fld := ⟨0x3F040, 12, 1⟩
def R.SEC_DBG_STAT_LE_HALTED : Fld := ⟨0x3F040, 10, 1⟩
def R.SEC_DBG_STAT_DEFAULT : Fld := ⟨0x3F040, 8, 2⟩
def R.SEC_DBG_STAT_PCIE_NOW : Fld := ⟨0x3F040, 6, 2⟩
def R.SEC_DBG_STAT_PCIE_GRANT : Fld := ⟨0x3F040, 4, 2⟩
def R.SEC_DBG_STAT_JTAG_NOW : Fld := ⟨0x3F040, 2, 2⟩
def R.SEC_DBG_STAT_JTAG_GRANT : Fld := ⟨0x3F040, 0, 2⟩
def R.SEC_DBG_ADDR_LO : Fld := ⟨0x3F050, 0, 32⟩
def R.SEC_DBG_ADDR_HI : Fld := ⟨0x3F054, 0, 32⟩
def R.SEC_DBG_DATA : Fld := ⟨0x3F058, 0, 32⟩
def R.SEC_DBG_CMD_REFUSED : Fld := ⟨0x3F05C, 9, 1⟩
def R.SEC_DBG_CMD_DONE : Fld := ⟨0x3F05C, 8, 1⟩
def R.SEC_DBG_CMD_GO_WRITE : Fld := ⟨0x3F05C, 1, 1⟩
def R.SEC_DBG_CMD_GO_READ : Fld := ⟨0x3F05C, 0, 1⟩
def R.SEC_CERT (i : Nat) : Fld := ⟨0x3F400 + 0x4 * i, 0, 32⟩

end Sys2Proof.Machine
end

