-- ==== Sys2Proof/Machine/State.lean ====
section
/-! DEFINITION. The state of the controller, as plain data. Every BAR0 register lies in `regs`, a sparse
map whose unlisted entries read the register's reset value (Machine/RegTable.lean); everything
the spec gives the part beside its registers lies in the structures of the blocks below. -/

set_option Elab.async false

namespace Sys2Proof.Machine

open Sys2Proof

/-- Reasons a command stops the machine with a fault. -/
inductive Fault where
  /-- Raised by no command: the spec gives every command an effect, and a command that finds nothing to do
  leaves the state as it is. Safe. -/
  | unreachable
  deriving DecidableEq, Repr

/-- Reasons a command is refused by the model. -/
inductive Refusal where
  /-- Raised by an arm of `exec` whose command has no meaning yet, under its mnemonic. Safe. -/
  | notModelled (mnemonic : String)
  deriving DecidableEq, Repr

/-! ### SYS: boot, marks, power -/

/-- Where the main domains stand between reset and the end of boot (Table 3.14, R80, R82). -/
inductive BootPhase where
  /-- main domains held in reset: rails out of range or `PORST_N` low -/
  | reset
  /-- step 1 and 2: backup clock, reference and system loops -/
  | search
  /-- step 3: SRAM initialisation -/
  | sram
  /-- step 4: image read -/
  | image
  /-- CODE 0x6: waiting for an image over JTAG (R46) -/
  | jtagWait
  /-- step 5: the settings are being applied, no loop of step 6 searches yet -/
  | settings
  /-- steps 5 and 6 done, step 7 to come -/
  | applied
  /-- step 7 done -/
  | done
  /-- boot failed (R80) -/
  | failed
  /-- held in reset after a request for OFF (R82) -/
  | off
  deriving DecidableEq, Repr

/-- Power-state targets (Table 3.18). -/
inductive Power where
  | boot | run | hold | towpath | off
  deriving DecidableEq, Repr

/-- A power transition in progress (Table 3.17). -/
inductive PowerMove where
  /-- accepted, takes effect at the next SAMPLE mark -/
  | waitMark (target : Power)
  /-- took effect; the completion time of Table 3.17 runs -/
  | completing (target : Power)
  /-- TOWPATH entry, step 1 of R84 running: HOLD barges still to be sent -/
  | holdBarges (left : Nat)
  deriving DecidableEq, Repr

/-- Why a change to HOLD was forced (R83, Table 17.2). -/
inductive ForceCause where
  | safe | pllTb | reaction
  deriving DecidableEq, Repr

/-- SYS state beside the registers. -/
structure SysSt where
  boot : BootPhase := .search
  /-- a reference has been found during boot (R79) -/
  refFound : Bool := false
  /-- local counter at TR -/
  tr : Nat := 0
  /-- full cycle count of the last SAMPLE mark (R17) -/
  k : Nat := 0
  /-- epoch: plant time in ns and cycle count of the mark it names (R17, R27) -/
  epoch : Int := 0
  epochK : Nat := 0
  /-- period commit accepted, effective at the next mark (R27) -/
  newPeriod : Option Nat := none
  /-- at the standby: the holder's period, epoch and the count of the epoch's mark, to be taken at the next SAMPLE mark
  (R27) -/
  newGrid : Option (Nat × Int × Nat) := none
  move : Option PowerMove := none
  /-- held in HOLD by a strap mismatch (R45) -/
  strapHold : Bool := false
  /-- the power state has followed the holder or a watch wake; target still to take (R426, R84) -/
  follow : Option Power := none
  /-- rails in range now, bit i as `MON_RAIL` (R50) -/
  railsOk : BitVec 6 := 0x3F
  /-- a request for OFF has been granted and acts at the end of the command that made it (R82) -/
  offAsked : Bool := false
  /-- always-on feeds in range: bit 0 `VAON_A`, bit 1 `VAON_B` (R51) -/
  feeds : BitVec 2 := 3
  /-- a transition was running at a monitor trip: its request completes REJECTED_MODE after the boot (R85) -/
  cutShort : Bool := false
  /-- compute window of the present cycle: opened, schedule done, overrun (R24) -/
  windowOpen : Bool := false
  scheduleDone : Bool := false
  overrun : Bool := false
  /-- downlink of the present cycle issued (R363) -/
  downlinkSent : Bool := false
  /-- APPLY mark of the present cycle passed -/
  applied : Bool := false
  deriving DecidableEq, Repr

/-! ### CLK -/

/-- Clock state beside the registers. -/
structure ClkSt where
  /-- returns accepted and not yet in effect, bit per loop (R71) -/
  returning : BitVec 12 := 0
  /-- loops stopped by TOWPATH entry, not a loss of lock (R84) -/
  stopped : BitVec 12 := 0
  /-- staged dividers frozen by GO (R74) -/
  update : Option (BitVec 8) := none
  /-- references that have failed and not qualified again: bit 0 `REFA`, bit 1 `REFB` (R66) -/
  refLost : BitVec 2 := 0
  /-- loops whose last band search failed (R65) -/
  failed : BitVec 12 := 0
  /-- loops that have lost lock and not locked again (R69) -/
  lost : BitVec 12 := 0
  /-- loops that have lost lock and whose domains have not returned since (R71) -/
  away : BitVec 12 := 0
  /-- FAB runs on the backup clock: steps 1 and 2 of boot, a loss of PLL_SYS, TOWPATH (R69, R79, R84) -/
  fabBackup : Bool := true
  /-- the reference in use took over from one that failed (R66) -/
  failedOver : Bool := false
  deriving DecidableEq, Repr

/-! ### HST: rings, kept commands, events, watchdog -/

/-- A ring's indices beside `HST_RING_STAT` (R92, R95). -/
structure RingSt where
  /-- next descriptor to take up -/
  fetch : Nat := 0
  /-- index up to which descriptors have been fetched -/
  fetched : Nat := 0
  /-- write-backs are dropped: disabled by a cause of R87 -/
  dropWb : Bool := false
  /-- completions or records since the last message, and whether the hold-off runs (R116) -/
  gathered : Nat := 0
  deriving DecidableEq, Repr

/-- A command kept after DEFERRED or PENDING (R103). -/
structure Kept where
  /-- fetch order -/
  seq : Nat
  ring : Nat
  idx : Nat
  desc : Desc
  /-- true DEFERRED, false PENDING -/
  deferred : Bool
  /-- full cycle count at the first completion -/
  since : Nat
  deriving DecidableEq, Repr

/-- A fetched command not yet checked, held by a FENCE (R104). -/
structure Held where
  seq : Nat
  ring : Nat
  idx : Nat
  /-- opcode of the row that brought it -/
  row : Nat
  desc : Desc
  /-- plant time at fetch (R378) -/
  fetchTime : Nat
  /-- what the buffer of a debug response held (R419) -/
  resp : Bytes := []
  deriving DecidableEq, Repr

/-- A posted buffer or frame descriptor waiting in its ring (R91). -/
structure Posted where
  ring : Nat
  idx : Nat
  desc : Desc
  /-- the frame itself, for transmit rings -/
  frame : Bytes
  /-- outcome decided at fetch: status and DETAIL -/
  bad : Option (Nat × Nat) := none
  deriving DecidableEq, Repr

/-- A held write-back (R87). -/
structure WriteBack where
  ring : Nat
  idx : Nat
  /-- bytes 16 to 23, where written back -/
  mid : Option Nat
  status : Nat
  wbFlags : Nat
  detail : Nat
  data : Nat
  irqNow : Bool
  deriving DecidableEq, Repr

/-- A telemetry stream (R106, R107). -/
structure Stream where
  items : List Word := []
  /-- blocks dropped since the previous block -/
  gap : Nat := 0
  /-- cycle count of the last block written or dropped, plus one -/
  last : Nat := 0
  deriving DecidableEq, Repr

/-- Host-loss plan in progress (R119). -/
structure Plan where
  /-- PLAN encoding -/
  plan : Nat
  /-- the plan waits for the next SAMPLE mark -/
  waiting : Bool
  /-- cycle count at which the ramp began -/
  since : Nat
  /-- set-points at the start of the ramp: slot and value -/
  start : List (Nat × F32)
  /-- complete, awaiting HOST_RESUME -/
  complete : Bool := false
  /-- the ramp is over: the grid mode falls at the next SAMPLE mark (R23) -/
  ended : Bool := false
  deriving DecidableEq, Repr

/-- An admitted command that takes effect at a SAMPLE mark (R29, R371). -/
structure Due where
  desc : Desc
  /-- admitted value, where the command has one -/
  value : F32
  /-- full cycle count of the mark -/
  mark : Nat
  /-- a pending request executed (Table 8.12) -/
  kept : Bool := false
  deriving DecidableEq, Repr

/-- HST state beside the registers. -/
structure HstSt where
  /-- admitted, to take effect at a mark, in admission order -/
  due : List Due := []
  /-- the link is held in L1: TOWPATH entry, until a BAR0 access (R81, R84) -/
  l1 : Bool := false
  /-- BAR0 and BAR1 in configuration space: one 64-bit memory BAR of 1 MiB (R86) -/
  bar : BitVec 64 := 4
  /-- index-block words that changed while no DMA could be issued, bit per ring (R99) -/
  idxDirty : BitVec 23 := 0
  /-- DMA conditions of R87 -/
  perstHigh : Bool := false
  linkUp : Bool := false
  inD0 : Bool := true
  busMaster : Bool := false
  rings : List (Nat × RingSt) := []
  fetchSeq : Nat := 0
  admitSeq : BitVec 16 := 0
  kept : List Kept := []
  held : List Held := []
  posted : List Posted := []
  heldWb : List WriteBack := []
  /-- records held, oldest first, EVENTS_LOST among them (R114) -/
  store : List Event := []
  /-- losses counted by the EVENTS_LOST record now open -/
  lossOpen : Option Nat := none
  evSeq : BitVec 16 := 0
  streams : List (Nat × Stream) := []
  /-- MSI-X table at 0x8_0000, pending bits, MSI-X Enable (R89, R116) -/
  msixTable : List (Nat × Word) := []
  msixPending : BitVec 32 := 0
  msixEnable : Bool := false
  /-- MSI-X Function Mask in configuration space (R116) -/
  msixMask : Bool := false
  /-- watchdog armed; plan in progress; swap asked by the watchdog, with the cycle it expired in -/
  armed : Bool := false
  /-- TIMEOUT/2 has passed without a restart (R118) -/
  warned : Bool := false
  plan : Option Plan := none
  watchSwap : Option Nat := none
  deriving DecidableEq, Repr

/-! ### FLT -/

/-- One log entry (Table 15.5). -/
structure LogEntry where
  source : Nat
  cls : Nat
  flags : BitVec 8
  inst : Nat
  cycle : Nat
  time : Nat
  addr : Nat
  master : Nat
  access : Nat
  reaction : BitVec 8
  count : Nat
  cause : Nat
  bitmap : BitVec 192
  lastCycle : Nat
  seq : Nat
  value : F32
  deriving DecidableEq, Repr

/-- An open coalescing window (R395). -/
structure CoalWin where
  source : Nat
  cause : Nat
  entry : Nat
  /-- cycle count of the mark that ends it -/
  ends : Nat
  deriving DecidableEq, Repr

/-- A shadow window after a block reset (R391). -/
structure Shadow where
  block : Nat
  /-- blocks shadowed, bit per block -/
  blocks : BitVec 16
  /-- assertions suppressed: source, instance, still asserted -/
  hits : List (Nat × Nat × Bool)
  deriving DecidableEq, Repr

/-- A reaction due (R388): source, instance, and the actions of Table 15.3 to run. -/
structure Reaction where
  source : Nat
  inst : Nat
  acts : BitVec 8
  deriving DecidableEq, Repr

/-- A FAULT_CLEAR granted, effective at the next mark (R401). -/
structure Clearing where
  scope : Nat
  sources : List Nat
  refused : Nat
  exitSafe : Bool
  deriving DecidableEq, Repr

/-- Collector state beside the registers. -/
structure FltSt where
  /-- sources whose pair is broken (R385) -/
  broken : List Nat := []
  /-- entries logged since the last clear, per source (R387) -/
  logged : List (Nat × Nat) := []
  /-- last instance logged, per source -/
  lastInst : List (Nat × Nat) := []
  log : List (Nat × LogEntry) := []
  /-- entries ever used since reset -/
  used : Nat := 0
  seq : Nat := 0
  overflow : Bool := false
  windows : List CoalWin := []
  /-- FAULT_SEQs of the latest logged reports, per cell, newest first, at most 8 (R396) -/
  acks : List (Nat × List Nat) := []
  shadows : List Shadow := []
  due : List Reaction := []
  clearing : List Clearing := []
  /-- cycle count in which the capture was taken -/
  capCycle : Nat := 0
  deriving DecidableEq, Repr

/-! ### TSN -/

/-- A linear correction of the local counter: OFS in 2^-16 ns, ANCHOR in ns, RATE in 2^-48 (R340). -/
structure Corr where
  ofs : Int := 0
  anchor : Int := 0
  rate : Int := 0
  deriving DecidableEq, Repr

/-- What a tracker has measured on one of its ports and has under way there (R346). -/
structure PtpLink where
  /-- two-step Sync waiting for its Follow_Up: sequence, ingress time, correction -/
  sync : Option (Nat × Int × Int) := none
  /-- t2 − t1 of the last complete Sync, corrected (2^-16 ns) -/
  down : Int := 0
  /-- own delay request in flight: sequence, egress time -/
  delayReq : Option (Nat × Int) := none
  /-- a two-step peer response waiting for its Follow_Up: sequence, t4 − t1 − correction, t2 -/
  peer : Option (Nat × Int × Int) := none
  /-- mean path or peer delay (2^-16 ns) -/
  mpd : Int := 0
  /-- requests in a row with no response -/
  unanswered : Nat := 0
  deriving DecidableEq, Repr

/-- A PTP tracker beside its registers (R344 to R347). -/
structure Tracker where
  corr : Corr := {}
  /-- what each of its ports has measured and has under way -/
  links : List (Nat × PtpLink) := []
  /-- foreign masters heard: data set, and ms of the local counter at the last Announce and the one before -/
  foreign : List (PtpMaster × Nat × Option Nat) := []
  master : Option PtpMaster := none
  /-- consecutive Syncs within LOCK_THR -/
  good : Nat := 0
  reqSeq : Nat := 0
  /-- plant-independent local counter at which LOCKED was entered -/
  lockedAt : Nat := 0
  /-- ports on which the master is heard, bit per port -/
  heard : BitVec 2 := 0
  deriving DecidableEq, Repr

/-- A source address of the PRP table (R338). -/
structure PrpEntry where
  mac : Nat
  seqs : List Nat
  last : Nat
  deriving DecidableEq, Repr

/-- TSN state beside the registers. -/
structure TsnSt where
  /-- local counter L, ticks of 2 ns since power-on reset (R340) -/
  local_ : Nat := 0
  /-- what the time domain has been told of a slew of PLL_TB: its rate in ns/s, with the sign of the error (R73) -/
  tbSlew : Int := 0
  corr : Corr := {}
  /-- slew in progress: sign of the difference to close (R343) -/
  slew : Option Bool := none
  /-- a step request accepted, to take effect at the next SAMPLE mark (R342) -/
  stepAsked : Bool := false
  /-- the selection follows the claim holder's, from its heartbeat (R348) -/
  holderSel : Option Nat := none
  trackers : List (Nat × Tracker) := []
  prp : List PrpEntry := []
  prpSeq : BitVec 16 := 0
  /-- port being changed of rate (R75) -/
  ports : List (Nat × Bool) := []
  deriving DecidableEq, Repr

/-! ### RED -/

/-- A role swap (R378 to R380). -/
structure Swap where
  /-- cycle s -/
  s : Nat
  watchdog : Bool
  /-- the claim has been released (step 3) -/
  released : Bool
  /-- the partner has confirmed -/
  confirmed : Bool
  deriving DecidableEq, Repr

/-- A mirrored command to carry out (R371). -/
structure Mirror where
  desc : Desc
  status : Nat
  effect : Nat
  value : F32
  deriving DecidableEq, Repr

/-- A state copy being received (R369, R370). -/
structure CopyIn where
  cycle : Nat
  count : Nat
  segments : List (Nat × Bytes)
  deriving DecidableEq, Repr

/-- RED state beside the registers. -/
structure RedSt where
  /-- latest heartbeat payload (Table 14.4) -/
  partner : Bytes := []
  /-- a seat has held the claim since this seat's boot (R361) -/
  everHeld : Bool := false
  /-- no claim again before a power-on reset (R358) -/
  strapConflict : Bool := false
  /-- the partner's part, settings mismatch (R358) -/
  partMismatch : Bool := false
  settingsMismatch : Bool := false
  /-- claims again only while the link is UP (R360) -/
  onlyLinked : Bool := false
  /-- START_T has passed (R361) -/
  startT : Bool := false
  /-- local counter when `PARTNER_CLAIM_N` was seen deasserted; none while asserted -/
  deassertedAt : Option Nat := some 0
  /-- APPLY marks since the last heartbeat -/
  missed : Nat := 0
  /-- last copies complete, newest first, at most 8 (R362) -/
  copies : List Bool := []
  copyIn : Option CopyIn := none
  /-- cycles compared since the link came UP; compared cycles since the last mismatch -/
  compared : Nat := 0
  clean : Nat := 0
  /-- mismatch marks of the last compared cycles, newest first, at most 1,024 (Table 14.15) -/
  history : List Bool := []
  /-- consecutive mismatches per loop (R375) -/
  runs : List (Nat × Nat) := []
  swap : Option Swap := none
  mirrors : List Mirror := []
  /-- cycle left uncompared by a late MIRROR -/
  uncompared : Bool := false
  /-- the claim was taken under COLD_TAKE (R362) -/
  coldTaken : Bool := false
  /-- last cycle whose downlink the partner, as holder, is known to have sent (R374) -/
  sent : Nat := 0
  /-- local counter at the keeper's last refresh (R363) -/
  refreshedAt : Nat := 0
  /-- TAKE_READY at the last APPLY mark with the link UP (R362) -/
  takeApply : Bool := false
  /-- loops DIVERGED since the last clear of BAD (R375, R376) -/
  diverged : List Nat := []
  /-- the latest complete copy (R417) -/
  lastCopy : Option Bytes := none
  deriving DecidableEq, Repr

/-! ### CNL -/

/-- A rate step under way on a lane's hop or pound (R130, R131). -/
structure StepSt where
  newRate : Nat
  oldRate : Nat
  time : Nat
  hop : Bool
  /-- the step time has passed and the hop switched -/
  switched : Bool
  /-- this seat leads -/
  lead : Bool
  /-- the hops have gone back to the old rate, which CONFIRM is still to confirm (R131) -/
  reverted : Bool := false
  deriving DecidableEq, Repr

/-- A node as its last REPORT shows it (Table 5.3). -/
structure NodeReport where
  /-- present rate code -/
  rate : Nat := 0
  maxRate : Nat := 0
  serial : Nat := 0
  aligned : BitVec 8 := 0
  deriving DecidableEq, Repr

/-- Receiver tuning of a hop (R134). -/
structure EqSt where
  asked : Nat := 0
  noGain : Nat := 0
  best : Nat := 0
  bestPre : Nat := 0
  bestPost : Nat := 0
  /-- the search is over: the far taps go to the best setting -/
  settling : Bool := false
  deriving DecidableEq, Repr

/-- A lane beside its registers. -/
structure LaneSt where
  /-- held OFF after a quad loop loss, until the domain returns (R139) -/
  quadOff : Bool := false
  /-- held OFF by an invalid tap entry (R137) -/
  tapBad : Bool := false
  /-- HELLO has come since ENUM was entered (R126) -/
  hello : Bool := false
  /-- reach settled (R128) -/
  settled : Bool := false
  /-- ENUM repeats since coverage was last complete (R128) -/
  enumTries : Nat := 0
  step : Option StepSt := none
  eq : EqSt := {}
  /-- taps in force per rate code: PRE and POST (R131) -/
  taps : List (Nat × (Nat × Nat)) := []
  /-- last valid hop delay measurements, 2^-16 ns, newest first, at most 8 (R159) -/
  delays : List Nat := []
  discarded : Nat := 0
  /-- highest rate code of the adjacent node (HELLO) -/
  peerRate : Nat := 0
  /-- forced taps in force: latched at entry to DETECT (R135) -/
  forced : Option (Nat × Nat) := none
  /-- positions that have answered ENUM on this lane (R128) -/
  answered : List Nat := []
  /-- rejoining alone (R132) -/
  alone : Bool := false
  /-- sequence of the last EQ_REQ or DELAY_REQ -/
  reqSeq : BitVec 8 := 0
  /-- sequence of the DELAY_REQ that waits for its DELAY_RSP (R159) -/
  delaySeq : Option (BitVec 8) := none
  /-- full cycle count of the last DELAY_REQ (R159) -/
  askedAt : Nat := 0
  deriving DecidableEq, Repr

/-- A pound beside its registers. -/
structure PoundSt where
  /-- local counter at which towpath MODE WAKE began, while it holds (R147) -/
  wake : Option Nat := none
  /-- reports of reached nodes, per position -/
  nodes : List (Nat × NodeReport) := []
  /-- hop delay limit exceeded at the present rate (R165) -/
  overDelay : Bool := false
  /-- closures reported since the last mean, and each as the time this seat's end is behind the holder's, 125 ps
  (R161) -/
  closures : List (Int × Int) := []
  /-- the last mean lay beyond its limit -/
  closureBad : Bool := false
  /-- rate, reach and period behind the service state last judged (R21) -/
  seen : Nat × Bool × Nat := (0, false, 0)
  /-- cycles spent OUT outside IDLE (R235) -/
  outCycles : Nat := 0
  /-- mark at which the change to HALF took effect, while no half-rate command is due yet (R181) -/
  halfSince : Nat := 0
  /-- rate last confirmed (R132) -/
  confirmed : Nat := 0
  deriving DecidableEq, Repr

/-- A service request to a cell (R177). -/
structure ServiceReq where
  op : Nat
  len : Nat
  addr : Nat
  data : Nat
  /-- host TAG; none for a request of the controller itself -/
  tag : Option Nat
  /-- launched, with its SEQ -/
  sent : Option Nat
  deriving DecidableEq, Repr

/-- A cell as seen over the Canal. -/
structure LinkSt where
  /-- cycle number, type and payload of the last accepted state barge (R173) -/
  cycle : Nat := 0
  typ : Nat := 0
  payload : Bytes := []
  /-- full cycle count of the last accepted sample plus one; 0 none -/
  sample : Nat := 0
  service : Option ServiceReq := none
  /-- settings still to be written when first SYNCED (R187): next index 0 to 3; 3 all queued -/
  written : Nat := 0
  /-- launch cycle of the request outstanding -/
  since : Nat := 0
  /-- hop delays of the last full state, 125 ps: east port, west port -/
  hopE : Nat := 0
  hopW : Nat := 0
  deriving DecidableEq, Repr

/-- A towpath port beside its registers (R144, R148). -/
structure PortSt where
  seq : BitVec 8 := 0
  /-- valid frames in a row while not UP -/
  good : Nat := 0
  deriving DecidableEq, Repr

/-- Canal state beside the registers. -/
structure CnlSt where
  lanes : List (Nat × LaneSt) := []
  pounds : List (Nat × PoundSt) := []
  links : List (Nat × LinkSt) := []
  ports : List (Nat × PortSt) := []
  /-- SEQ per type of the controller's own barges (Table 6.1) -/
  seqs : List (Nat × Nat) := []
  /-- local ns at which each lock-link lane has sent what it was given (R366) -/
  busy : List (Nat × Nat) := []
  malformed : Nat := 0
  /-- service barges sent in this cycle: lane and type (R169) -/
  sentSvc : List (Nat × Nat) := []
  /-- first SYNCED seen, per cell (R187) -/
  synced : List Nat := []
  /-- HOLD_MAX, BYPASS_DELAY, SAFE_ACTION of the protected settings (R187) -/
  holdMax : Nat := 8
  bypassDelay : Nat := 50
  safeAction : Nat := 0
  /-- lock-link taps and boost per lane (Table 5.5) -/
  tapTable : List (Nat × Nat) := []
  deriving DecidableEq, Repr

/-! ### LOOP -/

/-- A signal slot that has been written (Table 7.1); `k` is the full count of the cycle its value belongs to. -/
structure Slot where
  value : F32
  qual : BitVec 8
  k : Nat
  deriving DecidableEq, Repr

/-- What a loop still needs of the descriptor that left force, until its first evaluation with the new bank (R208,
R209). -/
structure Carry where
  /-- KP_old -/
  kp : F32
  /-- KFF_old; none without FF_EN -/
  kff : Option F32
  /-- FF_SLOT of the old descriptor -/
  ffSlot : Nat
  /-- the previous output lay at the upper limit -/
  upper : Bool
  deriving DecidableEq, Repr

/-- State a loop carries (Table 7.4, R209 to R213). -/
structure LoopState where
  out : F32 := 0
  integ : F32 := 0
  spEff : F32 := 0
  y0 : F32 := 0
  y1 : F32 := 0
  y2 : F32 := 0
  z0 : F32 := 0
  z1 : F32 := 0
  z2 : F32 := 0
  dterm : F32 := 0
  gPrev : F32 := 0
  lead : F32 := 0
  ePrev : F32 := 0
  /-- evaluated since it last started from rest -/
  live : Bool := false
  atLimit : Bool := false
  /-- saturated hold: value, upper side, positive reference sign (R209) -/
  hold : Option (F32 × Bool × Bool) := none
  /-- policy in progress: 0 none, else the STATE code 2 to 5 (R211) -/
  policy : Nat := 0
  /-- clean evaluations in a row under a policy (R212) -/
  clean : Nat := 0
  /-- the stuck value that started the policy -/
  stuckAt : Option F32 := none
  /-- the feedback has differed from that value since (R212) -/
  moved : Bool := false
  /-- an input was lost or stuck in the last evaluation -/
  lostNow : Bool := false
  /-- the fault of a TRIP has been cleared (R212) -/
  cleared : Bool := false
  /-- feedback at the previous evaluation, and the cycle it belonged to (R210) -/
  fbPrev : F32 := 0
  fbCycle : Nat := 0
  /-- SUB_SLOT at the previous evaluation, the cycle it was written in plus one, and its stuck count (R210, R211) -/
  subPrev : F32 := 0
  subCycle : Nat := 0
  subCnt : Nat := 0
  /-- last feed-forward term, and last usable grid frequency (R210) -/
  ffLast : F32 := 0
  wLast : Option F32 := none
  /-- carried over a swap without a bump, and not evaluated since (R208, R209) -/
  carry : Option Carry := none
  /-- cycle of the last evaluation, plus one; 0 none -/
  last : Nat := 0
  /-- was SUSPENDED at the last cycle (R213) -/
  suspended : Bool := false
  /-- its next evaluation resumes it as on recovery (R213) -/
  resumes : Bool := false
  deriving DecidableEq, Repr

/-- What verification recorded of a bank (R205). -/
structure BankInfo where
  verified : Bool := false
  digest : Word := 0
  sched : Nat := 0
  copy : Nat := 0
  deriving DecidableEq, Repr

/-- Loop Engine state beside the registers. -/
structure LoopSt where
  /-- words of both descriptor banks by BAR0 offset (R196) -/
  words : List (Nat × Word) := []
  slots : List (Nat × Slot) := []
  loops : List (Nat × LoopState) := []
  /-- admitted set-points to enter at the next mark: slot and value (R216) -/
  staged : List (Nat × F32) := []
  /-- metering values that the next SAMPLE mark takes into their slots: slot, value, QUAL (R23) -/
  metered : List (Nat × F32 × BitVec 8 × Nat) := []
  bankA : BankInfo := {}
  bankB : BankInfo := {}
  /-- verification running: written meanwhile (R206) -/
  verifying : Option Bool := none
  /-- the bank that it verifies, the one staged when GO was written (R205) -/
  verifyBank : Nat := 0
  /-- bank committed for the next mark (R207) -/
  commit : Option Nat := none
  /-- bank that left force, still closed to writes until the mark after the swap cycle -/
  leaving : Option Nat := none
  /-- cycles of the mismatches in the present window (R214) -/
  mismatches : List Nat := []
  /-- evaluates nothing until a main-domain reset (R214) -/
  dead : Bool := false
  /-- has evaluated since the main-domain reset (R215) -/
  evaluated : Bool := false
  /-- regions found invalid, bit per region (R194) -/
  badRegions : BitVec 16 := 0
  /-- halted by debug (R417): loop at which it stands -/
  halted : Option Nat := none
  /-- a halt has ended: the next compute window resumes from the latest copy, or from rest (R417) -/
  resume : Bool := false
  deriving DecidableEq, Repr

/-! ### CELL -/

/-- A cell as the Manager and the Basin keep it, beside `CELL_CELL_STAT` (R219 to R235, R245). -/
structure CellSt where
  /-- role it returns to after a sluice or a failed rejoin -/
  former : Nat := 1
  /-- consecutive accepted states that show it charged, at most 100 (R227) -/
  charged : Nat := 0
  /-- step of a rejoin: 1 release, 2 charge (R234) -/
  step : Nat := 0
  /-- local counter at which it became REJOINING or SLUICING, and the full cycle count -/
  since : Nat := 0
  sinceK : Nat := 0
  /-- consecutive due samples missed (R230) -/
  misses : Nat := 0
  /-- consecutive states whose MODE_NOW differs from the mode commanded (R230) -/
  wrong : Nat := 0
  /-- cause of a failure seen, and the cycle whose compute window sees it (R231) -/
  cause : Option (Nat × Nat) := none
  /-- local counter at the first BYPASS not yet confirmed; limit reported (R232) -/
  bypassAt : Option Nat := none
  bypassTold : Bool := false
  /-- reached the charging level on its DAB (R227) -/
  levelled : Bool := false
  /-- carrier offset and the step it takes each cycle, fractions of a carrier period (R225) -/
  phi : Rat := 0
  phiStep : Rat := 0
  /-- commands sent: cycle of APPLY, MODE (none: a HOLD or SAFE that blocks), HALF; newest first, at most 4 -/
  sent : List (Nat × Option Nat × Bool) := []
  /-- V_g used last by the Basin (R245) -/
  vUsed : Option F32 := none
  /-- sluice target; consecutive finished states; last E_SLUICE seen (R261) -/
  target : F32 := 0
  finished : Nat := 0
  eSluice : Option Nat := none
  deriving DecidableEq, Repr

/-- A pound as the Manager keeps it, beside `CELL_POUND_STAT`. -/
structure PoundMgr where
  /-- METHOD of the pre-charge: 0 GRID, 1 BATTERY -/
  method : Nat := 0
  /-- local counter at the effect mark of the enable or disable -/
  since : Nat := 0
  /-- STOPPING: cells still to report -/
  waiting : List Nat := []
  /-- broadcast SAFE BYPASS in every cycle (R235) -/
  outBypass : Bool := false
  deriving DecidableEq, Repr

/-- A phase leg as the Manager keeps it, beside its registers. -/
structure LegSt where
  mPrev : F32 := 0
  /-- full cycle count of the last evaluation, plus one; 0 none since RUN was entered -/
  evalK : Nat := 0
  /-- consecutive cycles not covered outside IDLE (R238) -/
  unc : Nat := 0
  /-- redistribution running; cycle in which it began (R225) -/
  redist : Option Nat := none
  /-- N_AVAIL and VPK behind DISCONNECTED (Table 8.8) -/
  held : Nat × F32 := (0, 0)
  deriving DecidableEq, Repr

/-- The command formed for a cell (R224). -/
structure CellCmd where
  mod : F32
  slope : F32
  dab : F32
  dabSlope : F32
  bal : F32
  idab : F32
  phase : Nat
  mode : Nat
  flags : Nat
  sluice : Nat
  /-- full count of the cycle whose APPLY mark it takes effect at -/
  cycle : Nat
  deriving DecidableEq, Repr

/-- A grid-mode blend (R240). -/
structure Blend where
  old : Nat
  /-- cycle of the effect mark -/
  since : Nat
  /-- a pending request executed -/
  kept : Bool
  deriving DecidableEq, Repr

/-- A shut-down to IDLE (R241). -/
structure ShutDown where
  /-- plant time of its start, ns -/
  since : Nat
  /-- power set-points at its start: slot and value -/
  start : List (Nat × F32)
  /-- legs on whose account it runs, bit per leg (R238) -/
  legs : BitVec 3
  /-- the ramp is over: the grid mode falls at the next SAMPLE mark (R23) -/
  ended : Bool := false
  deriving DecidableEq, Repr

/-- State of the Phase-leg and Cell Manager beside its registers. -/
structure MgrSt where
  cells : List (Nat × CellSt) := []
  pounds : List (Nat × PoundMgr) := []
  legs : List (Nat × LegSt) := []
  /-- frame angle, frequency in use, frequency slot lost (R222) -/
  theta : F32 := 0
  omega : F32 := 0
  omegaBad : Bool := false
  blend : Option Blend := none
  shut : Option ShutDown := none
  cmds : List (Nat × CellCmd) := []
  deriving DecidableEq, Repr

/-! ### NRG -/

/-- The ledger of a SAMPLE mark, in mJ (Table 9.1). -/
structure Ledger where
  cells : List Int := []
  lv : Int := 0
  aux : Int := 0
  /-- release exposure of domains 0 to 4 -/
  rel : List Int := []
  deriving DecidableEq, Repr

/-- A cell of the sluice: queued, or SLUICING when `on`. -/
structure SluiceItem where
  cell : Nat
  target : F32
  on : Bool
  deriving DecidableEq, Repr

/-- A signed record being prepared (R265, R414): energy or attestation. -/
structure RecordJob where
  addr : Nat
  tag : Nat
  nonce : Bytes
  /-- full cycle count of the recorded mark -/
  mark : Nat
  /-- the record's content, once the mark has passed -/
  body : Option Bytes
  deriving DecidableEq, Repr

/-- Basin state beside its registers. -/
structure NrgSt where
  /-- V_LV and V_AUX used last (R246) -/
  lv : Option F32 := none
  aux : Option F32 := none
  /-- TOTAL of an accumulator at the previous mark -/
  totals : List (Nat × Int) := []
  /-- SOE of a string in mJ, where set (R247, R248) -/
  soe : List (Nat × Int) := []
  /-- SOE to set at the next mark, kJ -/
  soeSet : List (Nat × Nat) := []
  eIn : List (Nat × Nat) := []
  eOut : List (Nat × Nat) := []
  pccIn : Nat := 0
  pccOut : Nat := 0
  ledger : Ledger := {}
  /-- last admitted VDC_CELL set-point per leg; last admitted VDC_LVBUS set-point (R254) -/
  vdcSet : List (Nat × F32) := []
  lvSet : Option F32 := none
  /-- the sluice (R260 to R263) -/
  sluice : List SluiceItem := []
  sluiceAuto : Bool := false
  /-- cells finished, cells not finished, energy in mJ -/
  sluiceDone : Nat := 0
  sluiceLost : Nat := 0
  sluiceEnergy : Nat := 0
  /-- local counter at the stop -/
  stopAt : Nat := 0
  /-- consecutive marks with a stored-energy cap exceeded in IDLE (R263) -/
  overMarks : Nat := 0
  record : Option RecordJob := none
  recordSeq : Word := 0
  /-- a meter gap, an SOE set since the previous record -/
  gapSeen : Bool := false
  soeSeen : Bool := false
  deriving DecidableEq, Repr

/-! ### MTR -/

/-- An accumulator (R279 to R282). -/
structure AccSt where
  /-- TOTAL with its residue, in 2^-20 mJ -/
  total : Int := 0
  /-- sum of the open window -/
  sum : Rat := 0
  count : Nat := 0
  /-- FLAGS of the open window: INVALID_IN, CAL, RESET -/
  invalidIn : Bool := false
  cal : Bool := false
  wasReset : Bool := false
  /-- no window is open: until the first boundary after TOWPATH (R282) -/
  idle : Bool := false
  /-- a fine result due since the previous mark was invalid -/
  gap : Bool := false
  /-- last closed window: RESULT, COUNT, FLAGS, WIN_END, WIN_SEQ, CYCLE -/
  result : F32 := 0
  resCount : Nat := 0
  resFlags : Nat := 0
  winEnd : Nat := 0
  winSeq : Nat := 0
  winCycle : Nat := 0
  deriving DecidableEq, Repr

/-- A min-max tracker (R283): running values. -/
structure TrkSt where
  run : Option (F32 × F32) := none
  deriving DecidableEq, Repr

/-- Metering state beside its registers. -/
structure MtrSt where
  accs : List (Nat × AccSt) := []
  trks : List (Nat × TrkSt) := []
  /-- calibration corrections in force per slice: gain and offset (R284) -/
  corr : List (Nat × (F32 × F32)) := []
  /-- instant of the last fine result, in 250 µs -/
  fine : Nat := 0
  /-- local counter at the last reset of the metering divider (R76) -/
  dividerAt : Option Nat := none
  /-- step of Table 10.4 last taken in the slice in calibration -/
  calStep : Nat := 0
  /-- slice to start next -/
  calNext : Nat := 0
  /-- slices failed in the present round -/
  calFails : Nat := 0
  /-- channel of the test DAC run in progress (R286) -/
  diag : Option Nat := none
  /-- channel of a run that waits for the DAC (R287) -/
  waiting : Option Nat := none
  /-- fine results until the channel under test is valid again -/
  injected : Option (Nat × Nat) := none
  deriving DecidableEq, Repr

/-! ### PWM and CMP -/

/-- State of the PWM generator beside its registers (R291 to R304). -/
structure PwmSt where
  /-- phase in force, per channel -/
  phase : List (Nat × Nat) := []
  /-- state a drive's mask sets, per channel: 0 FREE, 1 HIGH, 2 LOW, 3 OFF (R300) -/
  mask : List (Nat × Nat) := []
  /-- channels whose slot was lost at the last read (R299) -/
  lost : List Nat := []
  /-- groups whose load is armed at the next APPLY mark (R298) -/
  armNext : List Nat := []
  /-- channels whose outputs have resumed: no condition of Table 11.3 since the boundary at which they did (R304) -/
  on : List Nat := []
  /-- `TRIP_IN` pins that are low -/
  pins : BitVec 8 := 0
  /-- local counter at the last deassertion of trip line k (key k) and of `TRIP_INn` (key 16 + n) (R303) -/
  offAt : List (Nat × Nat) := []
  deriving DecidableEq, Repr

/-- A comparator channel beside its registers. -/
structure CmpCh where
  /-- its latch was set at some time in the present period of REF_CH's group (R311) -/
  tripped : Bool := false
  /-- its setting was found invalid (R306) -/
  invalid : Bool := false
  deriving DecidableEq, Repr

/-- State of the comparators beside their registers. -/
structure CmpSt where
  chans : List (Nat × CmpCh) := []
  /-- in TOWPATH: the channels that watch; the others are powered down (R312) -/
  watch : Option (BitVec 64) := none
  deriving DecidableEq, Repr

/-! ### AUX -/

/-- An auxiliary drive beside its registers (R319 to R330). -/
structure DriveSt where
  /-- speed reference and ramp rate in force; ramped reference; speed PI integrator -/
  ref : F32 := 0
  ramp : F32 := 0
  ramped : F32 := 0
  integ : F32 := 0
  /-- stator flux, α and β -/
  psiA : F32 := 0
  psiB : F32 := 0
  /-- rotations of the flux in the last periods, newest first, at most 16 -/
  rots : List F32 := []
  /-- vector of the period in progress and its on-time in s; probe pair inserted before it -/
  vec : Nat := 0
  ton : Rat := 0
  probe : Option Nat := none
  /-- flux demand; torque demand −1, 0, 1 -/
  dpsi : Bool := false
  dtq : Int := 0
  /-- excess E of an opened window, s, and its vector (R324) -/
  excess : Option (Nat × Rat) := none
  /-- latest usable sample per phase: value and age in periods (R323) -/
  cur : List (Nat × (F32 × Nat)) := []
  iA : F32 := 0
  iB : F32 := 0
  /-- consecutive decisions with a loss condition; consecutive periods at or below STOP_SPEED -/
  loss : Nat := 0
  slow : Nat := 0
  /-- catching: consecutive sets below CATCH_I_MIN; current vector of the set before; pairs that disagree in a row -/
  low : Nat := 0
  prevSet : Option (F32 × F32) := none
  disagree : Nat := 0
  /-- source of the fault it is in (R326) -/
  fault : Nat := 0
  /-- coasting after a loss: it catches again (R330) -/
  recatch : Bool := false
  /-- V_bus has reached VBUS_HI (R327) -/
  busCut : Bool := false
  /-- AUX_DECEL_LIMITED queued for this deceleration -/
  told : Bool := false
  /-- local counter at the last change of state -/
  since : Nat := 0
  /-- state, flux, ramped reference and integrator to adopt from a heartbeat (R367) -/
  adopt : Option (Nat × F32 × F32 × F32 × F32) := none
  deriving DecidableEq, Repr

/-- The drives. -/
structure AuxSt where
  drives : List (Nat × DriveSt) := []
  /-- `AUX_FLT_Nd` pins that are low -/
  pins : BitVec 4 := 0
  deriving DecidableEq, Repr

/-! ### SEC -/

/-- A challenge issued on a debug interface (R419). -/
structure Challenge where
  bytes : Bytes
  level : Nat
  /-- local counter at its issue -/
  since : Nat
  /-- not answered yet -/
  fresh : Bool
  deriving DecidableEq, Repr

/-- Fuses, the retained image, records and debug beside the registers (R404 to R422). -/
structure SecSt where
  /-- bits set, of 8, in the lifecycle rows that lead to OPEN, LOCKED and RETIRED (R405) -/
  rowOpen : Nat := 8
  rowLocked : Nat := 0
  rowRetired : Nat := 0
  /-- programmed owner slots and their key hashes; bits set in the revoke rows (R405, R409) -/
  slots : List (Nat × Bytes) := []
  revoke : List (Nat × Nat) := []
  /-- fuses set in the rollback counter -/
  counter : Nat := 0
  /-- the device signing key has been destroyed (R406) -/
  keyGone : Bool := false
  /-- index of the free value drawn as BOOT_ID at power-on reset (Table 9.7) -/
  bootTicket : Nat := 0
  /-- the applied image in its retained store, and its ROLLBACK (R412) -/
  image : Bytes := []
  /-- +1 per attestation record (Table 16.6) -/
  attestSeq : Word := 0
  attest : Option RecordJob := none
  /-- per debug interface, 0 PCIe and 1 JTAG: the latest challenge, failed responses (R419, R420) -/
  challenges : List (Nat × Challenge) := []
  fails : List (Nat × Nat) := []
  /-- a level above the default has been granted since boot (Table 16.6) -/
  raised : Bool := false
  /-- interface that halted the engine; breakpoint (R417, R422) -/
  haltBy : Nat := 0
  brk : Option Nat := none
  /-- balls driven by a boundary-scan instruction (R418) -/
  scan : Bool := false
  /-- words of the on-chip SRAM written by debug (R416, R422) -/
  sram : List (Nat × Word) := []
  /-- what DBG_ACCESS last read over JTAG, none where it was refused (R416) -/
  jtagData : Option Word := none
  /-- bytes of the latest exchange in the DBG_UNLOCK data register (R419) -/
  jtagOut : Bytes := []
  deriving DecidableEq, Repr

/-! ### What leaves the part -/

/-- What the controller has sent: writes to host memory, interrupts, barges, frames (newest first). -/
inductive Out where
  /-- bytes 16 to 23 (where written back) and 26 to 31 of the descriptor at `addr` (R92, R98) -/
  | writeBack (addr : Nat) (w : WriteBack)
  /-- its bytes 24 and 25, STATUS and WB_FLAGS, in a write of their own that follows (R98) -/
  | done (addr status flags : Nat)
  /-- word `ring` of the index block, at `addr` (R99) -/
  | indexWord (addr ring cons : Nat)
  /-- a record written at `addr`, entry `idx` of the event ring (R92, R113) -/
  | event (addr idx phase : Nat) (e : Event)
  /-- what a read over BAR0 at `addr` returns (R8) -/
  | readData (addr : Nat) (w : Word)
  | msix (vec : Nat)
  /-- a telemetry block in the buffer at `addr` (R107) -/
  | telemetry (addr : Nat) (block : Bytes)
  /-- a received frame in the buffer at `addr` (R111) -/
  | frameIn (addr : Nat) (frame : Bytes)
  /-- a signed record, or a challenge, in host memory (R265, R414, R419) -/
  | record (addr : Nat) (data : Bytes)
  /-- an Ethernet frame on a port, with its egress timestamp in 2^-16 ns -/
  | frameOut (port : Nat) (frame : Bytes) (egress : Int)
  /-- a PTP message of tracker `t` (R345): 1 Delay_Req, 2 Pdelay_Req, 3 Pdelay_Resp; sequence, correctionField -/
  | ptpOut (t port kind seq : Nat) (correction : Int)
  /-- a barge on a lane -/
  | barge (lane : Nat) (b : Barge)
  /-- a keep-alive frame on a towpath port, and the line levels that carry it, two to a bit time (R144) -/
  | keepAlive (port : Nat) (frame : Bytes) (line : List Bool)
  /-- a `SYNC_OUT` pulse at cycle `k` (R76) -/
  | syncOut (k : Nat)
  deriving DecidableEq, Repr

/-- The state of the controller. -/
structure State where
  regs : List (Nat × Word)
  sys : SysSt
  clk : ClkSt
  hst : HstSt
  flt : FltSt
  tsn : TsnSt
  red : RedSt
  cnl : CnlSt
  loop : LoopSt
  cell : MgrSt
  nrg : NrgSt
  mtr : MtrSt
  pwm : PwmSt
  cmp : CmpSt
  aux : AuxSt
  sec : SecSt
  out : List Out
  /-- the model's own counter: index of the next free value (log entry 5) -/
  free : Nat
  /-- commands waiting, first in first out -/
  pending : List Instr
  deriving DecidableEq, Repr

/-- The machine right after a power-on reset has been released at TR: every register at its reset value. -/
def State.reset : State where
  regs := []
  sys := {}
  clk := {}
  hst := {}
  flt := {}
  tsn := {}
  red := {}
  cnl := {}
  loop := {}
  cell := {}
  nrg := {}
  mtr := {}
  pwm := {}
  cmp := {}
  aux := {}
  sec := {}
  out := []
  free := 1
  pending := []

end Sys2Proof.Machine
end

