-- ==== Sys2Proof/Machine/Ops.lean ====
section
/-! DEFINITION. The operations every block shares: register fields, plant time, free values, host-memory
writes, interrupts, events. -/

set_option Elab.async false

namespace Sys2Proof.Machine

open Sys2Proof

/-! ### Registers -/

/-- The stored word of the register at a BAR0 offset. -/
def State.reg (s : State) (off : Nat) : Word := SMap.get regReset s.regs off

/-- The state with the register at `off` at `v`. -/
def State.setReg (s : State) (off : Nat) (v : Word) : State :=
  { s with regs := SMap.put regReset s.regs off v }

/-- Value of a field inside a register word. -/
def Fld.get (f : Fld) (w : Word) : Nat := (w.toNat / 2 ^ f.lsb) % 2 ^ f.width

/-- A register word with the field at `v`, taken modulo the field's width. -/
def Fld.put (f : Fld) (w : Word) (v : Nat) : Word :=
  BitVec.ofNat 32 (w.toNat / 2 ^ (f.lsb + f.width) * 2 ^ (f.lsb + f.width)
    + v % 2 ^ f.width * 2 ^ f.lsb + w.toNat % 2 ^ f.lsb)

/-- Value of a register field. -/
def State.rd (s : State) (f : Fld) : Nat := f.get (s.reg f.off)

/-- The state with a register field at `v`. -/
def State.wr (s : State) (f : Fld) (v : Nat) : State := s.setReg f.off (f.put (s.reg f.off) v)

/-- Is a one-bit field 1? -/
def State.is (s : State) (f : Fld) : Bool := s.rd f ≠ 0

/-- The state with a one-bit field at `b`. -/
def State.wrB (s : State) (f : Fld) (b : Bool) : State := s.wr f (if b then 1 else 0)

/-- Bit `i` of a field. -/
def State.bitOf (s : State) (f : Fld) (i : Nat) : Bool := (s.rd f).testBit i

/-- The state with bit `i` of a field at `b`. -/
def State.wrBit (s : State) (f : Fld) (i : Nat) (b : Bool) : State :=
  s.wr f (if b then s.rd f ||| 2 ^ i else s.rd f - (if (s.rd f).testBit i then 2 ^ i else 0))

/-- The state with a counter field advanced by `n`, saturating at all ones. -/
def State.incBy (s : State) (f : Fld) (n : Nat) : State := s.wr f (min (s.rd f + n) (2 ^ f.width - 1))

/-- The state with a counter field advanced by one, saturating at all ones. -/
def State.inc (s : State) (f : Fld) : State := s.incBy f 1

/-- A one-bit field at index `i` of a field of bits. -/
def Fld.bit (f : Fld) (i : Nat) : Fld := ⟨f.off, f.lsb + i, 1⟩

/-- The 32-bit value of a whole-register field. -/
def State.f32 (s : State) (f : Fld) : F32 := BitVec.ofNat 32 (s.rd f)

/-- Apply `f` to each of a list in order. -/
def each {α : Type} (xs : List α) (f : State → α → State) (s : State) : State := xs.foldl f s

/-- Conditional change. -/
def State.when (s : State) (b : Bool) (f : State → State) : State := if b then f s else s

/-! ### Free values -/

/-- A fresh free number below `2^w`, and the state that has used it (log entry 5). -/
def State.fresh (s : State) (w : Nat) : Nat × State :=
  (Config.freeNat s.free % 2 ^ w, { s with free := s.free + 1 })

/-! ### Time (R17, R340) -/

/-- Value of a correction at local counter `l`, in 2^-16 ns (R340). -/
def Corr.eval (c : Corr) (l : Nat) : Int :=
  2 * (l : Int) * 65536 + c.ofs + c.rate * (2 * (l : Int) - c.anchor) / 2 ^ 32

/-- Plant time in 2^-16 ns (R340). -/
def State.plantFrac (s : State) : Int := s.tsn.corr.eval s.tsn.local_

/-- Plant time in whole ns, as the 64-bit value that records carry (R339, R340). -/
def State.plantNs (s : State) : Nat := ux 64 (s.plantFrac / 65536)

/-- First tick of the local counter at which a correction reaches `m` (2^-16 ns). -/
def Corr.firstTick (c : Corr) (m : Int) : Nat :=
  let den := 2 * (2 ^ 48 + c.rate)
  let num := (m - c.ofs) * 2 ^ 32 + c.rate * c.anchor
  ((num + den - 1) / den).toNat

/-- The state with the local counter moved on to plant time `m` ns, if it lies ahead (log entry 6). -/
def State.advanceTo (s : State) (m : Int) : State :=
  { s with tsn := { s.tsn with local_ := max s.tsn.local_ (s.tsn.corr.firstTick (m * 65536)) } }

/-- The state with the local counter moved on by `n` ns. -/
def State.advanceBy (s : State) (n : Nat) : State :=
  { s with tsn := { s.tsn with local_ := s.tsn.local_ + (n + 1) / 2 } }

/-- The state with the local counter moved on to tick `t`, if it lies ahead (log entry 6). -/
def State.advanceByTicks (s : State) (t : Nat) : State :=
  { s with tsn := { s.tsn with local_ := max s.tsn.local_ t } }

/-- Cycle period in force, in ns (Table 1.6). -/
def State.periodNs (s : State) : Nat := s.rd R.SYS_CYCLE_NOW_PERIOD * 10

/-- Corrected time in ns of SAMPLE mark `k` (R17, R27). -/
def State.markTime (s : State) (k : Nat) : Int :=
  s.sys.epoch + ((k : Int) - (s.sys.epochK : Int)) * (s.periodNs : Int)

/-! ### Mode axes as values -/

/-- Power state shown in `SYS_PWR_STAT.STATE` (Table 3.19); OFF when held in reset by R82. -/
def State.power (s : State) : Power :=
  if s.sys.boot = .off then .off
  else match s.rd R.SYS_PWR_STAT_STATE with
    | 1 => .run
    | 2 => .hold
    | 3 => .towpath
    | _ => .boot

/-- Does the power state generate marks (R22)? -/
def State.marksRun (s : State) : Bool := decide (s.power = .run) || decide (s.power = .hold)

/-- Is plant time VALID? (R341) -/
def State.timeValid (s : State) : Bool := s.is R.TSN_TIME_STAT_VALID

/-- Full count of the last point of the mark grid (R17). -/
def State.gridNow (s : State) : Nat :=
  ((s.sys.epochK : Int) + (s.plantFrac / 65536 - s.sys.epoch) / (s.periodNs : Int)).toNat

/-- Full count of the current cycle: that of the last SAMPLE mark; where no marks run, that of the last point of the
grid, since the cycle number keeps advancing (R17, R22). -/
def State.cycleNow (s : State) : Nat := if s.marksRun then s.sys.k else max s.sys.k s.gridNow

/-- Cycle number of the current cycle (R17). -/
def State.cycleNum (s : State) : Nat := s.cycleNow % 65536

/-- Encoding of a power state (Tables 3.18 and 3.19). -/
def Power.code : Power → Nat
  | .boot => 0 | .run => 1 | .hold => 2 | .towpath => 3 | .off => 4

/-- Power state of a REQ encoding (Table 3.18). -/
def Power.ofReq : Nat → Option Power
  | 1 => some .run | 2 => some .hold | 3 => some .towpath | 4 => some .off | _ => none

/-- Is safety SAFE? (Table 15.11) -/
def State.isSafe (s : State) : Bool := s.rd R.FLT_STAT_SAFETY = 2

/-- Roles (Table 14.13). -/
inductive Role where
  | solo | active | standby
  deriving DecidableEq, Repr

/-- The seat's role (R357): SOLO when not PAIRED, ACTIVE while the gate is open, STANDBY otherwise. -/
def State.role (s : State) : Role :=
  if !s.is R.RED_CTL_PAIRED then .solo else if s.rd R.RED_STAT_CLAIM = 2 then .active else .standby

/-- Is the gate open? (R357, R359) In SOLO the gate is open while `CLAIM_N` is asserted and the partner's line is not.
-/
def State.gateOpen (s : State) : Bool := s.rd R.RED_STAT_CLAIM = 2

/-- Is the part a KZT-6192 (Table 0.1)? -/
def State.isFull (s : State) : Bool := s.rd R.SYS_ID_PART = 0x6192

/-- Pounds the part has fused on (Table 0.1). -/
def State.poundCount (s : State) : Nat := if s.isFull then 12 else 6

/-- Pounds fused on, in order. -/
def State.poundList (s : State) : List Nat := List.range s.poundCount

/-- Phase leg of a pound: 0 A, 1 B, 2 C (Table 0.1). -/
def State.legOf (s : State) (n : Nat) : Nat := if s.isFull then n / 4 else n / 2

/-! ### DMA, interrupts, the index block -/

/-- Can the controller issue DMA? (R87) -/
def State.canDma (s : State) : Bool :=
  s.hst.perstHigh && s.hst.linkUp && s.hst.inD0 && s.hst.busMaster

/-- The state with one more thing sent. -/
def State.emit (s : State) (o : Out) : State := { s with out := o :: s.out }

/-- The MSI-X table as reset by the PCI Express specification: every vector masked (R87). -/
def msixReset (off : Nat) : Word := if off % 16 = 12 then 1 else 0

/-- Is vector `v` masked in the MSI-X table? -/
def State.masked (s : State) (v : Nat) : Bool :=
  (SMap.get msixReset s.hst.msixTable (0x80000 + 16 * v + 12)).getLsbD 0

/-- May vector `v` be sent now: MSI-X Enable, no Function Mask, the vector unmasked, DMA (R87, R116)? -/
def State.maySend (s : State) (v : Nat) : Bool :=
  s.hst.msixEnable && !s.hst.msixMask && !s.masked v && s.canDma

/-- Signal an MSI-X vector: sent, or left pending under a mask or while no DMA can be issued (R116). -/
def State.sendVec (s : State) (v : Nat) : State :=
  if s.maySend v then s.emit (.msix v)
  else { s with hst := { s.hst with msixPending := s.hst.msixPending ||| (1 <<< v) } }

/-- Ring state beside its registers. -/
def State.ring (s : State) (r : Nat) : RingSt := SMap.get (fun _ => {}) s.hst.rings r

/-- The state with ring `r` changed. -/
def State.modRing (s : State) (r : Nat) (f : RingSt → RingSt) : State :=
  { s with hst := { s.hst with rings := SMap.put (fun _ => {}) s.hst.rings r (f (s.ring r)) } }

/-- Is ring `r` enabled and not halted? -/
def State.ringRuns (s : State) (r : Nat) : Bool :=
  s.is (R.HST_RING_CTL_ENABLE r) && !s.is (R.HST_RING_STATE_HALTED r)

/-- Entries of ring `r` (R92). -/
def State.ringSize (s : State) (r : Nat) : Nat := 2 ^ s.rd (R.HST_RING_CTL_SIZE_LOG2 r)

/-- Address of word `r` of the index block (R99). -/
def State.indexAddr (s : State) (r : Nat) : Nat :=
  s.rd R.HST_IDX_BASE_HI_ADDR * 2 ^ 32 + s.rd R.HST_IDX_BASE_LO_ADDR * 128 + 4 * r

/-- Rewrite word `r` of the index block, when kept; while no DMA can be issued the rewrite waits (R87, R99). -/
def State.indexWord (s : State) (r : Nat) : State :=
  if !s.is R.HST_IDX_BASE_LO_EN then s
  else if s.canDma then s.emit (.indexWord (s.indexAddr r) r (s.rd (R.HST_RING_STAT_CONS r)))
  else { s with hst := { s.hst with idxDirty := s.hst.idxDirty ||| BitVec.ofNat 23 (2 ^ r) } }

/-- Every word of the index block is written: it starts, or moves to another address (R99). -/
def State.indexAll (s : State) : State := each (List.range 23) State.indexWord s

/-- The words whose rewrite waited, once DMA can be issued (R99). -/
def State.flushIndex (s : State) : State :=
  if !s.canDma || decide (s.hst.idxDirty = 0) then s
  else
    let late := (List.range 23).filter fun r => s.hst.idxDirty.getLsbD r
    each late State.indexWord { s with hst := { s.hst with idxDirty := 0 } }

/-- Address of entry `i` of ring `r` (R92). -/
def State.entryAddr (s : State) (r i : Nat) : Nat :=
  s.rd (R.HST_RING_BASE_HI_ADDR r) * 2 ^ 32 + s.rd (R.HST_RING_BASE_LO_ADDR r) * 4096 + 32 * (i % s.ringSize r)

/-- Send the message of ring `r` for what has gathered (R116). -/
def State.ringMessage (s : State) (r : Nat) : State :=
  (s.modRing r fun g => { g with gathered := 0 }).sendVec (s.rd (R.HST_RING_CTL_VEC r))

/-- One more completion or record of ring `r`: signal at COUNT or at once (R116). -/
def State.gather (s : State) (r : Nat) (now : Bool) : State :=
  let s := s.modRing r fun g => { g with gathered := g.gathered + 1 }
  if now || s.rd (R.HST_RING_IRQ_COUNT r) ≤ (s.ring r).gathered then s.ringMessage r else s

/-- Issue a write-back: the descriptor's bytes, DONE with STATUS last, then CONS, the index word, the interrupt (R98,
R99, R117). -/
def State.issueWb (s : State) (w : WriteBack) : State :=
  let a := s.entryAddr w.ring w.idx
  let s := (s.emit (.writeBack a w)).emit (.done a w.status w.wbFlags)
  let s := s.wr (R.HST_RING_STAT_CONS w.ring) (w.idx + 1)
  (s.indexWord w.ring).gather w.ring w.irqNow

/-- Are the write-backs of ring `r` dropped: disabled by a cause of R87, or halted (R95)? -/
def State.dropsWb (s : State) (r : Nat) : Bool := (s.ring r).dropWb || s.is (R.HST_RING_STATE_HALTED r)

/-- Write back a completion: issued, held while no DMA can be issued, or dropped with its ring (R87, R95). -/
def State.writeBack (s : State) (w : WriteBack) : State :=
  if s.dropsWb w.ring then s
  else if s.canDma && s.hst.heldWb.isEmpty then s.issueWb w
  else { s with hst := { s.hst with heldWb := s.hst.heldWb ++ [w] } }

/-- Issue the held write-backs in order, once DMA can be issued (R87). -/
def State.flushWb (s : State) : State :=
  if s.canDma then
    each s.hst.heldWb (fun s w => if s.dropsWb w.ring then s else s.issueWb w)
      { s with hst := { s.hst with heldWb := [] } }
  else s

/-! ### Events (R112 to R114) -/

/-- Index of the event ring (Table 4.3). -/
def evtq : Nat := 12

/-- Can an event record be written now? (R94, R114) -/
def State.evtqReady (s : State) : Bool :=
  s.ringRuns evtq && s.canDma &&
    (s.rd (R.HST_RING_STAT_CONS evtq) + 65536 - s.rd (R.HST_RING_STAT_PROD evtq)) % 65536 < s.ringSize evtq

/-- Write one record at the event ring's next entry (R113). -/
def State.writeEvent (s : State) (e : Event) : State :=
  let c := s.rd (R.HST_RING_STAT_CONS evtq)
  let phase := if (c / s.ringSize evtq) % 2 = 0 then 1 else 0
  let s := s.emit (.event (s.entryAddr evtq c) c phase e)
  let s := s.wr (R.HST_RING_STAT_CONS evtq) (c + 1)
  (s.indexWord evtq).gather evtq false

/-- Is this the EVENTS_LOST record? (Table 4.15) -/
def eventIsLost (e : Event) : Bool := e.cls = 0 && e.code = 3

/-- Records held, EVENTS_LOST not counted (R114). -/
def State.heldCount (s : State) : Nat := (s.hst.store.filter fun e => !eventIsLost e).length

/-- The next SEQ, and the state that has taken it. -/
def State.takeSeq (s : State) : Nat × State :=
  (s.hst.evSeq.toNat, { s with hst := { s.hst with evSeq := s.hst.evSeq + 1 } })

/-- Place a record that is not lost: written at once, or held behind others (R114). -/
def State.placeEvent (s : State) (e : Event) : State :=
  if s.hst.store.isEmpty && s.evtqReady then s.writeEvent e
  else { s with hst := { s.hst with store := s.hst.store ++ [e] } }

/-- Place the open EVENTS_LOST record, which takes the next SEQ at that moment (R114). -/
def State.placeLost (s : State) : State :=
  match s.hst.lossOpen with
  | none => s
  | some n =>
    let (q, s) := s.takeSeq
    let s := { s with hst := { s.hst with lossOpen := none } }
    s.placeEvent ⟨0, 3, s.cycleNum, q, s.plantNs, layBytes 16 [(0, 4, n)]⟩

/-- `HST_EVT_STAT.HELD` made to agree with the store. -/
def State.showHeld (s : State) : State := s.wr R.HST_EVT_STAT_HELD s.heldCount

/-- Queue an event of class `cls` and code `code`; `pay` gives its payload fields by record byte (16 to 31). -/
def State.event (s : State) (cls code : Nat) (pay : List (Nat × Nat × Nat)) : State :=
  let body := layBytes 16 (pay.map fun (o, n, v) => (o - 16, n, v))
  if 64 ≤ s.heldCount then
    let (_, s) := s.takeSeq
    let s := { s with hst := { s.hst with lossOpen := some (s.hst.lossOpen.getD 0 + 1) } }
    s.inc R.HST_EVT_STAT_LOST
  else
    let s := s.placeLost
    let (q, s) := s.takeSeq
    (s.placeEvent ⟨cls, code, s.cycleNum, q, s.plantNs, body⟩).showHeld

/-- Write held records in SEQ order while the ring takes them, at most `n` (R114). -/
def State.drainStore (s : State) : Nat → State
  | 0 => s
  | n + 1 =>
    match s.hst.store with
    | [] => s
    | e :: t =>
      if s.evtqReady then
        State.drainStore (({ s with hst := { s.hst with store := t } }).writeEvent e) n
      else s

end Sys2Proof.Machine
end

