-- ==== Sys2Proof/Machine/Faults.lean ====
section
/-! DEFINITION. The fault collector: source classes, latching, the log, the first-error capture, shadowing
and the interrupt (R384 to R394). A reaction that a latch calls for is queued in `flt.due`; it runs
at the end of the same command (Machine/Settle.lean). -/

set_option Elab.async false

namespace Sys2Proof.Machine

open Sys2Proof

/-- Class of a source: 0 CORRECTED, 1 CONTAINED, 2 FATAL; none for a reserved source (Tables 15.1 and 16.12). -/
def sourceClass (n : Nat) : Option Nat :=
  if n ≤ 0x002 then some 0
  else if n ≤ 0x004 then some 1
  else if n ≤ 0x007 then some 0
  else if n = 0x008 then some 2
  else if n = 0x009 then some 0
  else if n = 0x00A then some 1
  else if n ≤ 0x00C then some 0
  else if n = 0x00D then some 1
  else if n = 0x020 then some 0
  else if n = 0x021 then some 1
  else if 0x022 ≤ n ∧ n ≤ 0x023 then some 0
  else if n = 0x024 then some 1
  else if 0x025 ≤ n ∧ n ≤ 0x027 then some 0
  else if n = 0x028 then some 1
  else if 0x03C ≤ n ∧ n ≤ 0x03D then some 0
  else if 0x03E ≤ n ∧ n ≤ 0x03F then some 1
  else if 0x040 ≤ n ∧ n ≤ 0x043 then some 0
  else if 0x044 ≤ n ∧ n ≤ 0x046 then some 1
  else if 0x047 ≤ n ∧ n ≤ 0x048 then some 2
  else if 0x060 ≤ n ∧ n ≤ 0x062 then some 0
  else if 0x063 ≤ n ∧ n ≤ 0x064 then some 1
  else if 0x080 ≤ n ∧ n ≤ 0x081 then some 1
  else if 0x082 ≤ n ∧ n ≤ 0x085 then some 0
  else if 0x0A0 ≤ n ∧ n ≤ 0x0A2 then some 0
  else if 0x0C0 ≤ n ∧ n ≤ 0x0C3 then some 0
  else if 0x0E0 ≤ n ∧ n ≤ 0x0E1 then some 0
  else if 0x0E2 ≤ n ∧ n ≤ 0x0E3 then some 1
  else if 0x100 ≤ n ∧ n ≤ 0x101 then some 1
  else if n = 0x102 then some 0
  else if n = 0x120 then some 1
  else if 0x121 ≤ n ∧ n ≤ 0x123 then some 0
  else if 0x140 ≤ n ∧ n ≤ 0x145 then some 1
  else if 0x146 ≤ n ∧ n ≤ 0x148 then some 0
  else if n = 0x160 then some 1
  else if n = 0x161 then some 2
  else if n = 0x162 then some 0
  else if 0x180 ≤ n ∧ n ≤ 0x181 then some 0
  else if n = 0x182 then some 1
  else if 0x183 ≤ n ∧ n ≤ 0x186 then some 0
  else if n = 0x187 then some 1
  else if n = 0x188 then some 2
  else if n = 0x1A0 then some 1
  else if 0x1A1 ≤ n ∧ n ≤ 0x1A2 then some 0
  else if n = 0x1A3 then some 2
  else if 0x1A4 ≤ n ∧ n ≤ 0x1A9 then some 1
  else none

/-- Is LATCH of source `n` set? -/
def State.latched (s : State) (n : Nat) : Bool := s.bitOf (R.FLT_LATCH (n / 32)) (n % 32)

/-- The state with LATCH of source `n` at `b`. -/
def State.setLatch (s : State) (n : Nat) (b : Bool) : State := s.wrBit (R.FLT_LATCH (n / 32)) (n % 32) b

/-- Is ACTIVE of source `n` set? -/
def State.active (s : State) (n : Nat) : Bool := s.bitOf (R.FLT_ACTIVE (n / 32)) (n % 32)

/-- The state with ACTIVE of source `n` at `b`. -/
def State.setActive (s : State) (n : Nat) (b : Bool) : State := s.wrBit (R.FLT_ACTIVE (n / 32)) (n % 32) b

/-- Every source number, in order. -/
def allSources : List Nat := List.range 512

/-- Blocks a reaction may reset (Table 15.3). -/
def resettable (b : Nat) : Bool := 1 ≤ b && b ≤ 10

/-- What a fault carries beside its source and instance (Table 15.4). -/
structure FaultInfo where
  addr : Nat := 0
  master : Nat := 0xF
  access : Nat := 0
  flags : BitVec 8 := 0
  cause : Nat := 0
  value : F32 := 0
  count : Nat := 1
  bitmap : BitVec 192 := 0
  deriving DecidableEq, Repr

/-- Can the seat hand its claim over as a reaction? (R389) -/
def State.switchReady (s : State) : Bool :=
  s.is R.RED_STAT_LINK_UP && s.is R.RED_PARTNER_VALID && s.is R.RED_PARTNER_TAKE_READY

/-- Actions taken for source `n`, in the bits of REACTION (Table 15.5), and whether SWITCH was not taken (R388, R389).
-/
def State.actionsOf (s : State) (n : Nat) : BitVec 8 × Bool :=
  let cls := (sourceClass n).getD 0
  let irq := s.is (R.FLT_REACT_IRQ n) || decide (1 ≤ cls)
  let deg := s.is (R.FLT_REACT_DEGRADE n)
  let rst := s.is (R.FLT_REACT_BLK_RST n) && resettable (n / 32)
  let sw := s.is (R.FLT_REACT_SWITCH n)
  let taken := sw && decide (s.role = .active) && s.switchReady
  let hold := s.is (R.FLT_REACT_HOLD n) || (sw && !taken && decide (s.role ≠ .standby))
  let safe := s.is (R.FLT_REACT_SAFE n) || decide (cls = 2)
  let bit (b : Bool) (i : Nat) : BitVec 8 := if b then BitVec.ofNat 8 (2 ^ i) else 0
  (bit irq 0 ||| bit deg 1 ||| bit rst 2 ||| bit hold 3 ||| bit taken 4 ||| bit safe 5, sw && !taken)

/-- Log entry `i`. -/
def State.logAt (s : State) (i : Nat) : Option LogEntry :=
  (s.flt.log.find? fun p => p.1 = i).map (·.2)

/-- The state with log entry `i` written. -/
def State.setLog (s : State) (i : Nat) (e : LogEntry) : State :=
  { s with flt := { s.flt with log := SMap.ins s.flt.log i e } }

/-- The state with log entry `i` changed, if it is in use. -/
def State.modLog (s : State) (i : Nat) (f : LogEntry → LogEntry) : State :=
  match s.logAt i with
  | none => s
  | some e => s.setLog i (f e)

/-- May entry `i` not be overwritten? (R393) -/
def State.logPinned (s : State) (i : Nat) : Bool :=
  (s.is R.FLT_FIRST0_VALID && decide (s.rd R.FLT_FIRST6_ENTRY = i)) || s.flt.windows.any (fun w => w.entry = i)

/-- The oldest unpinned entry that satisfies `p`. -/
def State.oldestLog (s : State) (p : LogEntry → Bool) : Option Nat :=
  (s.flt.log.foldl (fun best (i, e) =>
    if p e && !s.logPinned i then
      (match best with
      | some (_, q) => if e.seq < q then some (i, e.seq) else best
      | none => some (i, e.seq))
    else best) none).map (·.1)

/-- Is the entry marked CLEARED? -/
def LogEntry.cleared (e : LogEntry) : Bool := e.flags.getLsbD 3

/-- The entry a new record takes (R393). -/
def State.freeLog (s : State) : Option Nat :=
  if s.flt.used < 256 then some s.flt.used
  else match s.oldestLog LogEntry.cleared with
    | some i => some i
    | none => s.oldestLog fun e => e.cls = 0

/-- LOG_USED made to agree with the log. -/
def State.showLog (s : State) : State :=
  s.wr R.FLT_STAT_LOG_USED ((s.flt.log.filter fun (_, e) => !e.cleared).length)

/-- Write a log entry: its number, if the log took it (R393). SEQ advances by one per entry written. -/
def State.writeLog (s : State) (e : LogEntry) : Option Nat × State :=
  match s.freeLog with
  | none =>
    (none, { s.inc R.FLT_CNT_LOG_LOST with flt := { s.flt with overflow := true } })
  | some i =>
    let s := { s with flt := { s.flt with seq := s.flt.seq + 1, used := max s.flt.used (min 256 (i + 1)) } }
    let s := s.setLog i { e with seq := s.flt.seq }
    (some i, (s.wr R.FLT_STAT_LOG_HEAD i).showLog)

/-- Take the capture for an entry (R392). -/
def State.takeCapture (s : State) (i : Nat) (e : LogEntry) : State :=
  let s := s.setReg R.FLT_FIRST0_VALID.off 0
  let s := ((((s.wrB R.FLT_FIRST0_VALID true).wrB R.FLT_FIRST0_PROVISIONAL true).wr R.FLT_FIRST0_CLASS e.cls).wr
    R.FLT_FIRST0_SOURCE e.source).wr R.FLT_FIRST0_INSTANCE e.inst
  let s := (s.wr R.FLT_FIRST1 e.addr).wr R.FLT_FIRST2 (e.addr / 2 ^ 32)
  let s := ((s.wr R.FLT_FIRST3_CYCLE e.cycle).wr R.FLT_FIRST3_ACCESS e.access).wr R.FLT_FIRST3_MASTER e.master
  let s := (s.wr R.FLT_FIRST4 e.time).wr R.FLT_FIRST5 (e.time / 2 ^ 32)
  let s := s.wr R.FLT_FIRST6_ENTRY i
  { s with flt := { s.flt with capCycle := s.sys.k } }

/-- The capture rule at a latch (R392): the first fault, or a higher class in the same window. -/
def State.capture (s : State) (i : Nat) (e : LogEntry) : State :=
  if !s.is R.FLT_FIRST0_VALID then s.takeCapture i e
  else if s.is R.FLT_FIRST0_PROVISIONAL && decide (s.flt.capCycle = s.sys.k)
      && decide (s.rd R.FLT_FIRST0_CLASS < e.cls) then s.takeCapture i e
  else s

/-- The interrupt of a log entry whose REACTION has IRQ (R394). -/
def State.faultIrq (s : State) (acts : BitVec 8) : State :=
  if acts.getLsbD 0 then
    if s.is R.FLT_STAT_IRQ_PEND then s else (s.wrB R.FLT_STAT_IRQ_PEND true).sendVec 0
  else s

/-- Sources whose entries carry an ADDRESS; it is 0 for every other (R392). -/
def hasAddress (n : Nat) : Bool := [0x000, 0x001, 0x002, 0x009, 0x00A, 0x00B].contains n

/-- The log entry of an assertion. -/
def State.entryOf (s : State) (n inst : Nat) (i : FaultInfo) (acts : BitVec 8) (notTaken : Bool) : LogEntry :=
  { source := n, cls := (sourceClass n).getD 0
    flags := i.flags ||| (if notTaken then 0x40 else 0) ||| (if s.flt.broken.contains n then 4 else 0) ||| (if s.is R.TSN_TIME_STAT_VALID then 0 else 0x80)
    inst := inst % 65536, cycle := s.cycleNum, time := s.plantNs, addr := if hasAddress n then i.addr else 0, master := i.master, access := i.access
    reaction := acts, count := i.count, cause := i.cause, bitmap := i.bitmap, lastCycle := s.cycleNum, seq := 0
    value := i.value }

/-- FAULT_RAISED for an entry (Table 15.9). -/
def State.faultRaised (s : State) (i : Nat) (e : LogEntry) : State :=
  s.event 0xB 1 [(16, 2, e.source), (18, 1, e.cls), (19, 1, e.flags.toNat), (20, 2, e.inst), (22, 1, i),
    (23, 1, e.reaction.toNat)]

/-- Write an entry, queue its event, then send the message: the order of R390. -/
def State.logFault (s : State) (e : LogEntry) : Option Nat × State :=
  match s.writeLog e with
  | (none, s) => (none, s.faultIrq e.reaction)
  | (some i, s) => (some i, (s.faultRaised i e).faultIrq e.reaction)

/-- Is source `n` shadowed by a window now open? (R391) -/
def Shadow.covers (w : Shadow) (n : Nat) : Bool :=
  w.blocks.getLsbD (n / 32) && decide ((sourceClass n) ≠ some 2)
    && decide (n / 32 ≠ 0 ∧ n / 32 ≠ 0xB ∧ n / 32 ≠ 0xD)

/-- An assertion of a shadowed source: counted, and remembered for the end of the window (R391). -/
def State.suppress (s : State) (n inst : Nat) : State :=
  let bs := (s.flt.shadows.filter fun w => w.covers n).map (·.block)
  let s := each bs (fun s b => s.inc (R.FLT_SHADOW_CNT_SUPPRESSED b)) s
  let add (w : Shadow) : Shadow := { w with hits := w.hits ++ [(n, inst, s.active n)] }
  { s with flt := { s.flt with shadows := s.flt.shadows.map fun w => if w.covers n = true then add w else w } }

/-- Entries logged for source `n` since its last clear. -/
def State.loggedOf (s : State) (n : Nat) : Nat := SMap.get (fun _ => 0) s.flt.logged n

/-- The state with one more entry counted for source `n`. -/
def State.countLogged (s : State) (n inst : Nat) : State :=
  { s with flt := { s.flt with
      logged := SMap.put (fun _ => 0) s.flt.logged n (s.loggedOf n + 1)
      lastInst := SMap.put (fun _ => 0) s.flt.lastInst n (inst + 1) } }

/-- The latching assertion of a source: LATCH, log, capture, reaction (R387, R388, R392). -/
def State.latchFault (s : State) (n inst : Nat) (i : FaultInfo) : State :=
  let (acts, notTaken) := s.actionsOf n
  let e := s.entryOf n inst i acts notTaken
  let s := (s.setLatch n true).countLogged n inst
  let (j, s) := s.logFault e
  let s := match j with
    | some j => s.capture j { e with seq := s.flt.seq }
    | none => s
  { s with flt := { s.flt with due := s.flt.due ++ [⟨n, inst, acts⟩] } }

/-- A later assertion while LATCH is set: logged up to 8 times, else counted; no reaction but the interrupt (R387). -/
def State.repeatFault (s : State) (n inst : Nat) (i : FaultInfo) : State :=
  if 8 ≤ s.loggedOf n then s.inc R.FLT_CNT_REPEAT
  else
    let acts := (s.actionsOf n).1 &&& 1
    ((s.countLogged n inst).logFault (s.entryOf n inst i acts false)).2

/-- An assertion of source `n` with instance `inst` (R387, R391). A reserved source never asserts. -/
def State.raiseWith (s : State) (n inst : Nat) (i : FaultInfo) : State :=
  match sourceClass n with
  | none => s
  | some _ =>
    if s.flt.shadows.any (fun w => w.covers n) && decide (n ≠ 0x160) then s.suppress n inst
    else if s.latched n then s.repeatFault n inst i
    else s.latchFault n inst i

/-- An assertion with nothing but its instance. -/
def State.raise (s : State) (n inst : Nat) : State := s.raiseWith n inst {}

end Sys2Proof.Machine
end

