-- ==== Sys2Proof/Machine/Wire.lean ====
section
/-! DEFINITION. Sending on lanes and on the lock-link: barge headers, sequence numbers, CRC (R150 to R153,
R178, R365, R366), and the lane and pound state accessors. -/

set_option Elab.async false

namespace Sys2Proof.Machine

open Sys2Proof

/-- Lane state beside its registers. -/
def State.lane (s : State) (n : Nat) : LaneSt := SMap.get (fun _ => {}) s.cnl.lanes n

/-- The state with lane `n` changed. -/
def State.modLane (s : State) (n : Nat) (f : LaneSt → LaneSt) : State :=
  { s with cnl := { s.cnl with lanes := SMap.put (fun _ => {}) s.cnl.lanes n (f (s.lane n)) } }

/-- Pound state beside its registers. -/
def State.pound (s : State) (n : Nat) : PoundSt := SMap.get (fun _ => {}) s.cnl.pounds n

/-- The state with pound `n` changed. -/
def State.modPound (s : State) (n : Nat) (f : PoundSt → PoundSt) : State :=
  { s with cnl := { s.cnl with pounds := SMap.put (fun _ => {}) s.cnl.pounds n (f (s.pound n)) } }

/-- What is known of cell `g` over the Canal. -/
def State.link (s : State) (g : Nat) : LinkSt := SMap.get (fun _ => {}) s.cnl.links g

/-- The state with cell `g`'s link changed. -/
def State.modLink (s : State) (g : Nat) (f : LinkSt → LinkSt) : State :=
  { s with cnl := { s.cnl with links := SMap.put (fun _ => {}) s.cnl.links g (f (s.link g)) } }

/-- Towpath port state beside its registers. -/
def State.port (s : State) (p : Nat) : PortSt := SMap.get (fun _ => {}) s.cnl.ports p

/-- The state with towpath port `p` changed. -/
def State.modPort (s : State) (p : Nat) (f : PortSt → PortSt) : State :=
  { s with cnl := { s.cnl with ports := SMap.put (fun _ => {}) s.cnl.ports p (f (s.port p)) } }

/-- Lane training states (Table 5.2). -/
inductive LaneState where
  | off | detect | align | enum | step | running | absent
  deriving DecidableEq, Repr

/-- STATE encoding (Table 5.2). -/
def LaneState.code : LaneState → Nat
  | .off => 0 | .detect => 1 | .align => 2 | .enum => 3 | .step => 4 | .running => 5 | .absent => 6

/-- Training state of lane `n`. -/
def State.laneState (s : State) (n : Nat) : LaneState :=
  match s.rd (R.CNL_LANE_STAT_STATE n) with
  | 1 => .detect | 2 => .align | 3 => .enum | 4 => .step | 5 => .running | 6 => .absent | _ => .off

/-- The state with lane `n` in a training state. -/
def State.setLane (s : State) (n : Nat) (x : LaneState) : State := s.wr (R.CNL_LANE_STAT_STATE n) x.code

/-- Is lane `n` RUNNING? -/
def State.runs (s : State) (n : Nat) : Bool := decide (s.laneState n = .running)

/-- Next SEQ of a barge type, and the state that has taken it (Table 6.1). -/
def State.bargeSeq (s : State) (typ : Nat) : Nat × State :=
  let q := SMap.get (fun _ => 0) s.cnl.seqs typ
  (q, { s with cnl := { s.cnl with seqs := SMap.put (fun _ => 0) s.cnl.seqs typ ((q + 1) % 256) } })

/-- Seat bit of a controller barge: 0 seat A or SOLO, 1 seat B (R151). -/
def State.seatBit (s : State) : Nat :=
  if s.is R.RED_CTL_PAIRED && s.is R.SYS_STRAP_SEAT_SEL then 1 else 0

/-- Local ns at which lock-link lane `l` has sent everything it was given. -/
def State.laneFree (s : State) (l : Nat) : Nat := max (2 * s.tsn.local_) (SMap.get (fun _ => 0) s.cnl.busy l)

/-- Lock-link lane `l` has `n` more bytes to send, a byte taking 10 bits at its rate (R123, R366). Canal lanes are
told when to send by their windows. -/
def State.occupy (s : State) (l n : Nat) : State :=
  if l < 24 then s
  else
    { s with cnl := { s.cnl with
        busy := SMap.put (fun _ => 0) s.cnl.busy l (s.laneFree l + n * 2 ^ (3 - s.rd (R.CNL_LANE_STAT_RATE l))) } }

/-- Send a barge of the controller's own on a lane; `dir` is 1 toward the west end (R150, R151, R153). -/
def State.sendBarge (s : State) (lane typ position pound dir cycle : Nat) (payload : Bytes) : State :=
  let (q, s) := s.bargeSeq typ
  let b : Barge := { typ := typ, position := position, pound := pound, flags := dir + 8 * s.seatBit, hops := 0,
                     cycle := cycle % 65536, seq := q, length := payload.length / 4, payload := payload, crc := 0 }
  (s.occupy lane (payload.length + 14)).emit (.barge lane { b with crc := b.goodCrc })

/-- LENGTH of a barge type in words (Table 6.2). -/
def bargeWords (typ : Nat) : Nat :=
  if typ = 1 ∨ typ = 3 then 12 else if typ = 2 then 24 else if typ = 4 then 8 else 4

/-- A received barge of pound `p` before it is acted on: one with a bad CRC is discarded, and counted where the CRC is
an inverted one; one whose LENGTH is not that of its type is discarded and counted (R152, R153, R155). -/
def State.screen (s : State) (p : Nat) (b : Barge) (f : State → State) : State :=
  if b.crc ≠ b.goodCrc then
    if b.crc = ~~~b.goodCrc && decide (p < s.poundCount) then s.inc (R.CNL_POUND_ERR_STOMPED p) else s
  else if b.length ≠ bargeWords b.typ then { s with cnl := { s.cnl with malformed := s.cnl.malformed + 1 } }
  else f s

/-- RUNNING lock-link lanes, ascending (R366). -/
def State.linkLanes (s : State) : List Nat := [24, 25, 26, 27].filter fun n => s.runs n

/-- Lock-link lane for pound `n`: LL(n mod 4), or the next RUNNING one (R366). -/
def State.relayLane (s : State) (n : Nat) : Option Nat :=
  ([0, 1, 2, 3].map fun i => 24 + (n + i) % 4).find? fun l => s.runs l

/-- Send a lock-link message of kinds 0x3 to 0x7 on one lane (R365). -/
def State.sendKind (s : State) (lane kind cycle : Nat) (body : Bytes) : State :=
  s.sendBarge lane 0xB 0x1F 0 0 cycle ([BitVec.ofNat 8 kind, 0, 0, 0] ++ body)

/-- Send HEARTBEAT or NOTICE on every RUNNING lane (R366). -/
def State.sendAll (s : State) (kind cycle : Nat) (body : Bytes) : State :=
  each s.linkLanes (fun s l => s.sendKind l kind cycle body) s

/-- The RUNNING lock-link lane with the fewest bytes queued; the lowest of equal ones (R366, log entry 119). -/
def State.idlestLane (s : State) : Option Nat :=
  s.linkLanes.foldl (fun b l =>
    match b with
    | none => some l
    | some m => if s.laneFree l < s.laneFree m then some l else some m) none

/-- Send COPY, MIRROR or HEALTH on one RUNNING lane (R366). -/
def State.sendOne (s : State) (kind cycle : Nat) (body : Bytes) : State :=
  match s.idlestLane with
  | none => s
  | some l => s.sendKind l kind cycle body

/-- Send a barge inside a RELAY barge to the partner, who transmits it (kind 0x2) or takes it (kind 0x1) (R168, R178).
-/
def State.sendRelay (s : State) (kind lane : Nat) (b : Barge) : State :=
  match s.relayLane b.pound with
  | none => s
  | some l =>
    let crc := b.goodCrc.toNat
    s.sendBarge l 0xB b.position b.pound 0 b.cycle
      ([BitVec.ofNat 8 kind, BitVec.ofNat 8 lane, 0, 0] ++ b.header ++ b.payload ++ layBytes 4 [(0, 4, crc)])

/-- NOTICE of a claim state and cause (Table 14.3). -/
def State.sendNotice (s : State) (claim cause cycle : Nat) : State :=
  s.sendAll 6 s.cycleNum (layBytes 4 [(0, 1, claim), (1, 1, cause), (2, 2, cycle % 65536)])

end Sys2Proof.Machine
end

