-- ==== Sys2Proof/Machine/Rings.lean ====
section
/-! DEFINITION. The path of a command through its ring: take-up, the ordered checks of R102, the
completion, the kept-command table, fences, and the refusals by mode of R427 and R428. -/

set_option Elab.async false

namespace Sys2Proof.Machine

open Sys2Proof

/-- Completion status codes (Table 4.7). -/
inductive Status where
  | ok | deferred | derated | energy | mode | auth | malformed | pending | busy
  deriving DecidableEq, Repr

/-- Encoding of a status (Table 4.7). -/
def Status.code : Status → Nat
  | .ok => 0 | .deferred => 1 | .derated => 2 | .energy => 3 | .mode => 4
  | .auth => 5 | .malformed => 6 | .pending => 7 | .busy => 8

/-- What a check decides: status, DETAIL, an EFFECT_CYCLE other than the next mark, the admitted value. -/
structure Verdict where
  status : Status
  detail : Nat := 0
  effect : Option Nat := none
  value : F32 := 0
  deriving DecidableEq, Repr

/-- OK. -/
def vOk : Verdict := { status := .ok }
/-- REJECTED_MODE with a DETAIL. -/
def vMode (d : Nat) : Verdict := { status := .mode, detail := d }
/-- MALFORMED with a DETAIL. -/
def vBad (d : Nat) : Verdict := { status := .malformed, detail := d }
/-- REJECTED_ENERGY with a DETAIL. -/
def vEnergy (d : Nat) : Verdict := { status := .energy, detail := d }
/-- BUSY with a DETAIL. -/
def vBusy (d : Nat) : Verdict := { status := .busy, detail := d }
/-- DEFERRED with a DETAIL. -/
def vDefer (d : Nat) : Verdict := { status := .deferred, detail := d }
/-- PENDING with a DETAIL. -/
def vPend (d : Nat) : Verdict := { status := .pending, detail := d }

/-- Is the outcome kept? (R103) -/
def Status.keeps (x : Status) : Bool := x = .deferred || x = .pending

/-- Is the outcome OK or DERATED? -/
def Status.done (x : Status) : Bool := x = .ok || x = .derated

/-- The cycle number of the next SAMPLE mark (R29). -/
def State.nextMark (s : State) : Nat := (s.cycleNow + 1) % 65536

/-- EFFECT_CYCLE of a verdict: 0 unless OK or DERATED (R100). -/
def State.effectOf (s : State) (v : Verdict) : Nat :=
  if v.status.done then v.effect.getD s.nextMark else 0

/-- Is the opcode mirrored to the standby? (R371) -/
def mirrored (op : Nat) : Bool := op = 2 || (0x10 ≤ op && op ≤ 0x6F)

/-- MIRROR of a command whose final outcome is OK or DERATED, sent by the holder of a pair (R371). -/
def State.mirror (s : State) (d : Desc) (v : Verdict) (effect : Nat) : State :=
  if decide (s.role = .active) && v.status.done && mirrored d.opcode.toNat then
    s.sendOne 7 s.cycleNum (d.bytes ++ layBytes 12 [(0, 1, v.status.code), (2, 2, v.detail), (4, 2, effect),
      (6, 2, s.hst.admitSeq.toNat), (8, 4, v.value.toNat)])
  else s

/-- ADMIT_SEQ advanced by one (R100). -/
def State.countAdmit (s : State) : State := { s with hst := { s.hst with admitSeq := s.hst.admitSeq + 1 } }


/-- Opcode of a kept command. -/
def Kept.op (e : Kept) : Nat := e.desc.opcode.toNat

/-- Kept commands of opcode `op`, oldest first. -/
def State.keptOf (s : State) (op : Nat) : List Kept := s.hst.kept.filter fun e => e.op = op

/-- Registers that show the kept table (Tables 4.10, 8.18, 8.25, 9.10). -/
def State.showKept (s : State) : State :=
  let s := s.wr R.HST_KEPT_COUNT s.hst.kept.length
  let s := s.wr R.NRG_STAT_DEFER_CNT (s.hst.kept.filter fun e => e.deferred).length
  let grid := (s.keptOf 0x10).filter fun e => !e.deferred
  let s := s.wr R.CELL_STAT_PENDING (match grid.getLast? with | some e => 8 + e.desc.le 4 1 | none => 0)
  let s := s.wrB R.NRG_STAT_SLUICE_PEND ((s.keptOf 0x50).any fun e => !e.deferred)
  each s.poundList (fun s p => s.wrB (R.CELL_POUND_STAT_PENDING_EN p)
    ((s.keptOf 0x40).any fun e => !e.deferred && decide (e.desc.le 4 1 = p))) s

/-- What bytes 16 to 23 are written back with: frames, receive buffers and telemetry buffers only (R96). -/
def Desc.midBack (d : Desc) (mid : Nat) : Option Nat :=
  if [0xA0, 0xB0, 0xC0].contains d.opcode.toNat then some mid else none

/-- Write the first completion of a command (R29, R98, R100). -/
def State.complete (s : State) (ring idx : Nat) (d : Desc) (v : Verdict) : State :=
  let s := s.countAdmit
  let eff := s.effectOf v
  let s := if v.status = .busy then s.inc R.HST_KEPT_BUSY_CNT else s
  let s := s.writeBack { ring := ring, idx := idx, mid := Desc.midBack d 0, status := v.status.code,
                         wbFlags := 1 + (if v.status.keeps then 2 else 0), detail := v.detail,
                         data := eff + 65536 * s.hst.admitSeq.toNat, irqNow := d.irqNow }
  s.mirror d v eff

/-- The final outcome of a kept command: COMMAND_RESOLVED (R103, Table 4.15). -/
def State.resolve (s : State) (e : Kept) (v : Verdict) : State :=
  let s := { s with hst := { s.hst with kept := s.hst.kept.filter fun x => x.seq ≠ e.seq } }
  let s := s.showKept.countAdmit
  let eff := s.effectOf v
  let s := s.event 0 2 [(16, 1, e.ring), (17, 1, v.status.code), (18, 2, v.detail), (20, 2, e.desc.tag.toNat),
    (22, 2, e.idx), (24, 2, eff), (26, 2, s.hst.admitSeq.toNat)]
  s.mirror e.desc v eff

/-- Resolve every kept command that satisfies `p` (R103). -/
def State.resolveWhere (s : State) (p : Kept → Bool) (v : Verdict) : State :=
  each (s.hst.kept.filter p) (fun s e => s.resolve e v) s

/-- Resolve the kept commands that a newly admitted one supersedes (R103). -/
def State.supersede (s : State) (p : Kept → Bool) : State := s.resolveWhere p (vMode 1)

/-! ### Mode refusals (R427, R428) -/

/-- SAFE column of Table 17.3; `lim` tells whether the command asks for what the column still lets through. -/
def safeRefuses (op : Nat) (lim : Bool) : Bool :=
  if op = 0x10 || op = 0x20 || op = 0x21 || op = 0x40 || op = 0x60 then true
  else if op = 0x42 || op = 0x50 then !lim
  else false

/-- HOLD column of Table 17.3. -/
def holdRefuses (op : Nat) (lim : Bool) : Bool :=
  if op = 0x40 || op = 0x60 then true
  else if op = 0x10 || op = 0x42 || op = 0x50 then !lim
  else false

/-- TOWPATH column of Table 17.3. -/
def towpathRefuses (op : Nat) : Bool :=
  !(op = 0x01 || op = 0x02 || op = 0x03 || op = 0x91 || op = 0x61 || op = 0x70 || op = 0x90)

/-- STANDBY column of Table 17.3. -/
def standbyRefuses (op : Nat) : Bool :=
  !(op = 0x01 || op = 0x02 || op = 0x03 || op = 0x91 || op = 0x51 || op = 0x70 || op = 0x90)

/-- RETIRED column of Table 17.3. -/
def retiredRefuses (op : Nat) : Bool := op = 0x51 || op = 0x90

/-- Is a loop of Table 3.1's domains on the backup clock or stopped? -/
def State.onBackup (s : State) (loop : Nat) : Bool := s.bitOf R.CLK_FB_STAT_DOMAIN loop

/-- Commands that R428 lets through while LE and FAB are on the backup clock. -/
def backupLets (d : Desc) : Bool :=
  d.opcode = 0x01#8 || d.opcode = 0x03#8 || d.opcode = 0x70#8 || d.opcode = 0x91#8 ||
    (d.opcode = 0x02#8 && (d.le 4 1 = 2 || d.le 4 1 = 4))

/-- Is a host-loss plan active? (R120) -/
def State.planActive (s : State) : Bool :=
  match s.hst.plan with
  | some p => !p.waiting
  | none => false

/-- Refusal by mode: the DETAIL, first axis first (R427). POWER_STATE has its own order (R83), kept by its owner. -/
def State.modeRefusal (s : State) (d : Desc) : Option Nat :=
  let op := d.opcode.toNat
  let plan := s.planActive && !(op = 0x01 || op = 0x03)
  if op = 0x02 then none
  else if s.isSafe && safeRefuses op d.limited then some 3
  else if s.onBackup 0 && !backupLets d then some 0xF
  else if decide (s.power = .hold) && holdRefuses op d.limited then some 0xD
  else if decide (s.power = .towpath) && towpathRefuses op then some 0xD
  else if decide (s.rd R.SEC_LC_STATE = 3) && retiredRefuses op then some 0xE
  else if decide (s.role = .standby) && standbyRefuses op then some 4
  else if plan then some 2
  else if op = 0x60 && s.is R.SYS_OVERLAY_PWM_MASKED then some 0x10
  else if op = 0x40 && s.is R.SYS_OVERLAY_CANAL_LOOPBACK && s.bitOf R.SYS_OVERLAY_LOOP_POUNDS (d.le 4 1) then some 0x10
  else none

/-- May ring `r` carry opcode `op`? (R101) -/
def State.permitted (s : State) (r op : Nat) : Bool :=
  op = 1 ||
    (match r with
      | 0 => s.bitOf R.HST_CMD_PERMIT01_RING0 (op / 16)
      | 1 => s.bitOf R.HST_CMD_PERMIT01_RING1 (op / 16)
      | 2 => s.bitOf R.HST_CMD_PERMIT23_RING2 (op / 16)
      | _ => s.bitOf R.HST_CMD_PERMIT23_RING3 (op / 16))

/-- A command as its owning block sees it. -/
structure Cmd where
  seq : Nat
  ring : Nat
  idx : Nat
  desc : Desc
  /-- plant time at fetch -/
  fetchTime : Nat
  deriving DecidableEq, Repr

/-- Step 1 of R102 for an operand layout: the DETAIL of a malformed descriptor. -/
abbrev Format := State → Desc → Option Nat

/-- What the owning block does at step 4 of R102. -/
abbrev Owner := Cmd → State → State × Verdict

/-- The ordered checks of R102 and the completion. A kept outcome that would be the 65th is BUSY and has no effect
(R103). -/
def State.check (s : State) (row : Nat) (fmt : Format) (own : Owner) (c : Cmd) : State :=
  let fin := fun (s : State) v => s.complete c.ring c.idx c.desc v
  if c.desc.opcode.toNat ≠ row then fin s (vBad 6)
  else match (if c.desc.flagsOk then fmt s c.desc else some 5) with
    | some det => fin s (vBad det)
    | none =>
      if !s.permitted c.ring row then fin s { status := .auth }
      else match s.modeRefusal c.desc with
        | some det => fin s (vMode det)
        | none =>
          let (t, v) := own c s
          if v.status.keeps then
            if 64 ≤ s.hst.kept.length then fin s (vBusy 9)
            else
              let e : Kept := { seq := c.seq, ring := c.ring, idx := c.idx, desc := c.desc
                                deferred := decide (v.status = Status.deferred), since := s.sys.k }
              fin ({ t with hst := { t.hst with kept := t.hst.kept ++ [e] } }).showKept v
          else fin t v

/-- Must a command with FENCE wait? (R104): some command fetched before it has no final completion yet. -/
def State.fenced (s : State) (seq : Nat) : Bool :=
  s.hst.kept.any (fun e => e.seq < seq) || s.hst.held.any (fun h => h.seq < seq)

/-- Is ring `r` waiting behind a fenced command? -/
def State.ringWaits (s : State) (r seq : Nat) : Bool := s.hst.held.any fun h => h.ring = r && h.seq < seq

/-- Has ring `r` a fetched descriptor that has not been taken up, and can it run? (R93, R95) -/
def State.hasDesc (s : State) (r : Nat) : Bool :=
  decide ((s.ring r).fetch ≠ (s.ring r).fetched) && !s.is (R.HST_RING_STATE_HALTED r)

/-- Has a command ring that goes before ring `r` fetched commands that have not come up yet (R28)? -/
def State.lowerWaits (s : State) (r : Nat) : Bool := (List.range r).any fun q => decide (q < 4) && s.hasDesc q

/-- Take up the next descriptor of ring `r`: its index, and the state that has taken it. -/
def State.takeUp (s : State) (r : Nat) : Nat × Nat × State :=
  let i := (s.ring r).fetch
  let s := s.modRing r fun g => { g with fetch := (i + 1) % 65536 }
  let q := s.hst.fetchSeq
  (i, q, { s with hst := { s.hst with fetchSeq := q + 1 } })

/-- A write-back of a frame or telemetry descriptor: bytes 16 to 23, STATUS, WB_FLAGS beside DONE, DETAIL, bytes 28 to
31. -/
def State.wbPosted (s : State) (ring idx : Nat) (d : Desc) (mid status flags detail data : Nat) : State :=
  s.writeBack { ring := ring, idx := idx, mid := Desc.midBack d mid, status := status, wbFlags := 1 + flags, detail := detail,
                data := data, irqNow := d.irqNow }

/-- Posted descriptors of ring `r`, oldest first. -/
def State.postedOf (s : State) (r : Nat) : List Posted := s.hst.posted.filter fun p => p.ring = r

/-- The state with the head of ring `r` taken off. -/
def State.popPosted (s : State) (r : Nat) : State :=
  match s.postedOf r with
  | [] => s
  | p :: _ => { s with hst := { s.hst with posted := s.hst.posted.filter fun q => !(q.ring = r && q.idx = p.idx) } }

/-- Complete the descriptors at the head of ring `r` whose fetch decided their outcome, at most `n` of them. -/
def State.flushBad (s : State) (r : Nat) : Nat → State
  | 0 => s
  | n + 1 =>
    match s.postedOf r with
    | [] => s
    | p :: _ =>
      match p.bad with
      | none => s
      | some (st, det) => State.flushBad ((s.popPosted r).wbPosted r p.idx p.desc 0 st 0 det 0) r n

/-- Complete the head of ring `r`, then those behind it that are decided. -/
def State.completePosted (s : State) (r : Nat) (mid status flags detail data : Nat) : State :=
  match s.postedOf r with
  | [] => s
  | p :: t => ((s.popPosted r).wbPosted r p.idx p.desc mid status flags detail data).flushBad r t.length

/-- A descriptor waits in its ring behind those before it, or completes at once when the fetch decided it and none
waits. -/
def State.enqueue (s : State) (p : Posted) : State :=
  let n := (s.postedOf p.ring).length
  ({ s with hst := { s.hst with posted := s.hst.posted ++ [p] } }).flushBad p.ring (n + 1)

/-- A descriptor of a command row comes up in its ring: checked, or held by a fence or behind a ring that goes first
(R28, R102, R104). On a ring that takes no commands it completes MALFORMED (R100). `resp` is what a debug response's
buffer holds. -/
def State.submit (s : State) (r row : Nat) (d : Desc) (fmt : Format) (own : Owner) (resp : Bytes := []) : State :=
  if r = evtq || !s.hasDesc r then s
  else
    let (i, q, s) := s.takeUp r
    if 4 ≤ r then s.enqueue { ring := r, idx := i, desc := d, frame := [], bad := some (6, 6) }
    else if s.ringWaits r q || (d.fence && s.fenced q) || s.lowerWaits r then
      { s with hst := { s.hst with held := s.hst.held ++
          [{ seq := q, ring := r, idx := i, row := row, desc := d, fetchTime := s.plantNs, resp := resp }] } }
    else s.check row fmt own { seq := q, ring := r, idx := i, desc := d, fetchTime := s.plantNs }

/-- Step 1 of R102 for a list of byte ranges that must be zero: DETAIL 0x0005. -/
def reservedOk (d : Desc) (zs : List (Nat × Nat)) : Option Nat :=
  if zs.all fun (i, n) => d.zero i n then none else some 5

/-- The first DETAIL that applies, in the order of R102: reserved bits, fused-off names, ranges. -/
def firstOf : List (Option Nat) → Option Nat
  | [] => none
  | some x :: _ => some x
  | none :: t => firstOf t

/-- DETAIL `det` unless `b` holds. -/
def need (b : Bool) (det : Nat) : Option Nat := if b then none else some det

end Sys2Proof.Machine
end

