-- ==== Sys2Proof/Machine/Symbols.lean ====
section
/-! DEFINITION. Canal and lock-link hops at the level of symbols: 8b/10b, the ordered set IDLE, the comma sequence of a
barge, and what a receiver counts as invalid (R123, R126, R138, R150). -/

set_option Elab.async false

namespace Sys2Proof.Machine

open Sys2Proof

/-- K28.5, the comma. -/
def k28_5 : Byte := 0xBC#8

/-- K27.7. -/
def k27_7 : Byte := 0xFB#8

/-- The ordered set IDLE: K28.5 followed by D16.2 (R123). -/
def idle : List Symbol := [.ctrl k28_5, .data 0x50#8]

/-- Is a received symbol valid? No control symbol but K28.5 and K27.7 is sent, and any other counts as invalid (R123).
-/
def Symbol.valid : Symbol → Bool
  | .data _ => true
  | .ctrl k => decide (k = k28_5) || decide (k = k27_7)
  | .violation => false

/-- Is it a comma? -/
def Symbol.comma (x : Symbol) : Bool := decide (x = .ctrl k28_5)

/-- Invalid symbols among those received. -/
def invalidCount (xs : List Symbol) : Nat := (xs.filter fun x => !Symbol.valid x).length

/-- Do 8 invalid symbols lie in some window of 256 (R138)? -/
def burst (xs : List Symbol) : Bool :=
  (List.range (xs.length + 1)).any fun i => decide (8 ≤ invalidCount ((xs.drop i).take 256))

/-- Are there 64 consecutive valid symbols with at least 4 commas among them (Table 5.2)? -/
def alignedBy (xs : List Symbol) : Bool :=
  (List.range (xs.length + 1)).any fun i =>
    let w := (xs.drop i).take 64
    decide (w.length = 64) && w.all Symbol.valid && decide (4 ≤ (w.filter Symbol.comma).length)

/-- The symbols of a barge on a lane: the comma sequence, the header, the payload and the CRC (R123, R150, R153). -/
def Barge.symbols (b : Barge) : List Symbol :=
  [.ctrl k28_5, .ctrl k27_7] ++ (b.header ++ b.payload ++ layBytes 4 [(0, 4, b.crc.toNat)]).map Symbol.data

/-- What a transmitter sends for a run of barges: each is followed by IDLE, so that one is sent in every 2 µs, the
longest barge being shorter than that at every rate (R123). -/
def lineSymbols (bs : List Barge) : List Symbol := bs.flatMap fun b => Barge.symbols b ++ idle

/-- Symbol times of a barge with a payload of `n` words (Table 6.2). -/
def bargeSymbols (n : Nat) : Nat := 4 * n + 14

/-! ### 8b/10b (R123): a code group has bit `a` in its most significant place -/

/-- 5b/6b code of x at negative running disparity. -/
def code6 (x : Nat) : Nat :=
  [0b100111, 0b011101, 0b101101, 0b110001, 0b110101, 0b101001, 0b011001, 0b111000,
    0b111001, 0b100101, 0b010101, 0b110100, 0b001101, 0b101100, 0b011100, 0b010111,
    0b011011, 0b100011, 0b010011, 0b110010, 0b001011, 0b101010, 0b011010, 0b111010,
    0b110011, 0b100110, 0b010110, 0b110110, 0b001110, 0b101110, 0b011110, 0b101011].getD x 0

/-- 3b/4b code of y at negative running disparity. -/
def code4 (y : Nat) : Nat := [0b1011, 0b1001, 0b0101, 0b1100, 0b1101, 0b1010, 0b0110, 0b1110].getD y 0

/-- Ones in a number of `n` bits. -/
def onesIn (n v : Nat) : Nat := ((List.range n).filter v.testBit).length

/-- A sub-block of `n` bits at a running disparity (`true` positive): complemented at positive disparity where it is
unbalanced or `flip` says so, and the disparity after it. -/
def subBlock (n v : Nat) (rd flip : Bool) : Nat × Bool :=
  let even := decide (2 * onesIn n v = n)
  (if rd && (!even || flip) then 2 ^ n - 1 - v else v, if even then rd else !rd)

/-- The code group of a data byte, and the running disparity after it. -/
def encodeData (b : Byte) (rd : Bool) : Nat × Bool :=
  let x := b.toNat % 32
  let y := b.toNat / 32
  let (c6, r6) := subBlock 6 (code6 x) rd (decide (x = 7))
  let alt := decide (y = 7) && (if r6 then [11, 13, 14].contains x else [17, 18, 20].contains x)
  let (c4, r4) := subBlock 4 (if alt then 0b0111 else code4 y) r6 (decide (y = 3))
  (c6 * 16 + c4, r4)

/-- The code group of K28.5 or K27.7, and the running disparity after it. -/
def encodeCtrl (k : Byte) (rd : Bool) : Nat × Bool :=
  let v := if k = k28_5 then 0b0011111010 else 0b1101101000
  (if rd then 1023 - v else v, if k = k28_5 then !rd else rd)

/-- The code group of a symbol, and the running disparity after it. -/
def Symbol.encode : Symbol → Bool → Nat × Bool
  | .data b, rd => encodeData b rd
  | .ctrl k, rd => encodeCtrl k rd
  | .violation, rd => (0, rd)

/-- The code groups of a run of symbols. -/
def encodeAll : List Symbol → Bool → List Nat
  | [], _ => []
  | x :: t, rd => let (c, rd) := Symbol.encode x rd; c :: encodeAll t rd

/-- A received code group read in any running disparity: a data byte, a comma or K27.7, or a violation. -/
def decodeGroup (c : Nat) : Symbol :=
  match [k28_5, k27_7].find? fun k => (encodeCtrl k true).1 = c || (encodeCtrl k false).1 = c with
  | some k => .ctrl k
  | none =>
    match ((List.range 256).map (BitVec.ofNat 8)).find? fun b => (encodeData b true).1 = c || (encodeData b false).1 = c with
    | some b => .data b
    | none => .violation

end Sys2Proof.Machine
end

