-- ==== Sys2Proof/Machine/Lanes.lean ====
section
/-! DEFINITION. The lane layer: training, enumeration, rate steps, equalisation, loss of lock, and the
towpath line (R122 to R149). -/

set_option Elab.async false

namespace Sys2Proof.Machine

open Sys2Proof

/-- Pound of a Canal lane (R14). -/
def poundOf (n : Nat) : Nat := n / 2

/-- Is the lane on the west end? (R14, R15) -/
def isWest (n : Nat) : Bool := n % 2 = 1

/-- Is it a lock-link lane? -/
def isLink (n : Nat) : Bool := 24 ≤ n

/-- Is a lane looped back on itself (R430)? -/
def State.looped (s : State) (p : Nat) : Bool :=
  s.is R.SYS_OVERLAY_CANAL_LOOPBACK && s.bitOf R.SYS_OVERLAY_LOOP_POUNDS p

/-- Is the lane this seat's to run: its own end in a pair, both in SOLO? -/
def State.ownEnd (s : State) (n : Nat) : Bool :=
  !s.is R.RED_CTL_PAIRED || decide (n % 2 = (if s.is R.SYS_STRAP_SEAT_SEL then 1 else 0))

/-- Reach of an end of a pound: of the own lane while RUNNING, of the partner's from its heartbeat while the link is
UP. -/
def State.endReach (s : State) (n : Nat) : Nat :=
  if s.ownEnd n then (if s.runs n && !s.looped (poundOf n) then s.rd (R.CNL_LANE_STAT_REACH n) else 0)
  else if s.is R.RED_STAT_LINK_UP then leAt s.red.partner (32 + poundOf n) 1
  else 0

/-- Is a lane held off by the part, or by its place in a pair or in SOLO? (R2, R14, R15, R122, R137) -/
def State.heldOff (s : State) (n : Nat) : Bool :=
  let paired := s.is R.RED_CTL_PAIRED
  if isLink n then !paired || (s.lane n).tapBad
  else (!s.isFull && decide (12 ≤ n)) ||
    (paired && decide (n % 2 ≠ (if s.is R.SYS_STRAP_SEAT_SEL then 1 else 0)))

/-- Is a lane enabled and not held off? -/
def State.laneOn (s : State) (n : Nat) : Bool := s.is (R.CNL_LANE_CTL_EN n) && !s.heldOff n

/-- The seat's own lanes of a pound that are enabled. -/
def State.ownLanes (s : State) (p : Nat) : List Nat := [2 * p, 2 * p + 1].filter fun n => s.laneOn n

/-- Preset taps of a rate code (Table 5.4). -/
def preset (rate : Nat) : Nat × Nat := if rate = 3 then (2, 9) else if rate = 2 then (0, 6) else (0, 0)

/-- Taps of lane `n` on entering a rate: those of the board table, the forced ones, or the preset (R133, R135, R136). -/
def State.startTaps (s : State) (n rate : Nat) : Nat × Nat :=
  if isLink n then
    let e := SMap.get (fun _ => 0) s.cnl.tapTable n
    (e % 256, e / 256 % 256)
  else match (s.lane n).forced with
    | some t => if 2 ≤ rate then t else preset rate
    | none => preset rate

/-- The state with taps in force on lane `n`, remembered for the present rate (R131). -/
def State.setTaps (s : State) (n : Nat) (t : Nat × Nat) : State :=
  let s := (s.wr (R.CNL_LANE_TAPS_TX_PRE n) t.1).wr (R.CNL_LANE_TAPS_TX_POST n) t.2
  let r := s.rd (R.CNL_LANE_STAT_RATE n)
  s.modLane n fun l => { l with taps := SMap.ins l.taps r t }

/-- Lane `n` put OFF: electrical idle, nothing of its training kept but the caps (R126, R140). -/
def State.laneOff (s : State) (n : Nat) : State :=
  let s := s.wr (R.CNL_LANE_STAT_REACH n) 0
  let s := if isLink n then s.wrBit R.RED_STAT_LANES (n - 24) false else s
  (s.setLane n .off).modLane n fun l =>
    { l with settled := false, hello := false, step := none, eq := {}, answered := [], alone := false, taps := [], delaySeq := none }

/-- Lane `n` enters DETECT at its first rate (R125, R126, R135). -/
def State.enterDetect (s : State) (n : Nat) : State :=
  let s := s.laneOff n
  let force := if s.is (R.CNL_LANE_CTL_EQ_FORCE n) then
      some (s.rd (R.CNL_LANE_CTL_FORCE_PRE n), s.rd (R.CNL_LANE_CTL_FORCE_POST n)) else none
  let s := s.modLane n fun l => { l with forced := force, quadOff := false }
  let r := if isLink n then 3 else 0
  let s := (s.setLane n .detect).wr (R.CNL_LANE_STAT_RATE n) r
  s.setTaps n (s.startTaps n r)

/-- Is the quad loop of lane `n` locked? A lane stays dark until it is: before step 6 of boot has ended, and in TOWPATH,
where the loop is stopped (R61, R79, R84). -/
def State.quadLocked (s : State) (n : Nat) : Bool := s.bitOf R.CLK_PLL_STAT_LOCKED (2 + n / 4)

/-- Lane `n` through OFF, and again from DETECT if it may run, with RETRIES and CAP_RATE reset (R127, R131, R140). -/
def State.restartLane (s : State) (n : Nat) : State :=
  let s := s.laneOff n
  let s := ((s.wr (R.CNL_LANE_STAT_RETRIES n) 0).wr (R.CNL_LANE_STAT_CAP_RATE n) 3).modLane n
    fun l => { l with enumTries := 0 }
  if s.laneOn n && !(s.lane n).quadOff && s.quadLocked n then s.enterDetect n else s

/-- Restart every lane, as on a return to HOLD (R140). -/
def State.restartLanes (s : State) : State := each (List.range 28) State.restartLane s

/-- The lanes of quad `q` that are OFF start: its loop has locked in step 6 of boot or on the way out of TOWPATH (R65,
R79, R84). -/
def State.startQuad (s : State) (q : Nat) : State :=
  each ([0, 1, 2, 3].map (4 * q + ·)) (fun s n => if s.laneState n = .off then s.restartLane n else s) s

/-- Every lane OFF, no loss recorded: TOWPATH, OFF (R140). -/
def State.allLanesOff (s : State) : State := each (List.range 28) State.laneOff s

/-- Lane `n` enters RUNNING: RETRIES cleared, the symbol count restarted, LANE_UP queued (R127, Table 5.7). -/
def State.enterRunning (s : State) (n : Nat) : State :=
  let s := ((s.setLane n .running).wr (R.CNL_LANE_STAT_RETRIES n) 0).wr (R.CNL_LANE_ERR_INVALID n) 0
  let s := s.modLane n fun l => { l with step := none, alone := false }
  let s := if isLink n then s.wrBit R.RED_STAT_LANES (n - 24) true else s
  s.event 1 1 [(16, 1, n), (17, 1, s.rd (R.CNL_LANE_STAT_RATE n)), (18, 1, s.rd (R.CNL_LANE_STAT_REACH n))]

/-- Back-off after the `k`-th failure in ms (R127). -/
def backoffMs (k : Nat) : Nat := if 11 ≤ k then 1000 else 2 ^ (k - 1)

/-- Lane `n` fails its training state: ABSENT with back-off. In ENUM only the want of HELLO is a failure (R126, R127).
-/
def State.laneAbsent (s : State) (n : Nat) : State :=
  if s.laneState n = .enum ∧ (s.lane n).hello then s
  else match s.laneState n with
  | .detect | .align | .enum =>
    let was := (s.laneState n).code
    let s := s.inc (R.CNL_LANE_STAT_RETRIES n)
    let s := (s.laneOff n).setLane n .absent
    let s := s.wrB (R.CNL_LANE_STAT_WAS_ABSENT n) true
    s.event 1 3 [(16, 1, n), (17, 1, was), (18, 2, backoffMs (s.rd (R.CNL_LANE_STAT_RETRIES n)))]
  | _ => s

/-- The back-off of lane `n` ends (R127). -/
def State.backoffEnd (s : State) (n : Nat) : State :=
  if s.laneState n = .absent then s.enterDetect n else s

/-- Identity bytes of HELLO from this controller (Table 5.3). -/
def State.trainHello (s : State) (n : Nat) : Bytes :=
  layBytes 16 [(0, 1, 1), (1, 1, s.rd (R.CNL_LANE_STAT_RATE n)), (2, 1, if isLink n then 3 else 1), (3, 1, 3),
    (4, 2, s.rd R.SYS_ID_PART), (6, 1, s.seatBit)]

/-- Send a TRAIN barge on lane `n` (R129). -/
def State.sendTrain (s : State) (n : Nat) (payload : Bytes) : State :=
  s.sendBarge n 0xA 0x1F (poundOf n) (if isWest n then 0 else 1) s.sys.k payload

/-- Send ENUM on lane `n` (R128, Table 5.3). -/
def State.sendEnum (s : State) (n : Nat) : State :=
  s.sendTrain n (layBytes 16 [(0, 1, 2), (1, 1, s.rd (R.CNL_LANE_STAT_RATE n)),
    (2, 1, s.rd (R.CNL_POUND_CTL_FITTED (poundOf n)))])

/-- Sends DELAY_REQ on lane `n`, whose answer it then waits for (R159). -/
def State.sendDelayReq (s : State) (n : Nat) : State :=
  let q := (s.lane n).reqSeq + 1
  let k := s.sys.k
  (s.modLane n fun l => { l with reqSeq := q, delaySeq := some q, askedAt := k }).sendTrain n (layBytes 16 [(0, 1, 8), (12, 1, q.toNat)])

/-- MODE WAKE ends once every lane of the pound that this seat runs has reached ENUM (R147, log entry 59). -/
def State.endWake (s : State) (p : Nat) : State :=
  if (s.ownLanes p).all fun n => s.laneState n = .enum || s.laneState n = .step || s.laneState n = .running then
    s.modPound p fun q => { q with wake := none }
  else s

/-- Signal lock, or comma alignment on the symbols `xs`: DETECT to ALIGN, ALIGN to ENUM with HELLO and DELAY_REQ sent,
or a lock-link lane to RUNNING (R126, R136, R159). A lane rejoining alone stays for HOP_REJOIN. -/
def State.laneAligned (s : State) (n : Nat) (xs : List Symbol) : State :=
  match s.laneState n with
  | .detect => s.setLane n .align
  | .align =>
    if !alignedBy xs then s
    else if isLink n then s.enterRunning n
    else
      let s := ((s.setLane n .enum).modLane n fun l => { l with hello := false }).endWake (poundOf n)
      (s.sendTrain n (s.trainHello n)).sendDelayReq n
  | _ => s

/-- HELLO from the adjacent node: its highest rate, and enumeration starts (R128). -/
def State.helloReceived (s : State) (n : Nat) (b : Barge) : State :=
  s.screen (poundOf n) b fun s =>
    if s.laneState n = .enum && !isLink n then
      (s.modLane n fun l => { l with hello := true, peerRate := leAt b.payload 3 1, settled := false, answered := [] }).sendEnum n
    else s

/-- Positions answered in an unbroken run from the lane's end (R128). -/
def reachOf (west : Bool) (fitted : Nat) (answered : List Nat) : Nat :=
  ((List.range fitted).takeWhile fun i => answered.contains (if west then fitted - 1 - i else i)).length

/-- REACH of lane `n` recomputed (R128). -/
def State.showReach (s : State) (n : Nat) : State :=
  s.wr (R.CNL_LANE_STAT_REACH n)
    (reachOf (isWest n) (s.rd (R.CNL_POUND_CTL_FITTED (poundOf n))) (s.lane n).answered)

/-- REPORT of a node heard by the end of lane `n`: it is reached, and its rates and aligned hops are known (R128, Table
5.3). -/
def State.nodeReport (s : State) (n : Nat) (b : Barge) : State :=
  let p := leAt b.payload 2 1
  let node : NodeReport := { rate := leAt b.payload 1 1 % 4, maxRate := leAt b.payload 3 1 % 4, serial := leAt b.payload 4 4
                             aligned := BitVec.ofNat 8 (leAt b.payload 8 1) }
  let s := s.modPound (poundOf n) fun q => { q with nodes := SMap.ins q.nodes p node }
  s.modLane n fun l =>
    { l with settled := false, answered := if l.answered.contains p then l.answered else l.answered ++ [p] }

/-- Do the ends of a pound together cover every fitted position (R128)? -/
def State.fullyReached (s : State) (p : Nat) : Bool :=
  decide (s.rd (R.CNL_POUND_CTL_FITTED p) ≤ s.endReach (2 * p) + s.endReach (2 * p + 1))

/-- REPORT on one of this seat's lanes. In a pair it is passed to the partner, as every upstream barge is (R168). The
counter of ENUM repeats starts afresh once the pound is covered. -/
def State.reportReceived (s : State) (n : Nat) (b : Barge) : State :=
  s.screen (poundOf n) b fun s =>
    let st := s.laneState n
    if !isLink n && (st = .enum || st = .running || st = .step) then
      let s := (if s.is R.RED_CTL_PAIRED then s.sendRelay 1 n b else s).nodeReport n b
      let s := s.showReach n
      if s.fullyReached (poundOf n) then each (s.ownLanes (poundOf n)) (fun s m => s.modLane m fun l => { l with enumTries := 0 }) s
      else s
    else s

/-- Does this seat lead rate steps? (R130) -/
def State.leads (s : State) : Bool :=
  match s.role with
  | .solo => true
  | .active => true
  | .standby => !s.is R.RED_PARTNER_LINE && decide (s.rd R.RED_STAT_CLAIM ≠ 2) && !s.is R.SYS_STRAP_SEAT_SEL

/-- Is position `i` of a pound reached from an end: by what the end's enumeration has found so far, or its REACH
(R128)? -/
def State.isReached (s : State) (p i : Nat) : Bool :=
  let l := s.rd (R.CNL_POUND_CTL_FITTED p)
  [2 * p, 2 * p + 1].any fun n =>
    let r := max (reachOf (isWest n) l (s.lane n).answered) (s.endReach n)
    if isWest n then decide (l ≤ i + r) && decide (i < l) else decide (i < r)

/-- The pound rate that training aims for: TARGET and CAP_RATE of the lanes, and what every node reached can do
(R125). -/
def State.aimRate (s : State) (p : Nat) : Nat :=
  let ls := s.ownLanes p
  let caps := ls.map fun n => min (s.rd (R.CNL_LANE_CTL_TARGET n)) (s.rd (R.CNL_LANE_STAT_CAP_RATE n))
  let nodes := ((s.pound p).nodes.filter fun x => s.isReached p x.1).map fun x => x.2.maxRate
  (caps ++ nodes).foldl min 3

/-- Does the partner's lane of the pound train, as far as this seat can tell: REPORTs of its enumeration have crossed
the lock-link, and its heartbeat shows no reach yet (R129; log entry 112)? -/
def State.partnerTrains (s : State) (n : Nat) : Bool := !s.ownEnd n && !(s.lane n).answered.isEmpty && s.endReach n = 0

/-- Does the pound still train? (R129) -/
def State.poundTrains (s : State) (p : Nat) : Bool :=
  (s.ownLanes p).any (fun n => s.laneState n = .align || s.laneState n = .enum || s.laneState n = .step) ||
    s.partnerTrains (2 * p) || s.partnerTrains (2 * p + 1)

/-- Does the rest of the pound run, or step, without lane `n`: another own lane at a higher rate or in a step, or the
partner's lane at a higher rate last confirmed (R124, R132)? -/
def State.restRuns (s : State) (n : Nat) : Bool :=
  let p := poundOf n
  let r := s.rd (R.CNL_LANE_STAT_RATE n)
  ((s.ownLanes p).any fun m => decide (m ≠ n) && ((s.lane m).step.isSome ||
      ((s.runs m || s.laneState m = .step) && !(s.lane m).alone && decide (r < s.rd (R.CNL_LANE_STAT_RATE m))))) ||
    (decide (r < (s.pound p).confirmed) && [2 * p, 2 * p + 1].any fun m => !s.ownEnd m && decide (s.endReach m ≠ 0))

/-- The lane after HELLO and settled reach: STEP when a higher rate is aimed for and this seat leads, else RUNNING
(R126). A lane whose pound runs without it rejoins alone (R132). -/
def State.leaveEnum (s : State) (n : Nat) : State :=
  let p := poundOf n
  let r := s.rd (R.CNL_LANE_STAT_RATE n)
  if !(s.lane n).hello then s
  else if s.restRuns n then (s.setLane n .step).modLane n fun l => { l with alone := true }
  else if r < s.aimRate p && s.leads then s.setLane n .step
  else s.enterRunning n

/-- STEP payload (Table 5.3). -/
def trainStep (hop : Bool) (rate time : Nat) : Bytes :=
  layBytes 16 [(0, 1, 4), (1, 1, if hop then 16 else 0), (2, 1, rate), (4, 8, time)]

/-- CONFIRM payload (Table 5.3). -/
def trainConfirm (rate time : Nat) : Bytes := layBytes 16 [(0, 1, 5), (2, 1, rate), (4, 8, time)]

/-- A step begins: what nodes have reported of their hops no longer tells (R130). -/
def State.forgetAligned (s : State) (p : Nat) : State :=
  s.modPound p fun q => { q with nodes := q.nodes.map fun (x : Nat × NodeReport) => (x.1, { x.2 with aligned := 0 }) }

/-- Has every reached node of a pound reported both its hops aligned at rate `r` (R130)? -/
def State.allAligned (s : State) (p r : Nat) : Bool :=
  (List.range (s.rd (R.CNL_POUND_CTL_FITTED p))).all fun i =>
    !s.isReached p i || (match (s.pound p).nodes.find? fun x => x.1 = i with
      | some (_, x) => decide (x.rate = r) && x.aligned.getLsbD 0 && x.aligned.getLsbD 1
      | none => false)

/-- The lead sends STEP to the next rate code on its lanes of the pound, all at one rate and none in a step already;
`wait` is how far ahead the step time lies, taken into 200 µs to 300 µs (R124, R130). -/
def State.stepIssue (s : State) (p wait : Nat) : State :=
  let ls := (s.ownLanes p).filter fun n => (s.laneState n = .step || s.runs n) && !(s.lane n).alone
  let rs := ls.map fun n => s.rd (R.CNL_LANE_STAT_RATE n)
  let r := rs.headD 0
  let ready := !ls.isEmpty && ls.all (fun n => (s.lane n).settled) && rs.all (fun x => decide (x = r)) &&
    [2 * p, 2 * p + 1].all fun n => (s.lane n).step.isNone
  if !ready || !s.leads || decide (s.aimRate p ≤ r) then s
  else
    let w := max 200000 (min 300000 wait)
    let time := s.plantNs + w
    each ls (fun s n =>
      let s := (s.setLane n .step).modLane n fun l =>
        { l with step := some { newRate := r + 1, oldRate := r, time := time, hop := false, switched := false, lead := true }, eq := {} }
      s.sendTrain n (trainStep false (r + 1) time)) (s.forgetAligned p)

/-- A following seat takes the first STEP on its lane and arms the switch (R130). -/
def State.stepReceived (s : State) (n : Nat) (b : Barge) : State :=
  s.screen (poundOf n) b fun s =>
    if !isLink n && (s.lane n).step = none && (s.laneState n = .running || s.laneState n = .enum) then
      let r := s.rd (R.CNL_LANE_STAT_RATE n)
      let x : StepSt := { newRate := leAt b.payload 2 1 % 4, oldRate := r, time := leAt b.payload 4 8
                          hop := (leAt b.payload 1 1).testBit 4, switched := false, lead := false }
      ((s.setLane n .step).modLane n fun l => { l with step := some x, eq := {} }).forgetAligned (poundOf n)
    else s

/-- Lane `n` at a new rate, with the taps it starts from there (R131, R133). -/
def State.setRate (s : State) (n rate : Nat) (t : Nat × Nat) : State :=
  (s.wr (R.CNL_LANE_STAT_RATE n) rate).setTaps n t

/-- The earliest step time that a lane of the pound waits for. -/
def State.nextStep (s : State) (p : Nat) : Option Nat :=
  [2 * p, 2 * p + 1].foldl (fun t n =>
    match (s.lane n).step, t with
    | some x, some t => if x.switched then some t else some (min t x.time)
    | some x, none => if x.switched then none else some x.time
    | none, t => t) none

/-- The step time: the lanes of the pound that wait for it switch, and at 5.0 and 10.0 Gbaud start to tune the far
transmitter with a request that holds both taps (R130, R132, R134; log entry 9). -/
def State.stepTime (s : State) (p : Nat) : State :=
  match s.nextStep p with
  | none => s
  | some t =>
    each [2 * p, 2 * p + 1] (fun s n =>
      match (s.lane n).step with
      | some x =>
        if x.switched || decide (x.time ≠ t) then s
        else
          let s := s.modLane n fun l => { l with step := some { x with switched := true }, eq := {} }
          let s := s.setRate n x.newRate (s.startTaps n x.newRate)
          if 2 ≤ x.newRate then s.sendTrain n (layBytes 16 [(0, 1, 6), (12, 1, (s.lane n).reqSeq.toNat)]) else s
      | none => s) (s.advanceTo t)

/-- A tap moved by a request: 0 hold, 1 increase, 2 decrease; unchanged at its limit (R134). -/
def moveTap (top v req : Nat) : Nat × Bool :=
  if req = 1 then (if v < top then (v + 1, false) else (v, true))
  else if req = 2 then (if 0 < v then (v - 1, false) else (v, true))
  else (v, false)

/-- EQ_REQ from the far receiver: applied, and answered (R134, R135). On a lock-link lane it is discarded (R136), and
at the rates whose taps Table 5.4 fixes there is none to answer (R133). -/
def State.eqReqReceived (s : State) (n : Nat) (b : Barge) : State :=
  s.screen (poundOf n) b fun s =>
    if isLink n || decide (s.rd (R.CNL_LANE_STAT_RATE n) < 2) then s
    else
      let pre := s.rd (R.CNL_LANE_TAPS_TX_PRE n)
      let post := s.rd (R.CNL_LANE_TAPS_TX_POST n)
      let q := leAt b.payload 12 1
      let answer (s : State) (pre post st : Nat) :=
        s.sendTrain n (layBytes 16 [(0, 1, 7), (2, 1, pre), (3, 1, post), (4, 1, st), (12, 1, q)])
      match (s.lane n).forced with
      | some _ => answer s pre post 2
      | none =>
        let (pre', l1) := moveTap 7 pre (leAt b.payload 2 1)
        let (post', l2) := moveTap 15 post (leAt b.payload 3 1)
        answer (s.setTaps n (pre', post')) pre' post' (if l1 || l2 then 1 else 0)

/-- An EQ_REQ of this receiver, with the next sequence. -/
def State.sendEqReq (s : State) (n pre post : Nat) : State :=
  let q := (s.lane n).reqSeq + 1
  (s.modLane n fun l => { l with reqSeq := q }).sendTrain n (layBytes 16 [(0, 1, 6), (2, 1, pre), (3, 1, post), (12, 1, q.toNat)])

/-- The request that moves a tap one step toward a value: 0 hold, 1 increase, 2 decrease. -/
def towardTap (now want : Nat) : Nat := if now < want then 1 else if want < now then 2 else 0

/-- EQ_RSP from the far transmitter, with the eye metric the receiver then measures and the next request it
would make: tuning goes on until it ends by R134, and then the far taps go to the best setting seen, unless they are
forced. -/
def State.eqRspReceived (s : State) (n : Nat) (b : Barge) (eye pre post : Nat) : State :=
  s.screen (poundOf n) b fun s =>
    if isLink n then s
    else
      let fp := leAt b.payload 2 1
      let fq := leAt b.payload 3 1
      let s := ((s.wr (R.CNL_LANE_TAPS_FAR_PRE n) fp).wr (R.CNL_LANE_TAPS_FAR_POST n) fq).wr (R.CNL_LANE_TAPS_EYE n) (min eye 255)
      let e := (s.lane n).eq
      let better := decide (e.best < eye)
      let e : EqSt := if e.settling then e else
        { asked := e.asked + 1, noGain := if better then 0 else e.noGain + 1
          best := if better then eye else e.best
          bestPre := if better then fp else e.bestPre, bestPost := if better then fq else e.bestPost }
      let ended := e.settling || decide (96 ≤ e.best) || decide (8 ≤ e.noGain) || decide (64 ≤ e.asked)
      let s := s.modLane n fun l => { l with eq := { e with settling := ended } }
      if !ended then s.sendEqReq n (pre % 3) (post % 3)
      else if leAt b.payload 4 1 = 2 ∨ (fp = e.bestPre ∧ fq = e.bestPost) then s
      else s.sendEqReq n (towardTap fp e.bestPre) (towardTap fq e.bestPost)

/-- POUND_RATE (Table 5.7). -/
def State.poundRate (s : State) (p rate : Nat) (reverted : Bool) : State :=
  s.event 1 4 [(16, 1, p), (17, 1, rate), (18, 1, if reverted then 1 else 0)]

/-- The lanes of a pound leave their step at rate `rate`: to RUNNING, or on to the next step when the lead aims higher
(R126, R130). -/
def State.endStep (s : State) (n : Nat) : State :=
  let s := s.modLane n fun l => { l with step := none }
  if s.rd (R.CNL_LANE_STAT_RATE n) < s.aimRate (poundOf n) && s.leads then s
  else s.enterRunning n

/-- Lanes of the pound with a switched step led by this seat. -/
def State.steppedLanes (s : State) (p : Nat) : List Nat :=
  (s.ownLanes p).filter fun n => match (s.lane n).step with
    | some x => x.switched && x.lead && !x.hop
    | none => false

/-- The lead sends CONFIRM once every reached node reports both hops aligned at the rate, by 4 ms after the step time;
of a step that went back, once the hops have realigned (R130, R131). -/
def State.confirm (s : State) (p : Nat) : State :=
  match s.steppedLanes p with
  | [] => s
  | n :: t =>
    match (s.lane n).step with
    | none => s
    | some x =>
      let r := s.rd (R.CNL_LANE_STAT_RATE n)
      if !s.allAligned p r || (!x.reverted && decide (x.time + 4000000 < s.plantNs)) then s
      else
        let s := each (n :: t) (fun s m => s.sendTrain m (trainConfirm r x.time)) s
        let s := s.modPound p fun q => { q with confirmed := r }
        each (n :: t) State.endStep (if x.reverted then s else s.poundRate p r false)

/-- Lanes of the pound with a switched step that has not gone back yet. -/
def State.lateLanes (s : State) (p : Nat) : List Nat :=
  [2 * p, 2 * p + 1].filter fun n => match (s.lane n).step with
    | some x => x.switched && !x.hop && !x.reverted
    | none => false

/-- No CONFIRM: every lane of the pound returns to its previous rate and taps at step time + 5 ms; the lead caps all its
lanes of the pound and reports (R131). CONFIRM of the old rate follows once the hops have realigned. -/
def State.stepRevert (s : State) (p : Nat) : State :=
  let ls := s.lateLanes p
  let back (s : State) (n : Nat) : State :=
    match (s.lane n).step with
    | none => s
    | some x =>
      let s := (s.advanceTo ((x.time : Int) + 5000000)).modLane n fun l => { l with step := some { x with reverted := true } }
      (s.setRate n x.oldRate (SMap.get (fun _ => preset x.oldRate) (s.lane n).taps x.oldRate)).inc (R.CNL_LANE_ERR_STEP_FAIL n)
  match ls.findSome? fun n => (s.lane n).step with
  | none => s
  | some x =>
    let s := (each ls back s).forgetAligned p
    if x.lead then
      let s := each (s.ownLanes p) (fun s n => s.wr (R.CNL_LANE_STAT_CAP_RATE n) x.oldRate) s
      (s.raise 0x022 p).poundRate p x.oldRate true
    else s

/-- A following seat receives CONFIRM: its step ends at the rate confirmed (R131). -/
def State.confirmReceived (s : State) (n : Nat) (b : Barge) : State :=
  s.screen (poundOf n) b fun s =>
    match (s.lane n).step with
    | some x =>
      if x.lead then s
      else
        let r := leAt b.payload 2 1 % 4
        let s := if s.rd (R.CNL_LANE_STAT_RATE n) = r then s
          else s.setRate n r (SMap.get (fun _ => preset r) (s.lane n).taps r)
        let s := (s.modPound (poundOf n) fun q => { q with confirmed := r }).modLane n fun l => { l with step := none }
        s.enterRunning n
    | none => s

/-- A lane hop that trains alone: it takes a hop-scope STEP to the rate last confirmed, as the lead of that hop,
switches at the step time, and is confirmed here once it has equalised; or it fails and tries again (R132). While its
pound steps, it waits. -/
def State.hopRejoin (s : State) (n : Nat) (ok : Bool) : State :=
  if !((s.lane n).alone && s.laneState n = .step) then s
  else if !ok then
    let s := s.inc (R.CNL_LANE_STAT_RETRIES n)
    let s := ((s.inc (R.CNL_LANE_ERR_STEP_FAIL n)).laneOff n).setLane n .absent
    let s := s.wrB (R.CNL_LANE_STAT_WAS_ABSENT n) true
    s.event 1 3 [(16, 1, n), (17, 1, 4), (18, 2, backoffMs (s.rd (R.CNL_LANE_STAT_RETRIES n)))]
  else
    let r := (s.pound (poundOf n)).confirmed
    let now := s.rd (R.CNL_LANE_STAT_RATE n)
    match (s.lane n).step with
    | some x => if x.switched then (s.sendTrain n (trainConfirm x.newRate x.time)).enterRunning n else s
    | none =>
      if (s.ownLanes (poundOf n)).any fun m => (s.lane m).step.isSome then s
      else if now = r then s.enterRunning n
      else
        let time := s.plantNs + 200000
        let s := s.modLane n fun l =>
          { l with step := some { newRate := r, oldRate := now, time := time, hop := true, switched := false, lead := true }, eq := {} }
        s.sendTrain n (trainStep true r time)

/-- Symbols received on lane `n`: the invalid ones are counted (R123, Table 5.6d). -/
def State.countInvalid (s : State) (n : Nat) (xs : List Symbol) : State :=
  if s.laneState n = .running ∨ s.laneState n = .step then s.incBy (R.CNL_LANE_ERR_INVALID n) (invalidCount xs) else s

/-- Loss of lock of lane `n` by cause 1 to 4 on the symbols `xs`, for cause 2 with 8 invalid ones in some window of 256
(R138, R139): recorded, reported, and DETECT again, or OFF until the quad's domain returns. -/
def State.laneLost (s : State) (n cause : Nat) (xs : List Symbol) : State :=
  let s := s.countInvalid n xs
  if cause = 2 ∧ !burst xs then s
  else if s.laneState n = .running || s.laneState n = .step then
    let s := (s.wrB (R.CNL_LANE_STAT_LOST n) true).inc (R.CNL_LANE_ERR_LOSS_CNT n)
    let s := s.event 1 2 [(16, 1, n), (17, 1, cause)]
    let s := s.raise (if isLink n then 0x021 else 0x020) n
    if cause = 4 then (s.laneOff n).modLane n fun l => { l with quadOff := true } else s.enterDetect n
  else if cause = 4 then (s.laneOff n).modLane n fun l => { l with quadOff := true }
  else s

/-- A RUNNING lane of a pound not fully covered repeats ENUM (R128). -/
def State.enumRetry (s : State) (n : Nat) : State :=
  let p := poundOf n
  if s.runs n && !isLink n && !s.fullyReached p then
    (s.modLane n fun l => { l with enumTries := l.enumTries + 1, settled := false }).sendEnum n
  else s

/-! ### Towpath -/

/-- Is port `p` enabled and fused on? (R2, R149) -/
def State.portOn (s : State) (p : Nat) : Bool := s.bitOf R.CNL_TP_CTL_EN p && (s.isFull || decide (p < 6))

/-- Does MODE WAKE still hold for pound `p`: at most 1 s (R147)? -/
def State.wakes (s : State) (p : Nat) : Bool :=
  match (s.pound p).wake with
  | some t => decide (s.tsn.local_ < t + 500000000)
  | none => false

/-- MODE of the keep-alives of pound `p` (R147, R430). -/
def State.towpathMode (s : State) (p : Nat) : Nat :=
  let looped := s.is R.SYS_OVERLAY_CANAL_LOOPBACK && s.bitOf R.SYS_OVERLAY_LOOP_POUNDS p
  if s.isSafe then 3
  else if s.wakes p then 2
  else if s.power = .towpath || looped then 1
  else 0

/-- Role code of the keep-alive (Table 5.9). -/
def Role.code : Role → Nat
  | .solo => 0 | .active => 1 | .standby => 2

/-- The 12 bytes of a keep-alive frame of port `p` (Table 5.9). -/
def State.keepAlive (s : State) (p : Nat) : Bytes :=
  let pw := match s.power with | .run => 0 | .towpath => 2 | _ => 1
  let origin := if s.is R.RED_CTL_PAIRED && s.is R.SYS_STRAP_SEAT_SEL then 8 else 0
  let body := layBytes 10 [(0, 1, 0x11), (1, 1, p * 16 + origin), (2, 1, s.towpathMode p), (3, 1, (s.port p).seq.toNat),
    (8, 1, pw + 4 * s.role.code + 16 * s.rd R.FLT_STAT_SAFETY)]
  body ++ layBytes 2 [(0, 2, (keepAliveCrc body).toNat)]

/-- One bit on the towpath line: a 1 is low to high at mid-bit, a 0 high to low (R144). -/
def manchester (b : Bool) : List Bool := [!b, b]

/-- The bits of a byte, least significant first. -/
def bitsOf (b : Byte) : List Bool := (List.range 8).map b.getLsbD

/-- The line levels of a keep-alive, two to a bit time: preamble, start byte, frame, 16 bit times of idle low (R144). -/
def towpathLine (f : Bytes) : List Bool :=
  (([0x55#8, 0xD5#8] ++ f).flatMap bitsOf).flatMap manchester ++ List.replicate 32 false

/-- Are keep-alives sent now? (Table 3.16, R37, Table 2.4): from boot step 5 on, except in OFF and reset. -/
def State.towpathSends (s : State) : Bool :=
  s.sys.boot = .settings || s.sys.boot = .applied || s.sys.boot = .done

/-- One frame is started on each enabled port (R144). -/
def State.keepAliveSend (s : State) : State :=
  if s.towpathSends then
    each ((List.range 12).filter fun p => s.portOn p) (fun s p =>
      (s.emit (.keepAlive p (s.keepAlive p) (towpathLine (s.keepAlive p)))).modPort p fun q => { q with seq := q.seq + 1 }) s
  else s

/-- A frame received on port `p`: discarded on a bad CRC, else it updates the port, which is UP after two in a row
(R145, R148). -/
def State.towpathFrame (s : State) (p : Nat) (f : Bytes) : State :=
  if !s.portOn p then s
  else if f.length ≠ 12 ∨ leAt f 10 2 ≠ (keepAliveCrc f).toNat then
    (s.inc (R.CNL_TP_ERR_CRC_ERR p)).modPort p fun q => { q with good := 0 }
  else
    let b1 := leAt f 1 1
    let s := (((s.wr (R.CNL_TP_STAT_STATE p) (leAt f 8 1)).wr (R.CNL_TP_STAT_SEQ p) (leAt f 3 1)).wrB
      (R.CNL_TP_STAT_ORIGIN p) (b1.testBit 3)).wrB (R.CNL_TP_STAT_TURNED p) (b1.testBit 2)
    let s := (s.wr (R.CNL_TP_MAP_ALIVE p) (leAt f 4 2)).wr (R.CNL_TP_MAP_FAULT p) (leAt f 6 2)
    let s := s.modPort p fun q => { q with good := min 2 (q.good + 1) }
    if 2 ≤ (s.port p).good && !s.is (R.CNL_TP_STAT_UP p) then
      (s.wrB (R.CNL_TP_STAT_UP p) true).event 1 6 [(16, 1, p), (17, 2, leAt f 4 2)]
    else s

/-- No valid frame for 40.96 µs (R148). -/
def State.towpathLost (s : State) (p : Nat) : State :=
  if s.is (R.CNL_TP_STAT_UP p) then
    let s := (s.wrB (R.CNL_TP_STAT_UP p) false).wrB (R.CNL_TP_STAT_LOST p) true
    let s := (s.inc (R.CNL_TP_ERR_LOSS_CNT p)).modPort p fun q => { q with good := 0 }
    (s.event 1 5 [(16, 1, p)]).raise 0x023 p
  else s.modPort p fun q => { q with good := 0 }

/-- The WAKE mode set for every pound: boot step 5, exit from TOWPATH, end of a block reset of `CNL_` (R147). -/
def State.wakeAll (s : State) : State :=
  each (List.range 12) (fun s p => s.modPound p fun q => { q with wake := some s.tsn.local_ }) s

end Sys2Proof.Machine
end

