-- ==== Sys2Proof/Machine/Slots.lean ====
section
/-! DEFINITION. Signal slots and their regions (R192 to R195). -/

set_option Elab.async false

namespace Sys2Proof.Machine

open Sys2Proof

/-- Region bounds: first slot and one past the last. -/
def State.region (s : State) (n : Nat) : Nat × Nat :=
  (s.rd (R.LOOP_REGION_BASE n), s.rd (R.LOOP_REGION_BASE n) + s.rd (R.LOOP_REGION_COUNT n))

/-- Is region `n` in use? -/
def State.regionUsed (s : State) (n : Nat) : Bool :=
  decide (s.rd (R.LOOP_REGION_KIND n) ≠ 0) && decide (s.rd (R.LOOP_REGION_COUNT n) ≠ 0)

/-- Do two regions in use overlap? -/
def State.regionsMeet (s : State) (m n : Nat) : Bool :=
  s.regionUsed m && s.regionUsed n && decide ((s.region m).1 < (s.region n).2) && decide ((s.region n).1 < (s.region m).2)

/-- Is region `n` invalid: past slot 4,095, or overlapping another (R194)? -/
def State.regionBad (s : State) (n : Nat) : Bool :=
  s.regionUsed n && (decide (4096 < (s.region n).2) ||
    (List.range 16).any fun m => decide (m ≠ n) && s.regionsMeet m n)

/-- The regions judged: those found invalid are recorded, and the fault is raised for each new one (R194). -/
def State.judgeRegions (s : State) : State :=
  each (List.range 16) (fun s n =>
    let bad := s.regionBad n
    let was := s.loop.badRegions.getLsbD n
    let s := { s with loop := { s.loop with badRegions :=
      (if bad then s.loop.badRegions ||| BitVec.ofNat 16 (2 ^ n) else s.loop.badRegions &&& ~~~BitVec.ofNat 16 (2 ^ n)) } }
    if bad && !was then s.raise 0x046 n else s) s

/-- KIND of the region a slot lies in; 0 when unassigned (R193, R194). -/
def State.slotKind (s : State) (slot : Nat) : Nat :=
  match (List.range 16).find? fun n =>
    s.regionUsed n && !s.loop.badRegions.getLsbD n && decide ((s.region n).1 ≤ slot) && decide (slot < (s.region n).2) with
  | some n => s.rd (R.LOOP_REGION_KIND n)
  | none => 0

/-- The slot as written, if it has been. -/
def State.slot? (s : State) (i : Nat) : Option Slot :=
  (s.loop.slots.find? fun p => p.1 = i).map (·.2)

/-- VALUE of a slot; 0 when unwritten or unassigned (R192). -/
def State.slotValue (s : State) (i : Nat) : F32 :=
  match s.slot? i with
  | some x => x.value
  | none => 0#32

/-- QUAL of a slot; VALID reads 0 outside every region (R193). -/
def State.slotQual (s : State) (i : Nat) : BitVec 8 :=
  match s.slot? i with
  | some x => if s.slotKind i = 0 then x.qual &&& 0xFE#8 else x.qual
  | none => 0#8

/-- AGE of a slot in the present cycle (R192, R195). -/
def State.slotAge (s : State) (i : Nat) : Nat :=
  if s.slotKind i = 1 then 0
  else match s.slot? i with
    | some x => min 255 (s.sys.k - x.k)
    | none => 255

/-- WCYCLE of a slot. -/
def State.slotCycle (s : State) (i : Nat) : Nat :=
  match s.slot? i with
  | some x => x.k % 65536
  | none => 0

/-- VALID. -/
def qValid : BitVec 8 := 1
/-- SRC_FAULT. -/
def qFault : BitVec 8 := 2
/-- AT_LIMIT. -/
def qLimit : BitVec 8 := 4
/-- SUBSTITUTED. -/
def qSub : BitVec 8 := 8
/-- HELD. -/
def qHeld : BitVec 8 := 16
/-- HALF. -/
def qHalf : BitVec 8 := 32

/-- A slot written with a value that belongs to cycle `k` (full count). -/
def State.putSlot (s : State) (i : Nat) (v : F32) (q : BitVec 8) (k : Nat) : State :=
  { s with loop := { s.loop with slots := SMap.ins s.loop.slots i ⟨v, q, k⟩ } }

/-- A slot written with QUAL `q` by the writer of a region KIND: nothing is written outside regions of that kind
(R193). -/
def State.writeQual (s : State) (kind i : Nat) (v : F32) (q : BitVec 8) (k : Nat) : State :=
  if s.slotKind i = kind then s.putSlot i v q k else s

/-- The same with VALID set, and SRC_FAULT where the writer reports the value as unusable (R192). -/
def State.writeSlot (s : State) (kind i : Nat) (v : F32) (good : Bool) (k : Nat) : State :=
  s.writeQual kind i v (if good then qValid else qValid ||| qFault) k

/-- Does a slot carry SRC_FAULT? -/
def State.slotFaulty (s : State) (i : Nat) : Bool := (s.slotQual i).getLsbD 1

/-- Is a slot usable: VALID, no SRC_FAULT, finite? (R195, R210) -/
def State.slotGood (s : State) (i : Nat) : Bool :=
  (s.slotQual i).getLsbD 0 && !(s.slotQual i).getLsbD 1 && fFinite (s.slotValue i)

/-- The eight bytes of a slot (Table 7.1). -/
def State.slotBytes (s : State) (i : Nat) : Bytes :=
  layBytes 8 [(0, 4, (s.slotValue i).toNat), (4, 1, s.slotAge i), (5, 1, (s.slotQual i).toNat), (6, 2, s.slotCycle i)]

/-- The set-point in a slot as last admitted: the staged value, else the slot's. -/
def State.setpoint (s : State) (i : Nat) : F32 :=
  match s.loop.staged.reverse.find? fun p => p.1 = i with
  | some p => p.2
  | none => s.slotValue i

end Sys2Proof.Machine
end

