-- ==== Sys2Proof/Machine/LoopEngine.lean ====
section
/-! DEFINITION. The Loop Engine: descriptors and banks, verification and commit, and the evaluation of
loops with their feedback-loss policies (R196 to R217). -/

set_option Elab.async false

namespace Sys2Proof.Machine

open Sys2Proof

/-! ### Descriptors -/

/-- Word `i` (0 to 31) of descriptor `d` of a bank (0 A, 1 B) (R196). -/
def State.descWord (s : State) (bank d i : Nat) : Word :=
  SMap.get (fun _ => 0) s.loop.words (0x40000 + 0x20000 * bank + 0x80 * d + 4 * i)

/-- Byte `i` of descriptor `d`. -/
def State.descByte (s : State) (bank d i : Nat) : Nat := (s.descWord bank d (i / 4)).toNat / 2 ^ (8 * (i % 4)) % 256

/-- The 16-bit field at byte `i`. -/
def State.descHalf (s : State) (bank d i : Nat) : Nat := s.descByte bank d i + 256 * s.descByte bank d (i + 1)

/-- The coefficient at byte `i`. -/
def State.coef (s : State) (bank d i : Nat) : F32 := s.descWord bank d (i / 4)

/-- Descriptors of a bank that are not all zero, in order. -/
def State.liveDescs (s : State) (bank : Nat) : List Nat :=
  ((s.loop.words.filterMap fun (o, _) =>
    if 0x40000 + 0x20000 * bank ≤ o ∧ o < 0x60000 + 0x20000 * bank then
      some ((o - 0x40000 - 0x20000 * bank) / 0x80) else none)).eraseDups

/-- LAW of a descriptor. -/
def State.law (s : State) (bank d : Nat) : Nat := s.descByte bank d 0 % 16

/-- NRES. -/
def State.nres (s : State) (bank d : Nat) : Nat := s.descByte bank d 0 / 16 % 4

/-- FLAGS bit `i`. -/
def State.flag (s : State) (bank d i : Nat) : Bool := (s.descByte bank d 2).testBit i

/-- Is a descriptor an enabled loop? (R196) -/
def State.enabled (s : State) (bank d : Nat) : Bool := s.flag bank d 0 && decide (s.law bank d ≠ 0)

/-- Enabled loops of a bank, in descriptor order. -/
def State.enabledLoops (s : State) (bank : Nat) : List Nat := (s.liveDescs bank).filter fun d => s.enabled bank d

/-- STAGE. -/
def State.stage (s : State) (bank d : Nat) : Nat := s.descByte bank d 1 % 32

/-- The bank in force (Table 7.15). -/
def State.bank (s : State) : Nat := s.rd R.LOOP_BANK_STAT_ACTIVE

/-- The staged bank. -/
def State.stagedBank (s : State) : Nat := 1 - s.bank

/-- What verification recorded of a bank. -/
def State.bankInfo (s : State) (b : Nat) : BankInfo := if b = 0 then s.loop.bankA else s.loop.bankB

/-- The state with a bank's record changed. -/
def State.setBankInfo (s : State) (b : Nat) (x : BankInfo) : State :=
  if b = 0 then { s with loop := { s.loop with bankA := x } } else { s with loop := { s.loop with bankB := x } }

/-! ### Cost, budget, verification -/

/-- Lane rate figures of Table 1.3: U and D in ns, both ends, and the minimum period in ns. -/
def rateU (rate : Nat) : Nat := 11600 / 2 ^ rate
/-- D, both ends. -/
def rateD (rate : Nat) : Nat := 7200 / 2 ^ rate
/-- Minimum period, both ends. -/
def rateMin (rate : Nat) : Nat := match rate with | 0 => 30000 | 1 => 15000 | 2 => 8000 | _ => 5000
/-- Minimum period, one end. -/
def rateMinOne (rate : Nat) : Nat := match rate with | 0 => 60000 | 1 => 30000 | 2 => 15000 | _ => 8000

/-- Lowest TARGET of any enabled Canal lane; 10.0 Gbaud with none (log entry 10). -/
def State.lowestTarget (s : State) : Nat :=
  (((List.range 24).filter fun n => s.laneOn n).map fun n => s.rd (R.CNL_LANE_CTL_TARGET n)).foldl min 3

/-- Loop budget B in LE clocks at a period of `p` ns (R202). -/
def State.budget (s : State) (p : Nat) : Nat := p - 1850 - rateU s.lowestTarget - rateD s.lowestTarget

/-- Operations and depth of a loop (Table 7.6). -/
def State.loopCost (s : State) (b d : Nat) : Nat × Nat :=
  let base := match s.law b d with
    | 1 => (8, 5)
    | 2 => (8 + 5 * s.nres b d, 6 + s.nres b d)
    | 3 => (12, 6)
    | _ => (7, 5)
  if s.flag b d 1 && decide (s.law b d ≠ 4) then (base.1 + 3, base.2 + 2) else base

/-- Loops of stage `x` of a bank. -/
def State.stageLoops (s : State) (b x : Nat) : List Nat := (s.enabledLoops b).filter fun d => s.stage b d = x

/-- T_s of a stage (R203); 0 with no loop. -/
def State.stageClk (s : State) (b x : Nat) : Nat :=
  let ls := s.stageLoops b x
  if ls.isEmpty then 0
  else
    let n := (ls.map fun d => (s.loopCost b d).1).foldl (· + ·) 0
    let dep := (ls.map fun d => (s.loopCost b d).2).foldl max 0
    16 + max ((n + 11) / 12) (8 * dep)

/-- Schedule length of a bank (R203). -/
def State.schedule (s : State) (b : Nat) : Nat := 24 + ((List.range 32).map fun x => s.stageClk b x).foldl (· + ·) 0

/-- Bytes of a loop's copy record (Table 7.4). -/
def State.recordBytes (s : State) (b d : Nat) : Nat :=
  match s.law b d with
  | 1 => 16
  | 2 => 16 + 8 * s.nres b d
  | 3 => 24
  | _ => 20

/-- Copy size of a bank: 64 bytes and the records (R369). -/
def State.copySize (s : State) (b : Nat) : Nat := 64 + ((s.enabledLoops b).map fun d => s.recordBytes b d).foldl (· + ·) 0

/-- DCRC as it should be: CRC-32C over bytes 0 to 123. -/
def State.descCrc (s : State) (b d : Nat) : Word :=
  crc32c ((List.range 124).map fun i => BitVec.ofNat 8 (s.descByte b d i))

/-- Digest of a bank: CRC-32C of the DCRC fields in order (R205). -/
def State.bankDigest (s : State) (b : Nat) : Word :=
  crc32c ((List.range 1024).flatMap fun d => layBytes 4 [(0, 4, (s.descWord b d 31).toNat)])

/-- Code 0x1: a reserved encoding, or a byte or bit that must be zero (Table 7.3). -/
def State.descReserved (s : State) (b d : Nat) : Bool :=
  let B := s.descByte b d
  let law := s.law b d
  let slotHigh := [4, 6, 8, 10, 12, 14].any fun i => 16 ≤ B (i + 1)
  decide (4 < law) || decide (64 ≤ B 0) ||
  (decide (law = 2) && decide (s.nres b d = 0)) || (decide (law ≠ 2) && decide (s.nres b d ≠ 0)) ||
  decide (32 ≤ B 1) || decide (64 ≤ B 2) || decide (4 ≤ B 3) || slotHigh || decide (B 17 = 1) ||
  decide (B 18 / 16 % 8 ≠ 0) || decide (B 19 ≠ 0) || decide (B 59 ≠ 0) ||
  (List.range 28).any fun i => decide (B (96 + i) ≠ 0)

/-- Slots in use of an enabled loop, other than OUT_SLOT (Table 7.8, code 0x3). -/
def State.usedSlots (s : State) (b d : Nat) : List Nat :=
  [s.descHalf b d 4, s.descHalf b d 6] ++ (if s.flag b d 2 then [s.descHalf b d 8] else []) ++
  (if s.descByte b d 3 % 4 = 2 then [s.descHalf b d 12] else []) ++
  (if s.law b d = 2 ∧ s.flag b d 5 then [s.descHalf b d 14] else [])

/-- Code 0x7: coefficients and their ranges. -/
def State.descRanges (s : State) (b d : Nat) : Bool :=
  let C := s.coef b d
  let law := s.law b d
  let neg (x : F32) := fLt x 0#32
  let offs := [20, 24, 28, 32, 36, 40, 44, 48, 52, 60, 64, 68, 72, 76, 80, 84, 88, 92]
  let offs := offs.filter fun o =>
    !((o = 44 && s.nres b d < 1) || (o = 48 && s.nres b d < 2) || (o = 52 && s.nres b d < 3))
  offs.any (fun o => !fFinite (C o)) ||
  [24, 28, 40, 36, 32, 88].any (fun o => neg (C o)) || (decide (law = 3) && fIsZero (C 36)) ||
  !fLt (C 76) (C 80) || fLt (C 84) (C 76) || fLt (C 80) (C 84) ||
  (s.flag b d 3 && (!fLt 0#32 (C 68) || !fLt 0#32 (C 72))) ||
  (decide (law = 2) && (List.range (s.nres b d)).any fun j => decide (s.descByte b d (56 + j) = 0 ∨ 63 < s.descByte b d (56 + j))) ||
  (decide (s.descByte b d 16 = 0) &&
    [s.descHalf b d 4, s.descHalf b d 6].any fun x => decide (s.slotKind x ≠ 0 ∧ s.slotKind x ≠ 1))

/-- First failure of one descriptor, in code order (Table 7.8). -/
def State.descFailure (s : State) (b d : Nat) : Option Nat :=
  let en := s.enabled b d
  if s.descReserved b d then some 1
  else if s.descWord b d 31 ≠ s.descCrc b d then some 2
  else if en && (decide (s.slotKind (s.descHalf b d 10) ≠ 4) || (s.usedSlots b d).any fun x => decide (s.slotKind x = 0)) then some 3
  else if en && (s.enabledLoops b).any fun e => decide (e < d) && decide (s.descHalf b e 10 = s.descHalf b d 10) then some 4
  else if s.descRanges b d then some 7
  else if decide (128 ≤ s.descByte b d 18) && decide (s.poundCount ≤ s.descByte b d 18 % 16) then some 8
  else none

/-- Verification of a bank: CODE and the descriptor of the first failure (R205). -/
def State.verdictOf (s : State) (b : Nat) : Nat × Nat :=
  match (s.liveDescs b).findSome? fun d => (s.descFailure b d).map fun c => (c, d) with
  | some r => r
  | none =>
    if s.budget s.periodNs < s.schedule b then (5, 0)
    else if s.is R.RED_CTL_PAIRED && decide (16000 < s.copySize b) then (6, 0)
    else (0, 0)

/-- Start verification of the staged bank; ignored while one runs (Table 7.16). -/
def State.verifyGo (s : State) : State :=
  if s.is R.LOOP_BANK_STAT_VERIFY_BUSY then s
  else ({ s with loop := { s.loop with verifying := some false, verifyBank := s.stagedBank } }).wrB R.LOOP_BANK_STAT_VERIFY_BUSY true

/-- Registers that show the bank in force and the staged bank (R205, R218). -/
def State.showBanks (s : State) : State :=
  let a := s.bankInfo s.bank
  let t := s.bankInfo s.stagedBank
  let s := s.wrB R.LOOP_BANK_STAT_STAGED_VERIFIED t.verified
  let s := (s.wr R.LOOP_DIGEST_ACTIVE a.digest.toNat).wr R.LOOP_DIGEST_STAGED (if t.verified then t.digest.toNat else 0)
  let s := (s.wr R.LOOP_SCHED_ACTIVE_CLK a.sched).wr R.LOOP_SCHED_STAGED_CLK t.sched
  let s := (s.wr R.LOOP_COPY_ACTIVE a.copy).wr R.LOOP_COPY_STAGED t.copy
  s.wr R.LOOP_BUDGET_BUDGET (s.budget s.periodNs)

/-- Shortest period in 10 ns units at which the schedule of the bank in force fits (R204). -/
def State.minPeriod (s : State) : Nat :=
  let a := s.bankInfo s.bank
  if a.sched = 0 then 0 else (a.sched + 1850 + rateU s.lowestTarget + rateD s.lowestTarget + 9) / 10

/-- The verification in progress ends (R205, R206). A failed one records no length, size or digest, and its event
shows 0 for them. The commits waiting for it are the caller's. -/
def State.verifyEnd (s : State) : State :=
  match s.loop.verifying with
  | none => s
  | some dirty =>
    let b := s.loop.verifyBank
    let (code, d) := s.verdictOf b
    let (code, d) := if dirty then (9, 0) else (code, d)
    let info := s.bankInfo b
    let info : BankInfo := if code = 0 then
        { verified := true, digest := s.bankDigest b, sched := s.schedule b, copy := s.copySize b }
      else { info with verified := false, digest := 0 }
    let s := (s.wrB R.LOOP_BANK_STAT_VERIFY_BUSY false).setBankInfo b info
    let s := { s with loop := { s.loop with verifying := none } }
    let s := ((s.wr R.LOOP_VERIFY_CODE code).wr R.LOOP_VERIFY_DESC d).showBanks
    let noDesc := code = 0 || code = 5 || code = 6 || code = 9
    s.event 2 3 [(16, 1, b), (17, 1, code), (18, 2, if noDesc then 0xFFFF else d), (20, 4, info.digest.toNat),
      (24, 2, if code = 0 then info.sched else 0), (26, 2, if code = 0 then info.copy else 0)]

/-- Is a bank closed to writes: in force, committed, or just left force? (R205, R207) -/
def State.bankClosed (s : State) (b : Nat) : Bool :=
  decide (b = s.bank) || decide (s.loop.commit = some b) || decide (s.loop.leaving = some b)

/-- A write of one word into the descriptor banks (R205, R206). `info` says who writes, for the capture. -/
def State.bankWrite (s : State) (off : Nat) (v : Word) : State :=
  let b := (off - 0x40000) / 0x20000
  if s.bankClosed b then s.raise 0x043 0
  else
    let s := { s with loop := { s.loop with words := SMap.put (fun _ => 0) s.loop.words off v
                                            verifying := s.loop.verifying.map fun w => w || decide (b = s.loop.verifyBank) } }
    (s.setBankInfo b { s.bankInfo b with verified := false, digest := 0 }).showBanks

/-- The check of BANK_COMMIT beyond R102 (Table 7.9). The partner's staged digest is the one of its last heartbeat, 0
where it staged no verified bank (R367), also while the link is LOST (log entry 115, DEDUCED). -/
def State.commitVerdict (s : State) (b digest : Nat) : Verdict :=
  let info := s.bankInfo b
  if b = s.bank then vBad 7
  else if s.loop.verifying.isSome && decide (s.loop.verifyBank = b) then vPend 0
  else if !info.verified then vBad 0x0201
  else if info.digest.toNat ≠ digest then vBad 0x0202
  else if s.budget s.periodNs < info.sched then vMode 0x0204
  else if s.is R.RED_CTL_PAIRED && decide (leAt s.red.partner 16 4 ≠ info.digest.toNat) then vMode 0x0203
  else vOk

/-- A bank accepted for the next mark (R207). -/
def State.acceptCommit (s : State) (b : Nat) : State :=
  ({ s with loop := { s.loop with commit := some b } }).wrB R.LOOP_BANK_STAT_SWAP_PENDING true

/-- State of loop `d`. -/
def State.loopAt (s : State) (d : Nat) : LoopState := SMap.get (fun _ => {}) s.loop.loops d

/-- The state with loop `d`'s state set. -/
def State.setLoop (s : State) (d : Nat) (x : LoopState) : State :=
  { s with loop := { s.loop with loops := SMap.put (fun _ => {}) s.loop.loops d x } }

/-- A loop from rest: every law state zero, the policy kept with the output value it had (R200). -/
def LoopState.rest (x : LoopState) : LoopState :=
  { x with out := if x.policy = 0 then 0 else x.out
           integ := 0, spEff := 0, y0 := 0, y1 := 0, y2 := 0, z0 := 0, z1 := 0, z2 := 0, dterm := 0, gPrev := 0
           lead := 0, ePrev := 0, live := false, hold := none, atLimit := false, ffLast := 0, wLast := none, last := 0
           subCnt := 0, carry := none, resumes := false }

/-- Every loop starts from rest (R200). -/
def State.restLoops (s : State) : State :=
  { s with loop := { s.loop with loops := s.loop.loops.map fun (d, x) => (d, x.rest) } }

/-- STAGE registers of the bank in force (Table 7.21) and the shortest period it allows (R204). -/
def State.showStages (s : State) : State :=
  let b := s.bank
  let s := each (List.range 32) (fun s x =>
    (s.wr (R.LOOP_STAGE_CLK x) (s.stageClk b x)).wr (R.LOOP_STAGE_LOOPS x) (s.stageLoops b x).length) s
  s.wr R.LOOP_BUDGET_MIN_PERIOD s.minPeriod

/-- The law states that two laws share; those that only the new one has are zero (R208). -/
def LoopState.shared (x : LoopState) (law nres : Nat) : LoopState :=
  let n := if law = 2 then nres else 0
  let x := if law = 4 then { x with integ := 0 } else { x with lead := 0, ePrev := 0 }
  let x := if law = 3 then x else { x with dterm := 0, gPrev := 0 }
  { x with y0 := if 0 < n then x.y0 else 0, z0 := if 0 < n then x.z0 else 0
           y1 := if 1 < n then x.y1 else 0, z1 := if 1 < n then x.z1 else 0
           y2 := if 2 < n then x.y2 else 0, z2 := if 2 < n then x.z2 else 0 }

/-- Does loop `d` swap from bank `old` to bank `b` without a bump (R208)? -/
def State.bumpless (s : State) (old b d : Nat) : Bool :=
  s.enabled old d && s.enabled b d && decide (s.descHalf old d 10 = s.descHalf b d 10) && s.flag b d 1

/-- The state of loop `d` at the swap from `old` to `b`: from rest, or carried, with what its first evaluation needs
of the old descriptor, or of the one before it where the loop has not been evaluated since (R208, R209). -/
def State.swapLoop (s : State) (old b d : Nat) (x : LoopState) : LoopState :=
  if s.bumpless old b d && x.live then
    let c : Carry := { kp := s.coef old d 20, kff := if s.flag old d 2 then some (s.coef old d 64) else none
                       ffSlot := s.descHalf old d 8
                       upper := match x.hold with
                         | some (_, u, _) => u
                         | none => fLe (s.coef old d 80) x.out }
    { x.shared (s.law old d) (s.nres old d) with carry := some (x.carry.getD c) }
  else x.rest

/-- The swap at a SAMPLE mark: BANK_SWAPPED (R207). The bank that left force opens at the mark after the swap cycle.
Every loop is carried or put at rest, and one that the new bank does not enable reads DISABLED (R200, R208, Table
7.22). -/
def State.swapBank (s : State) : State :=
  let s := { s with loop := { s.loop with leaving := none } }
  match s.loop.commit with
  | none => s
  | some b =>
    let old := s.bank
    let s := (s.wr R.LOOP_BANK_STAT_ACTIVE b).wrB R.LOOP_BANK_STAT_SWAP_PENDING false
    let s := { s with loop := { s.loop with
      commit := none, leaving := some old
      loops := s.loop.loops.map fun (d, x) => (d, s.swapLoop old b d x) } }
    let s := each ((s.enabledLoops old).filter fun d => !s.enabled b d) (fun s d => s.wr (R.LOOP_LSTAT_STATE d) 0) s
    s.showBanks.showStages.event 2 4 [(16, 1, b), (20, 4, (s.bankInfo b).digest.toNat)]

/-! ### Evaluation -/

/-- Inputs of one evaluation: `ff` is the feed-forward term, `ffOld` the one that the old descriptor gives in the first
evaluation after a swap, `lead` the state `l` where a recovery sets it (R197, R208, R212). -/
structure EvalIn where
  x : F32
  sp : F32
  ff : F32
  ffOld : F32
  wgrid : F32
  h : F32
  n : Nat
  lead : Option F32 := none
  deriving DecidableEq, Repr

/-- What the law gives before anything is written: the new state, v, and whether a run-time limit applied. -/
structure EvalOut where
  st : LoopState
  v : F32
  ff : F32
  limited : Bool
  bad : Bool
  deriving DecidableEq, Repr

/-- One resonant term: y and z updated (R197). -/
def resonant (h wc kres e w y z : F32) : F32 × F32 :=
  let y' := fFma h (fSub (fMul (fMul f2 wc) (fSub (fMul kres e) y)) (fMul w z)) y
  let z' := fFma (fMul h w) y' z
  (y', z')

/-- The set-point after the slew limit (R197). -/
def slewed (en : Bool) (up down : F32) (n : Nat) (spEff sp : F32) : F32 :=
  if en then
    if fLt spEff sp then fMin sp (fFma (fOfNat n) up spEff) else fMax sp (fFma (fNeg (fOfNat n)) down spEff)
  else sp

/-- The law of loop `d` in bank `b` up to v (R197); from rest the set-point in effect is the feedback, so that the first
output is the feed-forward term alone (R200). -/
def State.lawEval (s : State) (b d : Nat) (x : LoopState) (i : EvalIn) : EvalOut :=
  let C := s.coef b d
  let law := s.law b d
  let ff := i.ff
  let spEff := if x.live then slewed (s.flag b d 3) (C 68) (C 72) i.n x.spEff i.sp else i.x
  let x := { x with spEff := spEff, live := true }
  let e := fSub spEff i.x
  if law = 4 then
    let den := fFma f2 (C 36) i.h
    let b0 := fDiv (fMul (C 20) (fFma f2 (C 32) i.h)) den
    let b1 := fDiv (fMul (C 20) (fFma (fNeg f2) (C 32) i.h)) den
    let a1 := fDiv (fFma (fNeg f2) (C 36) i.h) den
    let l := i.lead.getD (fFma (fNeg a1) x.lead (fFma b1 x.ePrev (fMul b0 e)))
    { st := { x with lead := l, ePrev := e }, v := fAdd l ff, ff := ff, limited := false, bad := false }
  else
    let p := fMul (C 20) e
    let invh := fDiv f1 i.h
    let w (j : Nat) := fMul (fOfNat (s.descByte b d (56 + j))) i.wgrid
    let nr := if law = 2 then s.nres b d else 0
    let r0 := resonant i.h (C 40) (C 44) e (fMin (w 0) invh) x.y0 x.z0
    let r1 := resonant i.h (C 40) (C 48) e (fMin (w 1) invh) x.y1 x.z1
    let r2 := resonant i.h (C 40) (C 52) e (fMin (w 2) invh) x.y2 x.z2
    let x := if 0 < nr then { x with y0 := r0.1, z0 := r0.2 } else x
    let x := if 1 < nr then { x with y1 := r1.1, z1 := r1.2 } else x
    let x := if 2 < nr then { x with y2 := r2.1, z2 := r2.2 } else x
    let wlim := (List.range nr).any fun j => fLt invh (w j)
    let ysum := fSum ((if 0 < nr then [x.y0] else []) ++ (if 1 < nr then [x.y1] else []) ++ (if 2 < nr then [x.y2] else []))
    let g := if s.flag b d 4 then fNeg i.x else e
    let den := fAdd (C 36) i.h
    let x := if law = 3 then
        { x with dterm := fFma (fDiv (C 32) den) (fSub g x.gPrev) (fMul (fDiv (C 36) den) x.dterm), gPrev := g } else x
    let dt := if law = 3 then x.dterm else 0#32
    let v := fAdd (fAdd (fAdd (fAdd p x.integ) ysum) dt) ff
    let bad := [x.y0, x.y1, x.y2, x.z0, x.z1, x.z2, x.dterm].any fun q => !fFinite q
    { st := x, v := v, ff := ff, limited := wlim || fLt (fDiv fHalf i.h) (C 28), bad := bad }

/-- The integrator after back-calculation against `u` (R197). -/
def State.integrate (s : State) (b d : Nat) (h e integ u v : F32) : F32 :=
  fFma h (fFma (fMin (s.coef b d 28) (fDiv fHalf h)) (fSub u v) (fMul (s.coef b d 24) e)) integ

/-- The first evaluation of a loop carried over a swap: the integrator recomputed on the present error and
feed-forward, or the saturated hold entered (R208, R209). -/
def State.bumpOver (s : State) (b d : Nat) (x : LoopState) (i : EvalIn) : LoopState :=
  match x.carry with
  | none => x
  | some c =>
    let y := { x with carry := none }
    if s.law b d = 4 then y
    else
      let e := fSub (slewed (s.flag b d 3) (s.coef b d 68) (s.coef b d 72) i.n x.spEff i.sp) i.x
      if x.atLimit then
        let held := fClamp (s.coef b d 76) (s.coef b d 80) x.out
        { y with hold := some (held, c.upper, if fIsZero e then c.upper else !fSign e) }
      else { y with integ := fAdd (fFma (fSub c.kp (s.coef b d 20)) e x.integ) (fSub i.ffOld i.ff) }

/-- Queue an engine event that names a loop. -/
def State.loopEvent (s : State) (code d : Nat) : State := s.event 2 code [(16, 2, d)]

/-- Output of loop `d` written to its slot (R197, R201). -/
def State.writeOut (s : State) (b d : Nat) (u : F32) (q : BitVec 8) (half : Bool) : State :=
  let slot := s.descHalf b d 10
  if s.slotKind slot = 4 then s.putSlot slot u (qValid ||| q ||| (if half then qHalf else 0)) s.sys.k else s

/-- LSTAT of loop `d` made to agree with its state. -/
def State.showLoop (s : State) (d : Nat) (limited half : Bool) : State :=
  let x := s.loopAt d
  let st := if x.suspended then 6 else if x.policy ≠ 0 then (if 0 < x.clean then 7 else x.policy) else 1
  let s := ((s.wr (R.LOOP_LSTAT_STATE d) st).wrB (R.LOOP_LSTAT_HALF d) half).wrB (R.LOOP_LSTAT_LIMITED_RUN d) limited
  ((s.wrB (R.LOOP_LSTAT_AT_LIMIT d) x.atLimit).wrB (R.LOOP_LSTAT_HELD_SAT d) x.hold.isSome).wrB
    (R.LOOP_LSTAT_SUBSTITUTED d) (decide (x.policy = 4))

/-- Is a slot lost for loop `d`? (R210): 0 no, else the cause of Table 7.12 (1 stale, 2 invalid). -/
def State.inputLost (s : State) (b d slot : Nat) (half : Bool) : Nat :=
  let ma := s.descByte b d 16
  let lim := if half then 2 * ma + 1 else ma
  if !s.slotGood slot then 2
  else if s.slotKind slot ≠ 1 && ma ≠ 0 && decide (lim < s.slotAge slot) then 1
  else 0

/-- The stuck detector of loop `d` on a slot (R210): the new count, `prev` and `cycle` being the slot's value and the
cycle of its writing, plus one, at the previous evaluation. -/
def State.stuckOn (s : State) (view : State) (b d slot : Nat) (x : LoopState) (prev : F32) (cycle cnt : Nat) : Nat :=
  if s.descByte b d 17 = 0 then 0
  else match view.slot? slot with
    | some q =>
      if decide (x.last ≠ 0) && decide (cycle < q.k + 1) && decide (q.value = prev) && fLt (s.coef b d 92) (fAbs x.out)
        then min 255 (cnt + 1) else 0
    | none => 0

/-- The cycle a slot was written in, plus one; 0 never. -/
def State.slotWrite (s : State) (slot : Nat) : Nat :=
  match s.slot? slot with
  | some q => q.k + 1
  | none => 0

/-- The stuck count of a loop's feedback (R210). -/
def State.stuckCount (s : State) (view : State) (b d : Nat) (x : LoopState) : Nat :=
  s.stuckOn view b d (s.descHalf b d 6) x x.fbPrev x.fbCycle (s.rd (R.LOOP_LSTAT_STUCK_CNT d))

/-- Entry to policy `pol` (0 RAMP_TO_SAFE, 1 HOLD_OUTPUT, 2 SUBSTITUTE, 3 TRIP): the event, the fault, the counter
(R211, Table 7.11). -/
def State.enterPolicy (s : State) (d pol cause : Nat) (x : LoopState) : State × LoopState :=
  let code := match pol with | 0 => 3 | 1 => 2 | 2 => 4 | _ => 5
  let s := s.inc (R.LOOP_LSTAT_LOSS_CNT d)
  let s := s.event 2 1 [(16, 2, d), (18, 1, cause), (19, 1, pol)]
  let s := s.raise (if pol = 3 then 0x044 else if cause = 3 then 0x041 else 0x040) d
  (s, { x with policy := code, clean := 0, cleared := false, hold := none, subCnt := 0, subCycle := s.sys.k + 1 })

/-- Output under RAMP_TO_SAFE: toward SAFE_VALUE by n × SAFE_RAMP, or there at once (Table 7.11). -/
def rampToward (target step : F32) (n : Nat) (u : F32) : F32 :=
  if fIsZero step then target
  else if fLt u target then fMin target (fFma (fOfNat n) step u)
  else fMax target (fFma (fNeg (fOfNat n)) step u)

/-- The saturated hold, the clamp and the integrator: the loop's new state, its output, and whether a limit holds it
(R197, R209). -/
def State.limitOut (s : State) (b d : Nat) (i : EvalIn) (r : EvalOut) : LoopState × F32 × Bool :=
  let e := fSub r.st.spEff i.x
  let C := s.coef b d
  match r.st.hold with
  | some (hv, upper, pos) =>
    let ends := (!fIsZero e && fSign e == pos) || (if upper then fLt r.v hv else fLt hv r.v)
    if ends then
      let beyond := if upper then fLt hv r.v else fLt r.v hv
      let integ := if beyond then fAdd r.st.integ (fSub hv r.v) else r.st.integ
      let v := if beyond then hv else r.v
      let u := fClamp (C 76) (C 80) v
      let lim := decide (u ≠ v)
      ({ r.st with hold := none, integ := s.integrate b d i.h e integ u v, out := u, atLimit := lim }, u, lim)
    else ({ r.st with integ := s.integrate b d i.h e r.st.integ hv r.v, out := hv, atLimit := true }, hv, true)
  | none =>
    let u := fClamp (C 76) (C 80) r.v
    let lim := decide (u ≠ r.v)
    let y := { r.st with out := u, atLimit := lim }
    (if s.law b d = 4 then { y with lead := fSub u r.ff }
      else { y with integ := s.integrate b d i.h e r.st.integ u r.v }, u, lim)

/-- What a loop keeps whose evaluation met a value that is not finite (R198). -/
def keepFinite (x : LoopState) (r : EvalOut) : LoopState :=
  let z (q : F32) : F32 := if fFinite q then q else 0
  if r.bad then
    { x with y0 := if fFinite r.st.y0 then x.y0 else 0, y1 := if fFinite r.st.y1 then x.y1 else 0
             y2 := if fFinite r.st.y2 then x.y2 else 0, z0 := if fFinite r.st.z0 then x.z0 else 0
             z1 := if fFinite r.st.z1 then x.z1 else 0, z2 := if fFinite r.st.z2 then x.z2 else 0
             dterm := if fFinite r.st.dterm then x.dterm else z r.st.dterm }
  else x

/-- The law evaluated normally on the state `y`, with the saturated hold, the clamp, the integrator, and the faults of
R198, after which the loop has its state `x` from before the evaluation. -/
def State.evalNormal (s : State) (b d : Nat) (x y : LoopState) (i : EvalIn) (qual : BitVec 8) (half : Bool) : State :=
  let r := s.lawEval b d y i
  if !fFinite r.v || r.bad then
    let s := (s.setLoop d (keepFinite x r)).wrB (R.LOOP_LSTAT_NAN_SEEN d) true
    let s := (s.loopEvent 7 d).raise 0x042 d
    (s.writeOut b d x.out (qual ||| qHeld) half).showLoop d r.limited half
  else
    let o := s.limitOut b d i r
    ((s.setLoop d o.1).writeOut b d o.2.1 (qual ||| (if o.2.2 then qLimit else 0)) half).showLoop d r.limited half

/-- The evaluation that returns a loop to normal: the integrator recomputed, or the state `l` set, so that v equals the
output in force (R212, R213). -/
def State.evalRecovered (s : State) (b d : Nat) (x : LoopState) (i : EvalIn) (half : Bool) : State :=
  let x := { x with hold := none, carry := none }
  if s.law b d = 4 then s.evalNormal b d x x { i with lead := some (fSub x.out i.ff) } 0 half
  else
    let r := s.lawEval b d x i
    s.evalNormal b d x { x with integ := fAdd x.integ (fSub x.out r.v) } i 0 half

/-- Feed-forward term and grid frequency, frozen when lost (R210). -/
structure Forward where
  ff : F32
  ffOld : F32
  wgrid : F32
  wLost : Bool
  stale : Bool

/-- The feed-forward term and the grid frequency of an evaluation (R210). The term that the old descriptor gives after
a swap is formed on the present feed-forward input, that of the new FF_SLOT where the new descriptor has one (R208).
-/
def State.forwardIn (s : State) (view : State) (b d : Nat) (x : LoopState) (half : Bool) : Forward :=
  let en := s.flag b d 2
  let ffS := s.descHalf b d 8
  let fq := s.descHalf b d 14
  let ffLost := en && decide (view.inputLost b d ffS half ≠ 0)
  let wSlot := decide (s.law b d = 2) && s.flag b d 5
  let wLost := wSlot && !view.slotGood fq
  let ff := if !en then 0#32 else if ffLost then x.ffLast else fMul (s.coef b d 64) (view.slotValue ffS)
  let old : F32 := match x.carry with
    | some { kff := some k, ffSlot := q, .. } =>
      if ffLost || (!en && !view.slotGood q) then x.ffLast else fMul k (view.slotValue (if en then ffS else q))
    | _ => if ffLost then ff else 0#32
  { ff := ff, ffOld := old
    wgrid := if wSlot then (if wLost then x.wLast.getD (s.coef b d 60) else view.slotValue fq) else s.coef b d 60
    wLost := wLost || !wSlot, stale := ffLost || wLost }

/-- A loop under SUBSTITUTE falls to RAMP_TO_SAFE when SUB_SLOT is lost or stuck or SP_SLOT is lost (Table 7.11). -/
def State.judgeSub (s : State) (view : State) (b d : Nat) (x : LoopState) (spLost half : Bool) : State × LoopState :=
  let slot := s.descHalf b d 12
  let cnt := s.stuckOn view b d slot x x.subPrev x.subCycle x.subCnt
  let lost := view.inputLost b d slot half
  let fall := if x.policy ≠ 4 then 0 else if spLost then 4 else if lost ≠ 0 then lost
    else if s.descByte b d 17 ≠ 0 ∧ s.descByte b d 17 ≤ cnt then 3 else 0
  let x := { x with subPrev := view.slotValue slot, subCycle := view.slotWrite slot, subCnt := cnt }
  if fall = 0 then (s, x) else s.enterPolicy d 0 fall x

/-- The output of a loop whose policy is in force (Table 7.11). -/
def State.policyOut (s : State) (view : State) (b d : Nat) (x : LoopState) (i : EvalIn) (half : Bool) : State :=
  if x.policy = 4 then
    s.evalNormal b d x (s.bumpOver b d x { i with x := view.slotValue (s.descHalf b d 12) })
      { i with x := view.slotValue (s.descHalf b d 12) } qSub half
  else
    let u := if x.policy = 5 then s.coef b d 84
      else if x.policy = 3 then rampToward (s.coef b d 84) (s.coef b d 88) i.n x.out
      else x.out
    ((s.setLoop d { x with out := u, carry := none }).writeOut b d u qHeld half).showLoop d false half

/-- A loop whose policy is in force: it recovers after four clean evaluations, else the policy gives its output
(R211, R212). -/
def State.underPolicy (s : State) (view : State) (b d : Nat) (x : LoopState) (i : EvalIn) (cause : Nat) (spLost : Bool)
    (half : Bool) : State :=
  let moved := x.moved || match x.stuckAt with
    | some q => decide (q ≠ i.x)
    | none => true
  let x : LoopState := { x with clean := if cause = 0 then x.clean + 1 else 0, moved := moved, resumes := false }
  if 4 ≤ x.clean && moved && (x.policy ≠ 5 || x.cleared) then
    let y := { x with policy := 0, clean := 0, stuckAt := none, moved := false, cleared := false }
    (s.evalRecovered b d y i half).loopEvent 2 d
  else
    let q := s.judgeSub view b d x spLost half
    q.1.policyOut view b d q.2 i half

/-- FF_STALE shown, with its event when it rises (R210). -/
def State.noteStale (s : State) (d : Nat) (stale : Bool) : State :=
  (s.when (stale && !s.is (R.LOOP_LSTAT_FF_STALE d)) fun s => s.loopEvent 6 d).wrB (R.LOOP_LSTAT_FF_STALE d) stale

/-- Why a loop's inputs are unusable (R211): the loss of FB, 3 a stuck FB, 4 the loss of SP; 0 they are usable. -/
def State.lossCause (s : State) (view : State) (b d cnt : Nat) (half : Bool) : Nat :=
  let fb := view.inputLost b d (s.descHalf b d 6) half
  let stuckN := s.descByte b d 17
  if fb ≠ 0 then fb else if decide (stuckN ≠ 0) && decide (stuckN ≤ cnt) then 3
  else if view.inputLost b d (s.descHalf b d 4) half ≠ 0 then 4 else 0

/-- What a loop remembers of the inputs of this evaluation (R210). -/
def State.remember (s : State) (view : State) (b d : Nat) (x : LoopState) (f : Forward) (cause : Nat) : LoopState :=
  { x with
    ffLast := f.ff, wLast := if f.wLost then x.wLast else some f.wgrid
    lostNow := decide (cause ≠ 0)
    fbPrev := view.slotValue (s.descHalf b d 6)
    fbCycle := view.slotWrite (s.descHalf b d 6)
    last := s.sys.k + 1 }

/-- The evaluation on inputs taken in: normal, under a policy, the entry to one, or the return from a suspension
(R197, R211, R213). -/
def State.evalOn (s : State) (view : State) (b d : Nat) (x : LoopState) (i : EvalIn) (cause : Nat) (half : Bool) : State :=
  let spLost := decide (view.inputLost b d (s.descHalf b d 4) half ≠ 0)
  if x.policy ≠ 0 then s.underPolicy view b d x i cause spLost half
  else if cause ≠ 0 then
    let x := { x with stuckAt := if cause = 3 then some i.x else none, moved := false }
    let (s, x) := s.enterPolicy d (s.descByte b d 3 % 4) cause x
    s.underPolicy view b d x i cause spLost half
  else if x.resumes then s.evalRecovered b d { x with resumes := false } i half
  else s.evalNormal b d x (s.bumpOver b d x i) i 0 half

/-- One evaluation of loop `d` of the bank in force; `view` holds the slots as the stage began (R197, R201, R210 to
R213). -/
def State.evalLoop (s : State) (view : State) (d : Nat) (h : F32) (n : Nat) (half : Bool) : State :=
  let b := s.bank
  let x := s.loopAt d
  let f := s.forwardIn view b d x half
  let cnt := s.stuckCount view b d x
  let s := (s.noteStale d f.stale).wr (R.LOOP_LSTAT_STUCK_CNT d) cnt
  let cause := s.lossCause view b d cnt half
  let y := s.remember view b d x f cause
  let i : EvalIn := { x := y.fbPrev, sp := view.slotValue (s.descHalf b d 4), ff := f.ff, ffOld := f.ffOld
                      wgrid := f.wgrid, h := h, n := n }
  s.evalOn view b d y i cause half

/-- Service of the pound a bound loop follows: none unbound, else 0 FULL, 1 HALF, 2 OUT or disabled (R213). -/
def State.loopService (s : State) (b d : Nat) : Option Nat :=
  let p := s.descByte b d 18 % 16
  if s.descByte b d 18 < 128 then none
  else if s.rd (R.CELL_POUND_STAT_STATE p) = 0 then some 2
  else some (s.rd (R.CNL_POUND_STAT_SERVICE p))

/-- Loop `d` in the compute window: evaluated with its step, skipped in the idle cycle of a HALF pound, or suspended
(R213). -/
def State.runLoop (s : State) (view : State) (d : Nat) : State :=
  let b := s.bank
  let x := s.loopAt d
  let h1 := fSeconds s.periodNs
  let h2 := fSeconds (2 * s.periodNs)
  let here := s.setLoop d { x with suspended := false }
  match s.loopService b d with
  | some 1 =>
    if s.sys.k % 2 ≠ s.rd (R.CNL_POUND_STAT_PAR (s.descByte b d 18 % 16)) then here.evalLoop view d h2 2 true
    else here.showLoop d (s.is (R.LOOP_LSTAT_LIMITED_RUN d)) true
  | some 2 => (s.setLoop d { x with suspended := true, resumes := x.live }).showLoop d false false
  | _ => if s.is (R.LOOP_LSTAT_HALF d) then here.evalLoop view d h2 2 false else here.evalLoop view d h1 1 false

/-- ACTIVE of the feedback sources: each stands while some loop's feedback is still lost or stuck (R212, R400). -/
def State.judgeFeedback (s : State) : State :=
  let lost (f : LoopState → Bool) := s.loop.loops.any fun (d, x) =>
    s.enabled s.bank d && decide (x.policy ≠ 0) && decide (x.clean = 0) && f x
  ((s.setActive 0x040 (lost fun x => decide (x.policy ≠ 5) && x.stuckAt.isNone)).setActive 0x041
    (lost fun x => decide (x.policy ≠ 5) && x.stuckAt.isSome)).setActive 0x044 (lost fun x => decide (x.policy = 5))

/-- The mismatches of the 1,024-cycle window that ends with the present cycle, shown (R214, Table 7.20). -/
def State.showWindow (s : State) : State :=
  let recent := s.loop.mismatches.filter fun k => s.sys.k < k + 1024
  ({ s with loop := { s.loop with mismatches := recent } }).wr R.LOOP_LOCKSTEP_WINDOW (min 255 recent.length)

/-- A lockstep mismatch on loop `d` (0xFFFF none): nothing of the cycle is committed (R214). -/
def State.lockstepMismatch (s : State) (d : Nat) : State :=
  let recent := s.loop.mismatches ++ [s.sys.k]
  let s := ({ s with loop := { s.loop with mismatches := recent } }.showWindow).inc R.LOOP_LOCKSTEP_MISMATCH
  let s := s.event 2 5 [(16, 1, min 255 s.loop.mismatches.length), (18, 2, d)]
  let s := s.raise 0x045 (if d = 0xFFFF then 0 else d)
  if 3 ≤ s.loop.mismatches.length then
    ({ s with loop := { s.loop with dead := true } }).raise 0x047 0
  else s

/-- The comparator self-test after the last stage of the cycles of R215. -/
def State.selfTest (s : State) (flagged : Bool) : State :=
  if !s.loop.evaluated || s.cycleNum = 0 then
    let s := { s with loop := { s.loop with evaluated := true } }
    let s := s.wrB R.LOOP_LOCKSTEP_SELFTEST_OK flagged
    if flagged then s else s.raise 0x048 0
  else s

/-- May the engine evaluate now? In RUN, LE on its own loop, not dead, not halted (Table 3.16, R70, R214, R417). -/
def State.engineRuns (s : State) : Bool :=
  decide (s.power = .run) && !s.onBackup 0 && !s.loop.dead && s.loop.halted.isNone

end Sys2Proof.Machine
end

