-- ==== Sys2Proof/Machine/Manager.lean ====
section
/-! DEFINITION. The Phase-leg and Cell Manager: cell roles, legs, coverage, carriers, failed cells, the frame
unit, and the commands formed for the cells (R219 to R238). -/

set_option Elab.async false

namespace Sys2Proof.Machine

open Sys2Proof

/-! ### Cells, pounds, legs -/

/-- Manager state of cell `g`. -/
def State.cellAt (s : State) (g : Nat) : CellSt := SMap.get (fun _ => {}) s.cell.cells g

/-- The state with cell `g` changed. -/
def State.modCell (s : State) (g : Nat) (f : CellSt → CellSt) : State :=
  { s with cell := { s.cell with cells := SMap.put (fun _ => {}) s.cell.cells g (f (s.cellAt g)) } }

/-- Manager state of pound `p`. -/
def State.pmgr (s : State) (p : Nat) : PoundMgr := SMap.get (fun _ => {}) s.cell.pounds p

/-- The state with pound `p`'s Manager state changed. -/
def State.modPmgr (s : State) (p : Nat) (f : PoundMgr → PoundMgr) : State :=
  { s with cell := { s.cell with pounds := SMap.put (fun _ => {}) s.cell.pounds p (f (s.pmgr p)) } }

/-- Manager state of leg `l`. -/
def State.legAt (s : State) (l : Nat) : LegSt := SMap.get (fun _ => {}) s.cell.legs l

/-- The state with leg `l` changed. -/
def State.modLeg (s : State) (l : Nat) (f : LegSt → LegSt) : State :=
  { s with cell := { s.cell with legs := SMap.put (fun _ => {}) s.cell.legs l (f (s.legAt l)) } }

/-- Cell roles (Table 8.1). -/
inductive CellRole where
  | none | disabled | charging | ready | active | rejoining | parked | failed | out | sluicing
  deriving DecidableEq, Repr

/-- ROLE encoding (Table 8.1). -/
def CellRole.code : CellRole → Nat
  | .none => 0 | .disabled => 1 | .charging => 2 | .ready => 3 | .active => 4
  | .rejoining => 5 | .parked => 6 | .failed => 7 | .out => 8 | .sluicing => 9

/-- Role of an encoding; others are reserved and never held. -/
def CellRole.ofCode : Nat → CellRole
  | 1 => .disabled | 2 => .charging | 3 => .ready | 4 => .active | 5 => .rejoining
  | 6 => .parked | 7 => .failed | 8 => .out | 9 => .sluicing | _ => .none

/-- Role of cell `g`. -/
def State.cellRole (s : State) (g : Nat) : CellRole := CellRole.ofCode (s.rd (R.CELL_CELL_STAT_ROLE g))

/-- Cells of pound `p`, ascending. -/
def poundCells (p : Nat) : List Nat := (List.range 16).map fun i => 16 * p + i

/-- Pounds of leg `l` (Table 0.1). -/
def State.legPounds (s : State) (l : Nat) : List Nat :=
  if s.isFull then [4 * l, 4 * l + 1, 4 * l + 2, 4 * l + 3] else [2 * l, 2 * l + 1]

/-- Cells of leg `l`, ascending. -/
def State.legCells (s : State) (l : Nat) : List Nat := (s.legPounds l).flatMap poundCells

/-- Every cell position fused on. -/
def State.allCells (s : State) : List Nat := s.poundList.flatMap poundCells

/-- Cells among `gs` in one of the roles. -/
def State.cellsIn (s : State) (gs : List Nat) (rs : List CellRole) : List Nat :=
  gs.filter fun g => rs.contains (s.cellRole g)

/-- ACTIVE cells of a leg, by rank. -/
def State.activeOf (s : State) (l : Nat) : List Nat := s.cellsIn (s.legCells l) [.active]

/-- N_AVAIL of a leg (R219). -/
def State.nAvail (s : State) (l : Nat) : Nat := (s.cellsIn (s.legCells l) [.active, .ready]).length

/-- Grid mode in force: 0 IDLE, 1 FOLLOW, 2 FORM, 3 BLACKSTART. -/
def State.grid (s : State) : Nat := s.rd R.CELL_STAT_GRID

/-- STATE of a pound without its OUT bit: 0 DISABLED, 1 CHARGING, 2 READY, 3 ACTIVE, 4 STOPPING (Table 8.25). -/
def State.poundState (s : State) (p : Nat) : Nat := s.rd (R.CELL_POUND_STAT_STATE p) % 8

/-- The state with a pound in another STATE, reported by POUND_STATE with its cause (Table 8.12). -/
def State.setPound (s : State) (p st cause : Nat) : State :=
  let old := s.rd (R.CELL_POUND_STAT_STATE p)
  let new := old / 8 * 8 + st
  if old = new then s
  else (s.wr (R.CELL_POUND_STAT_STATE p) new).event 3 1 [(16, 1, p), (17, 1, old), (18, 1, new), (19, 1, cause)]

/-- CELL_ROLE (Table 8.12). -/
def State.roleEvent (s : State) (g : Nat) (old new : CellRole) (cause : Nat) : State :=
  s.event 3 2 [(16, 2, g), (18, 1, old.code), (19, 1, new.code), (20, 2, cause)]

/-- Cell `g` takes a role, with what the role starts from. -/
def State.setRole (s : State) (g : Nat) (r : CellRole) : State :=
  let now := s.tsn.local_
  let k := s.sys.k
  let old := s.cellRole g
  let s := s.wr (R.CELL_CELL_STAT_ROLE g) r.code
  s.modCell g fun c =>
    let c := { c with charged := 0, step := if r = .rejoining then 1 else 0, levelled := false, wrong := 0 }
    let c := if r = .rejoining || r = .sluicing then
        { c with since := now, sinceK := k, former := if old = .out then CellRole.parked.code else old.code } else c
    if r = .parked || r = .failed then c else { c with bypassAt := none, bypassTold := false }

/-- Several cells take a role. -/
def State.setRoles (s : State) (gs : List Nat) (r : CellRole) : State := each gs (fun s g => s.setRole g r) s

/-! ### Carriers and redistribution (R225) -/

/-- Fraction of an exact value, 0 to 1. -/
def ratFrac (q : Rat) : Rat := q - (q.floor : Rat)

/-- The shorter arc to a carrier target: −1/2 to 1/2. -/
def shortArc (d : Rat) : Rat := let f := ratFrac (d + 1 / 2); f - 1 / 2

/-- Carrier offset in units of 1/65,536 of a period, rounded. -/
def phaseUnits (q : Rat) : Nat := (roundRat (65536 * q) % 65536).toNat

/-- Target of rank `r` of `n` (R225). -/
def State.carrierTarget (s : State) (r n : Nat) : Rat :=
  (r : Rat) / ((if s.is R.CELL_CTL_SPREAD then n else 2 * n : Nat) : Rat)

/-- Was a redistribution called for: N_ACTIVE or a rank of the leg differs from those shown? -/
def State.ranksChanged (s : State) (l : Nat) : Bool :=
  let act := s.activeOf l
  (s.legCells l).any fun g =>
    s.rd (R.CELL_CELL_STAT_RANK g) ≠ (match act.idxOf? g with | some r => r | none => 255)

/-- N_ACTIVE, N_AVAIL and N_FAILED of a leg (Table 8.24). -/
def State.showCounts (s : State) (l : Nat) : State :=
  let s := s.wr (R.CELL_LEG_STAT_N_ACTIVE l) (s.activeOf l).length
  let s := s.wr (R.CELL_LEG_STAT_N_AVAIL l) (s.nAvail l)
  s.wr (R.CELL_LEG_STAT_N_FAILED l) (s.cellsIn (s.legCells l) [.failed]).length

/-- Cell `g` without a place among the active cells of its leg. -/
def State.unrank (s : State) (g : Nat) : State :=
  ((s.wr (R.CELL_CELL_STAT_RANK g) 255).wr (R.CELL_CELL_STAT_PHASE g) 0).modCell g fun c => { c with phi := 0, phiStep := 0 }

/-- Cell `g` at rank `r` of `n`: at its carrier target at once when it joins, else on its way there (R225). -/
def State.rankCell (s : State) (g r n steps : Nat) : State :=
  let t := s.carrierTarget r n
  let joins := s.rd (R.CELL_CELL_STAT_RANK g) = 255
  let s := s.modCell g fun c => if joins then { c with phi := t, phiStep := 0 }
    else { c with phiStep := shortArc (t - c.phi) / (steps : Rat) }
  (s.wr (R.CELL_CELL_STAT_RANK g) r).wr (R.CELL_CELL_STAT_PHASE g) (phaseUnits (s.cellAt g).phi)

/-- A leg's ranks and carrier targets after its roles have changed; a redistribution starts when a rank or N_ACTIVE
has changed (R225). -/
def State.regroup (s : State) (l : Nat) : State :=
  let s := s.showCounts l
  if !s.ranksChanged l then s
  else
    let act := s.activeOf l
    let steps := s.rd R.CELL_CTL_REDIST
    let moving := act.any fun g => s.rd (R.CELL_CELL_STAT_RANK g) ≠ 255
    let s := each (s.legCells l) (fun s g =>
      match act.idxOf? g with
      | none => s.unrank g
      | some r => s.rankCell g r act.length steps) s
    let s := s.wr (R.CELL_LEG_STAT_REDIST_LEFT l) (if moving then steps else 0)
    s.modLeg l fun x => { x with redist := if moving then some s.sys.k else none }

/-- Every leg regrouped. -/
def State.regroupAll (s : State) : State := each [0, 1, 2] State.regroup s

/-- One redistribution step of a leg, taken as its commands are formed (R225). -/
def State.stepCarriers (s : State) (l : Nat) : State :=
  let left := s.rd (R.CELL_LEG_STAT_REDIST_LEFT l)
  if left = 0 then s
  else
    let s := each (s.activeOf l) (fun s g =>
      let s := s.modCell g fun c =>
        { c with phi := ratFrac (c.phi + c.phiStep), phiStep := if left = 1 then 0 else c.phiStep }
      s.wr (R.CELL_CELL_STAT_PHASE g) (phaseUnits (s.cellAt g).phi)) s
    s.wr (R.CELL_LEG_STAT_REDIST_LEFT l) (left - 1)

/-- REDIST_DONE at the APPLY mark at which the carriers are at their targets (R231). -/
def State.redistDone (s : State) (l : Nat) : State :=
  match (s.legAt l).redist with
  | none => s
  | some k0 =>
    if s.rd (R.CELL_LEG_STAT_REDIST_LEFT l) ≠ 0 then s
    else
      let s := s.modLeg l fun x => { x with redist := none }
      s.event 3 3 [(16, 1, l), (17, 1, s.rd (R.CELL_LEG_STAT_N_ACTIVE l)), (18, 2, s.sys.k + 1 - k0)]

/-! ### What a leg can carry (R236 to R238) -/

/-- VPK of a leg (R236). -/
def State.vpk (s : State) (l : Nat) : F32 :=
  let x := s.rd (R.CELL_LEG_CTL_VPK_SLOT l)
  if s.slotGood x && decide (s.slotAge x ≤ 16) then s.slotValue x else s.f32 R.CELL_VPK_FIX

/-- V_SYNTH with `n` cells available, rounded once where its factors are finite. -/
def State.vSynth (s : State) (n : Nat) : F32 :=
  let m := s.f32 R.CELL_M_MAX
  let v := s.f32 R.CELL_VDC_MAX
  if fFinite m && fFinite v then fOfRat (fRat m * n * fRat v) else fMul (fMul m (fOfNat n)) v

/-- V_REQ of a leg, rounded once where its factors are finite. -/
def State.vReq (s : State) (l : Nat) : F32 :=
  let v := s.vpk l
  let m := s.f32 R.CELL_VMARGIN
  if fFinite v && fFinite m then fOfRat (fRat v * (1 + fRat m)) else fMul v (fAdd f1 m)

/-- Would the leg be covered with `n` cells available? -/
def State.coveredWith (s : State) (l n : Nat) : Bool := fLe (s.vReq l) (s.vSynth n)

/-- Is the leg covered? (R236) -/
def State.covered (s : State) (l : Nat) : Bool := s.coveredWith l (s.nAvail l)

/-- DERATE of a leg (Table 8.3). -/
def State.derate (s : State) (l : Nat) : F32 :=
  fMin f1 (fDiv (fOfNat (s.nAvail l)) (fOfNat (s.rd (R.CELL_LEG_CTL_N_NEED l))))

/-- The state with a leg's COND changed and reported (Table 8.12). -/
def State.setCond (s : State) (l c : Nat) : State :=
  let old := s.rd (R.CELL_LEG_STAT_COND l)
  if old = c then s
  else
    let s := (s.wr (R.CELL_LEG_STAT_COND l) c).event 3 4 [(16, 1, l), (17, 1, old), (18, 1, c),
      (20, 4, (s.vSynth (s.nAvail l)).toNat), (24, 4, (s.vReq l).toNat)]
    if c = 1 then s.raise 0x061 l else s

/-- Power set-points in force: slot and value of each enabled POWER-class entry (R258). -/
def State.powerSetpoints (s : State) : List (Nat × F32) :=
  ((List.range 16).filter fun n => s.is (R.NRG_SPCLASS_EN n) && decide (s.rd (R.NRG_SPCLASS_CLASS n) = 3)).map
    fun n => let x := s.rd (R.NRG_SPCLASS_SLOT n); (x, s.setpoint x)

/-- The shut-down to IDLE starts, or the legs on whose account it runs are added (R238, R241). -/
def State.startShutDown (s : State) (legs : BitVec 3) : State :=
  match s.cell.shut with
  | some x => { s with cell := { s.cell with shut := some { x with legs := x.legs ||| legs } } }
  | none =>
    let x : ShutDown := { since := s.plantNs, start := s.powerSetpoints, legs := legs }
    ({ s with cell := { s.cell with shut := some x } }).wrB R.CELL_STAT_SHUTDOWN true

/-- A leg's condition judged at a SAMPLE mark (R236 to R238). -/
def State.judgeLeg (s : State) (l : Nat) : State :=
  let n := s.nAvail l
  let cov := s.covered l
  let need := s.rd (R.CELL_LEG_CTL_N_NEED l)
  let c := s.rd (R.CELL_LEG_STAT_COND l)
  let s := (s.wr (R.CELL_LEG_VSYN l) (s.vSynth n).toNat).showCounts l
  let s := s.modLeg l fun x => { x with unc := if cov || s.grid = 0 then 0 else x.unc + 1 }
  if c = 4 then s
  else if c = 5 && decide ((s.legAt l).held = (n, s.vpk l)) then s
  else if cov then s.setCond l (if need < n then 0 else if need = n then 1 else 2)
  else if s.rd R.CELL_TIMING_VSYN_N ≤ (s.legAt l).unc && decide (s.grid ≠ 0) then
    (((s.setActive 0x064 true).raise 0x064 l).setCond l 4).startShutDown (BitVec.ofNat 3 (2 ^ l))
  else s.setCond l 3

/-! ### Cell states in slots (R220) -/

/-- The region of KIND 0x2 with the lowest BASE: its base and count. -/
def State.stateRegion (s : State) : Option (Nat × Nat) :=
  ((List.range 16).filter fun n =>
      s.regionUsed n && decide (s.rd (R.LOOP_REGION_KIND n) = 2) && !s.loop.badRegions.getLsbD n).foldl
    (fun b n =>
      let r := (s.rd (R.LOOP_REGION_BASE n), s.rd (R.LOOP_REGION_COUNT n))
      match b with
      | some q => if r.1 < q.1 then some r else b
      | none => some r) none

/-- Slot `j` of cell `g`, when the region holds it. -/
def State.cellSlot (s : State) (g j : Nat) : Option Nat :=
  match s.stateRegion with
  | some (b, n) => if 8 * g + j < n then some (b + 8 * g + j) else none
  | none => none

/-- Value of slot `j` of cell `g`; 0 without one. -/
def State.cellVal (s : State) (g j : Nat) : F32 :=
  match s.cellSlot g j with
  | some x => s.slotValue x
  | none => 0#32

/-- Does the region hold the slots of pound `p`? (R220) -/
def State.regionHolds (s : State) (p : Nat) : Bool :=
  match s.stateRegion with
  | some (_, n) => decide (128 * (p + 1) ≤ n)
  | none => false

/-- A Manager output slot written, with SRC_FAULT unless its value is good (R221, R222). -/
def State.putOut (s : State) (off : Nat) (v : F32) (good : Bool) : State :=
  s.writeSlot 5 (s.rd R.CELL_OUT_OUT_BASE + off) v good s.sys.k

/-- A Manager output slot written, with VALID as `valid` says (Table 8.3, R436). -/
def State.putValid (s : State) (off : Nat) (v : F32) (valid : Bool) : State :=
  s.writeQual 5 (s.rd R.CELL_OUT_OUT_BASE + off) v (if valid then qValid else 0) s.sys.k

/-- VSUM of a leg. -/
def State.vsum (s : State) (l : Nat) : F32 := fSum ((s.activeOf l).map fun g => s.cellVal g 0)

/-- VDC_MEAN of a leg. -/
def State.vmean (s : State) (l : Nat) : F32 := fDiv (s.vsum l) (fOfNat (s.activeOf l).length)

/-- Offsets 0 to 2 and 5 to 7 of leg `l`'s block, built as states are accepted (R221, Table 8.3). -/
def State.writeLegSum (s : State) (l : Nat) : State :=
  let act := s.activeOf l
  let s := s.putOut (8 * l) (s.vsum l) true
  let s := s.putOut (8 * l + 1) (fOfNat act.length) true
  let s := s.putOut (8 * l + 2) (s.f32 (R.CELL_LEG_VSYN l)) true
  let s := s.putValid (8 * l + 5) (s.vmean l) (!act.isEmpty)
  let s := s.putOut (8 * l + 6) (fSum (act.map fun g => s.cellVal g 5)) true
  s.putValid (8 * l + 7) (s.derate l) (decide (s.rd (R.CELL_LEG_CTL_N_NEED l) ≠ 0))

/-- The blocks of the three legs, complete at the close of the uplink window (R221). -/
def State.writeLegSums (s : State) : State := each [0, 1, 2] State.writeLegSum s

/-! ### Frame unit (R222) -/

/-- 2π/3 as binary32. -/
def f2Pi3 : F32 := 0x40060A92#32
/-- 2/3 as binary32. -/
def fTwoThirds : F32 := 0x3F2AAAAB#32

/-- θ advanced and ω taken at a SAMPLE mark. -/
def State.advanceFrame (s : State) : State :=
  if s.is R.CELL_FRAME_FREQ_EN then
    let x := s.rd R.CELL_FRAME_FREQ_FREQ_SLOT
    let bad := !s.slotGood x
    let w := if bad then s.cell.omega else s.slotValue x
    let th := fWrap (fFma w (fSeconds s.periodNs) s.cell.theta)
    { s with cell := { s.cell with theta := th, omega := w, omegaBad := bad } }
  else s

/-- The three angles of a transform. -/
def frameAngles (th : F32) : List F32 := [th, fSub th f2Pi3, fAdd th f2Pi3]

/-- Forward set `n`: d, q and zero, with SRC_FAULT inherited from its three inputs (R222). -/
def State.forward (s : State) (n : Nat) : State :=
  if s.is (R.CELL_FRAME_FWD_EN n) then
    let x := s.rd (R.CELL_FRAME_FWD_A_SLOT n)
    let ins := [x, x + 1, x + 2]
    let v := ins.map s.slotValue
    let ok := !ins.any s.slotFaulty
    let ang := frameAngles s.cell.theta
    let d := fMul fTwoThirds (fSum (List.zipWith fMul v (ang.map fCos)))
    let q := fNeg (fMul fTwoThirds (fSum (List.zipWith fMul v (ang.map fSin))))
    let z := fDiv (fSum v) (fOfNat 3)
    ((s.putOut (26 + 3 * n) d ok).putOut (27 + 3 * n) q ok).putOut (28 + 3 * n) z ok
  else s

/-- Slots 24 to 37, in the first 100 ns of the compute window (R221, R222). -/
def State.runForward (s : State) : State :=
  let s := s.putOut 24 s.cell.theta true
  let s := s.putOut 25 s.cell.omega (!s.cell.omegaBad)
  each [0, 1, 2, 3] State.forward s

/-- The inverse after the last stage: slots 38 to 40 (R222). -/
def State.runInverse (s : State) : State :=
  if s.is R.CELL_FRAME_INV_EN then
    let x := s.rd R.CELL_FRAME_INV_D_SLOT
    let y := s.rd R.CELL_FRAME_INV_ADD_SLOT
    let add := s.is R.CELL_FRAME_INV_ADD_EN
    let ok := !([x, x + 1] ++ if add then [y, y + 1, y + 2] else []).any s.slotFaulty
    let th := fFma s.cell.omega (fSeconds (s.periodNs - 200)) s.cell.theta
    each [(0, th), (1, fSub th f2Pi3), (2, fAdd th f2Pi3)] (fun s (i, a) =>
      let v := fSub (fMul (s.slotValue x) (fCos a)) (fMul (s.slotValue (x + 1)) (fSin a))
      s.putOut (38 + i) (if add then fAdd v (s.slotValue (y + i)) else v) ok) s
  else s

/-! ### Forming the commands (R223, R224) -/

/-- The reference slot of a leg in a grid mode. -/
def State.refSlot (s : State) (mode l : Nat) : Nat :=
  if mode = 1 then s.rd (R.CELL_LEG_SRC0_VREF_FOLLOW l)
  else if mode = 2 then s.rd (R.CELL_LEG_SRC0_VREF_FORM l)
  else s.rd (R.CELL_LEG_SRC1_VREF_BLACK l)

/-- VREF of a leg in a grid mode; 0 in IDLE. -/
def State.vrefOf (s : State) (mode l : Nat) : F32 := if mode = 0 then 0#32 else s.slotValue (s.refSlot mode l)

/-- VREF of a leg after any blend (R240). -/
def State.vref (s : State) (l : Nat) : F32 :=
  match s.cell.blend with
  | some b =>
    let w := fDiv (fOfNat (s.sys.k + 1 - b.since)) (fOfNat (s.rd R.CELL_CTL_XFER))
    fAdd (fMul (fSub f1 w) (s.vrefOf b.old l)) (fMul w (s.vrefOf s.grid l))
  | none => s.vrefOf s.grid l

/-- Sign of a cell's arm current, 0 inside the band (R223). -/
def State.armSign (s : State) (g : Nat) : F32 :=
  let i := s.cellVal g 1
  let m := s.f32 R.CELL_IBAL_MIN
  if fLt m i then f1 else if fLt i (fNeg m) then fNeg f1 else 0#32

/-- Is the value within `b` of `t`? -/
def fWithin (b t x : F32) : Bool := fLe (fAbs (fSub x t)) b

/-- Rejoin target of a cell (R234): VDC_MEAN of the leg outside IDLE, when it has ACTIVE cells; else the nominal. -/
def State.rejoinTarget (s : State) (g : Nat) : F32 :=
  let l := s.legOf (g / 16)
  if s.grid ≠ 0 ∧ (s.activeOf l) ≠ [] then s.vmean l else s.f32 R.CELL_VDC_NOM

/-- DAB phase of a cell charged through its DAB (R227, R234). -/
def State.chargeDab (s : State) (g : Nat) : F32 :=
  let d := s.f32 R.CELL_PRECH_DAB
  if s.cellRole g = .charging then
    if (s.pmgr (g / 16)).method = 1 ∧ !(s.cellAt g).levelled then fNeg d else 0#32
  else
    let t := s.rejoinTarget g
    let v := s.cellVal g 0
    if fWithin (s.f32 R.CELL_REJOIN_BAND) t v then 0#32 else if fLt v t then fNeg d else d

/-- MODE sent to a cell (Table 8.1): none when its pound is OUT or no cell is there. -/
def State.modeOf (s : State) (g : Nat) : Option Nat :=
  match s.cellRole g with
  | .none => none
  | .disabled => some 0
  | .charging => some (if (s.pmgr (g / 16)).method = 0 then 3 else 1)
  | .ready => some 0
  | .active => some 1
  | .rejoining => some (if (s.cellAt g).step = 1 then 0 else 1)
  | .parked => some 2
  | .failed => some 2
  | .out => none
  | .sluicing => some 4

/-- Is a pound in service HALF? -/
def State.isHalf (s : State) (p : Nat) : Bool := decide (s.rd (R.CNL_POUND_STAT_SERVICE p) = 1)

/-- Is a pound OUT? -/
def State.isOut (s : State) (p : Nat) : Bool := decide (s.rd (R.CNL_POUND_STAT_SERVICE p) = 2)

/-- STATUS of a cell's last accepted state (Table 6.9). -/
def State.cellStatus (s : State) (g : Nat) : Nat := leAt (s.link g).payload 24 2

/-- CARRIER_PHASE of a cell for the APPLY mark of cycle `k` (R225). -/
def State.carrierPhase (s : State) (phi : Rat) (k : Nat) : Nat :=
  let t : Int := (s.markTime k + s.periodNs - 200) - s.sys.epoch
  phaseUnits (ratFrac (phi + (t : Rat) / ((s.rd R.CELL_CARRIER_PERIOD * 2 : Nat) : Rat)))

/-- Is the pound's command due to be formed in this cycle: every cycle when FULL, every other when HALF (R180)? -/
def State.formsNow (s : State) (p : Nat) : Bool :=
  !s.isOut p && (!s.isHalf p || decide (s.sys.k % 2 ≠ s.rd (R.CNL_POUND_STAT_PAR p)))

/-- The command of a cell that does not synthesise (Table 8.4). -/
def State.plainCmd (s : State) (g mode : Nat) : CellCmd :=
  let half := s.isHalf (g / 16)
  let k := if half then s.sys.k + 1 else s.sys.k
  let charge := s.cellRole g = .charging ∨ s.cellRole g = .rejoining
  let onDab := charge ∧ mode = 1
  let full := onDab ∨ s.cellRole g = .rejoining
  let release := s.cellRole g = .rejoining ∧ (s.cellAt g).step = 1
  { mod := 0, slope := 0, dab := if onDab then s.chargeDab g else 0#32, dabSlope := 0, bal := 0
    idab := if onDab then s.f32 R.CELL_PRECH_IDAB else 0#32
    phase := s.carrierPhase 0 k, mode := mode
    flags := (if half then 1 else 0) + (if full then 2 else 0) + (if release then 4 else 0)
    sluice := if mode = 4 then (fScaleFloor (s.cellAt g).target 10 1).toNat % 65536 else 0, cycle := k }

/-- The commands of a leg's ACTIVE cells, and M_LEG and VREF_APPLIED (R223). -/
def State.formLeg (s : State) (l : Nat) : State :=
  let act := s.activeOf l
  let n := act.length
  let vref := s.vref l
  let vsum := s.vsum l
  let mmax := s.f32 R.CELL_M_MAX
  let m := if n = 0 then 0#32 else fClamp (fNeg mmax) mmax (fDiv vref vsum)
  let x := s.legAt l
  let us := fDiv (fOfNat (if x.evalK = s.sys.k then s.periodNs else 2 * s.periodNs)) (fOfNat 1000)
  let sl := if s.is R.CELL_CTL_SLOPE_EN && decide (x.evalK ≠ 0) then fDiv (fSub m x.mPrev) us else 0#32
  let s := s.modLeg l fun y => { y with mPrev := m, evalK := s.sys.k + 1 }
  let off0 := act.map fun g => (g, fMul (s.armSign g) (s.slotValue (s.rd R.CELL_SLOTS_BAL_BASE + g)))
  let shift := fDiv (fSum (off0.map fun (g, o) => fMul o (s.cellVal g 0))) vsum
  let bmax := s.f32 R.CELL_BAL_MAX
  let shs := act.map fun g => s.slotValue (s.rd R.CELL_SLOTS_SHARE_BASE + g)
  let shMean := fDiv (fSum shs) (fOfNat n)
  let dref := s.slotValue (s.rd (R.CELL_LEG_SRC1_DREF l))
  let dmax := s.f32 R.CELL_DAB_MAX
  let s := each off0 (fun s (g, o) =>
    if !s.formsNow (g / 16) then s
    else
      let half := s.isHalf (g / 16)
      let k := if half then s.sys.k + 1 else s.sys.k
      let sh := s.slotValue (s.rd R.CELL_SLOTS_SHARE_BASE + g)
      let c : CellCmd :=
        { mod := if half then fFma sl (fDiv (fOfNat s.periodNs) (fOfNat 1000)) m else m
          slope := sl, dab := fClamp (fNeg dmax) dmax (fSub (fAdd dref sh) shMean), dabSlope := 0
          bal := fClamp (fNeg bmax) bmax (fSub o shift), idab := s.f32 (R.CELL_LEG_IDAB l)
          phase := s.carrierPhase (s.cellAt g).phi k, mode := 1
          flags := (if half then 1 else 0) + (if (s.cellStatus g).testBit 8 then 2 else 0), sluice := 0, cycle := k }
      { s with cell := { s.cell with cmds := SMap.ins s.cell.cmds g c } }) s
  (s.putOut (8 * l + 3) m true).putOut (8 * l + 4) vref true

/-- The commands of all cells whose pounds are due (R223, R224): ACTIVE ones by leg, the others by role. -/
def State.formCommands (s : State) : State :=
  let s := each [0, 1, 2] State.stepCarriers s
  let keep := s.cell.cmds.filter fun (g, _) => s.isHalf (g / 16) && !s.formsNow (g / 16)
  let s := { s with cell := { s.cell with cmds := keep } }
  let s := each [0, 1, 2] State.formLeg s
  each (s.allCells.filter fun g => s.formsNow (g / 16) && decide (s.cellRole g ≠ .active)) (fun s g =>
    match s.modeOf g with
    | some mode => { s with cell := { s.cell with cmds := SMap.ins s.cell.cmds g (s.plainCmd g mode) } }
    | none => s) s

/-! ### Failed cells (R230, R231) -/

/-- A cause of failure seen on a cell, effective from the compute window of cycle `k`; the first one stands. -/
def State.suspect (s : State) (g cause k : Nat) : State :=
  match s.cellRole g with
  | .none => s
  | .failed => s
  | .out => s
  | _ => s.modCell g fun c => if c.cause = none then { c with cause := some (cause, k) } else c

/-- A sluicing cell leaves the sluice unfinished; in STOPPING it has been counted (R262). -/
def State.dropSluice (s : State) (g : Nat) : State :=
  if s.nrg.sluice.any (fun x => x.cell = g && x.on) then
    { s with nrg := { s.nrg with sluice := s.nrg.sluice.filter (fun x => x.cell ≠ g)
                                 sluiceLost := s.nrg.sluiceLost + (if s.rd R.NRG_STAT_SLUICE = 1 then 1 else 0) } }
  else s

/-- Cells with a cause become FAILED together, in the compute window that sees it (R230, R231). A cell that has gone OUT
since its cause was seen is FAILED too (R219). -/
def State.failCells (s : State) : State :=
  let gs := (s.cell.cells.filterMap fun (g, c) =>
    match c.cause with
    | some (z, k) => if k ≤ s.sys.k then some (g, z) else none
    | none => none)
  if gs.isEmpty then s
  else
    let s := each gs (fun s (g, z) =>
      let old := s.cellRole g
      let s := (s.dropSluice g).modCell g fun c => { c with cause := none }
      match old with
      | .none => s
      | .failed => s
      | _ => (((s.setRole g .failed).roleEvent g old .failed z).raise 0x060 g)) s
    s.regroupAll

/-- A bypass was not confirmed in time (R232). -/
def State.bypassTimeout (s : State) (g : Nat) : State :=
  match (s.cellAt g).bypassAt with
  | some t =>
    if (s.cellAt g).bypassTold then s
    else
      let t' := t + s.rd R.CELL_TMO_BYP_TMO * 500000
      let s := { s with tsn := { s.tsn with local_ := max s.tsn.local_ t' } }
      let s := s.modCell g fun c => { c with bypassTold := true }
      (s.event 3 7 [(16, 2, g)]).raise 0x063 g
  | none => s

/-- The rejoin of a cell took too long (R234). -/
def State.rejoinTimeout (s : State) (g : Nat) : State :=
  if s.cellRole g = .rejoining then
    let back := CellRole.ofCode (s.cellAt g).former
    let t' := (s.cellAt g).since + s.rd R.CELL_TMO_PRECH_TMO * 500000
    let s := { s with tsn := { s.tsn with local_ := max s.tsn.local_ t' } }
    ((s.setRole g back).roleEvent g .rejoining back 0xFF08).regroupAll
  else s

/-- A pound has been OUT for OUT_TMO cycles outside IDLE: each end adds a broadcast SAFE BYPASS (R235). -/
def State.outTimeout (s : State) (p : Nat) : State :=
  if s.isOut p && decide (s.grid ≠ 0) && decide (s.rd R.CELL_TIMING_OUT_TMO ≤ (s.pound p).outCycles) then
    s.modPmgr p fun x => { x with outBypass := true }
  else s

/-- Has a state been accepted whose sample a RELEASE command of this rejoin preceded (R234)? -/
def State.released (s : State) (g : Nat) : Bool :=
  let c := s.cellAt g
  c.sent.any fun (k, mode, _) => decide (c.sinceK ≤ k) && decide (mode = some 0) && decide (k + 2 ≤ (s.link g).sample)

/-- A rejoin advances on the cell's last state: released, then in band (R234). -/
def State.rejoinStep (s : State) (g : Nat) : State :=
  let st := s.cellStatus g
  let c := s.cellAt g
  let freed := decide (c.step = 1) && !st.testBit 9 && decide (st / 8 % 8 = 0) && s.released g
  let s := if freed then s.modCell g fun c => { c with step := 2 } else s
  if (freed || decide (c.step = 2)) && fWithin (s.f32 R.CELL_REJOIN_BAND) (s.rejoinTarget g) (s.cellVal g 0) then
    s.setRole g (if s.grid = 0 then .ready else .active)
  else s

/-- Is a CHARGING cell charged? 100 states in a row (R227). -/
def State.isCharged (s : State) (g : Nat) : Bool := decide (100 ≤ (s.cellAt g).charged)

/-- Every CHARGING cell of the pound is charged: the cells and the pound become READY, or ACTIVE outside IDLE. A pound
with no CHARGING cell, whose cells were PARKED, is done when none of them rejoins any more (R227, R229; log entry 78).
-/
def State.prechargeDone (s : State) (p : Nat) : State :=
  let idle := decide (s.grid = 0)
  let chg := s.cellsIn (poundCells p) [.charging]
  let rejoined := (s.cellsIn (poundCells p) [.rejoining]).isEmpty && !(s.cellsIn (poundCells p) [.ready, .active]).isEmpty
  if s.poundState p = 1 && !s.isOut p && chg.all s.isCharged && (!chg.isEmpty || rejoined) then
    ((s.setRoles chg (if idle then .ready else .active)).setPound p (if idle then 2 else 3) 2).regroupAll
  else s

/-- Every REJOINING cell advanced at a SAMPLE mark, and the pounds whose parked cells have all rejoined (R229, R234). -/
def State.rejoinCells (s : State) : State :=
  let gs := s.cell.cells.filterMap fun (g, c) => if c.step ≠ 0 && s.cellRole g = .rejoining then some g else none
  if gs.isEmpty then s
  else each s.poundList (fun s p => if (s.cellsIn (poundCells p) [.charging]).isEmpty then s.prechargeDone p else s)
    (each gs State.rejoinStep s).regroupAll

/-- The pre-charge of a pound took too long (R227). -/
def State.prechargeTimeout (s : State) (p : Nat) : State :=
  if s.poundState p = 1 then
    let t' := (s.pmgr p).since + s.rd R.CELL_TMO_PRECH_TMO * 500000
    let s := { s with tsn := { s.tsn with local_ := max s.tsn.local_ t' } }
    let s := s.setRoles (s.cellsIn (poundCells p) [.charging]) .disabled
    ((s.setPound p 0 3).raise 0x062 p).regroupAll
  else s

/-- Roles at boot step 5: DISABLED where a position is fitted, NONE elsewhere (R219). -/
def State.initRoles (s : State) : State :=
  each s.poundList (fun s p =>
    each (List.range 16) (fun s i =>
      s.wr (R.CELL_CELL_STAT_ROLE (16 * p + i))
        (if i < s.rd (R.CNL_POUND_CTL_FITTED p) then CellRole.disabled.code else 0)) s) s

end Sys2Proof.Machine
end

