-- ==== Sys2Proof/Machine/Metering.lean ====
section
/-! DEFINITION. Metering: channel results, routes, accumulators, trackers, background calibration, the test DAC
(R270 to R289). -/

set_option Elab.async false

namespace Sys2Proof.Machine

open Sys2Proof

/-- Does conversion run? In RUN and HOLD, with PLL_MTR on its own loop (R271, Table 3.4). -/
def State.metering (s : State) : Bool :=
  (decide (s.power = .run) || decide (s.power = .hold)) && !s.onBackup 11

/-- Is a channel number one of R270? -/
def isChannel (c : Nat) : Bool := c < 40 || (48 ≤ c && c < 64)

/-- The calibration correction in force on a channel: that of the spare while it stands in (R276, R284). -/
def State.corrOf (s : State) (c : Nat) : F32 × F32 :=
  SMap.get (fun _ => (0#32, 0#32)) s.mtr.corr (if s.is (R.MTR_CH_STAT_SUBST c) then 40 else c)

/-- Value of channel `c` from a result of the filter of modulator `m`: the correction of that modulator, then the
channel's INVERT and scaling (R273, R276). -/
def State.scaledBy (s : State) (m c : Nat) (x : F32) : F32 :=
  let k := s.corrOf m
  let x := if m < 40 then fFma k.1 x (fAdd x k.2) else x
  let x := if s.is (R.MTR_CH_CFG_INVERT c) then fNeg x else x
  fFma (s.f32 (R.MTR_CH_SCALE c)) x (s.f32 (R.MTR_CH_OFS c))

/-- Value of a channel from a result of its own filter. -/
def State.scaled (s : State) (c : Nat) (x : F32) : F32 := s.scaledBy c c x

/-- Is a result of channel `c` that modulator `m` gives valid (R272, R273)? `clean` tells of its filter span. -/
def State.validBy (s : State) (m c : Nat) (clean : Bool) : Bool :=
  clean && isChannel c && s.is (R.MTR_CH_CFG_EN c) && !s.is (R.MTR_CH_STAT_OVR m) && !s.is (R.MTR_CH_STAT_STUCK m)
    && !s.is (R.MTR_CH_STAT_INJECTED c) && !s.onBackup 11

/-- Is a result of channel `c` valid (R272)? -/
def State.resultValid (s : State) (c : Nat) (clean : Bool) : Bool := s.validBy c c clean

/-- Does a filter span that ends now and is `ticks` long hold a reset of the metering divider (R76, R272)? -/
def State.divided (s : State) (ticks : Nat) : Bool :=
  match s.mtr.dividerAt with
  | some r => decide (s.tsn.local_ ≤ r + ticks)
  | none => false

/-- Length of a fine result's span as the model takes it, in 2 ns ticks: the latency of 1.55 ms to either side of its
instant (R274; log entry 116, DEDUCED). -/
def fineSpan : Nat := 1550000

/-- Time from the start of a fast result's 94-clock window to its delivery at the latest: 2.35 us and 2.40 us (R274). -/
def fastSpan : Nat := 2375

/-- The half of the windows of a MARK value that lies before its mark: 2.35 us and one clock (R275). -/
def markSpan : Nat := 1200

/-- Has the channel no results of its own, being interleaved with the one below? (R273) -/
def State.interleaved (s : State) (c : Nat) : Bool := decide (c % 2 = 1) && s.is (R.MTR_CH_CFG_INTERLEAVE c)

/-- Routes of a KIND and source, with the slots they name (R278). -/
def State.routesOf (s : State) (kind src : Nat) : List Nat :=
  ((List.range 128).filter fun r =>
    decide (s.rd (R.MTR_ROUTE_KIND r) = kind) && decide (s.rd (R.MTR_ROUTE_SRC r) = src)).map
    fun r => s.rd (R.MTR_ROUTE_SLOT r)

/-- A metering value for a slot, which belongs to the cycle in which it is written: it enters the slot at once, and once
the compute window is open only at the next SAMPLE mark (R23, R195). -/
def State.meterSlot (s : State) (i : Nat) (v : F32) (q : BitVec 8) : State :=
  if s.marksRun && s.sys.windowOpen then
    { s with loop := { s.loop with metered := s.loop.metered ++ [(i, v, q, s.sys.k)] } }
  else s.putSlot i v q s.sys.k

/-- A metering value written by its routes: VALID set, SRC_FAULT when it is invalid (R278). The MARK values are those of
the mark at which they are written; any other belongs to the cycle in which it is written (R195). -/
def State.writeRoutes (s : State) (kind src : Nat) (v : F32) (ok : Bool) : State :=
  each (s.routesOf kind src) (fun s slot =>
    let q := if ok then qValid else qValid ||| qFault
    if s.slotKind slot ≠ 3 then s else if kind = 1 then s.putSlot slot v q s.sys.k else s.meterSlot slot v q) s

/-! ### Trackers (R283) -/

/-- Tracker `t`. -/
def State.trkAt (s : State) (t : Nat) : TrkSt := SMap.get (fun _ => {}) s.mtr.trks t

/-- The state with tracker `t` set. -/
def State.setTrk (s : State) (t : Nat) (x : TrkSt) : State :=
  { s with mtr := { s.mtr with trks := SMap.put (fun _ => {}) s.mtr.trks t x } }

/-- A valid value seen by the trackers that follow a channel on a path (1 fine, 0 fast). -/
def State.feedTrackers (s : State) (path c : Nat) (v : F32) : State :=
  each ((List.range 32).filter fun t => s.is (R.MTR_TRK_CFG_EN t) && decide (s.rd (R.MTR_TRK_CFG_PATH t) = path) &&
      decide (s.rd (R.MTR_TRK_CFG_CH t) = c)) (fun s t =>
    s.setTrk t { run := match (s.trkAt t).run with
      | some (a, b) => some (fMax a v, fMin b v)
      | none => some (v, v) }) s

/-- Running values copied to the held values; the tracker restarts (R283). -/
def State.closeTracker (s : State) (t : Nat) : State :=
  let (hi, lo, ok) := match (s.trkAt t).run with
    | some (a, b) => (a, b, true)
    | none => (0#32, 0#32, false)
  let s := ((s.wr (R.MTR_TRK_MAX t) hi.toNat).wr (R.MTR_TRK_MIN t) lo.toNat).setTrk t {}
  (s.writeRoutes 4 t hi ok).writeRoutes 5 t lo ok

/-- A write of `MTR_TRK_CLEAR`. -/
def State.trkClear (s : State) (v : Word) : State :=
  each ((List.range 32).filter fun t => v.getLsbD t && s.is (R.MTR_TRK_CFG_EN t)) State.closeTracker s

/-! ### Accumulators (R279 to R282) -/

/-- Accumulator `a`. -/
def State.accAt (s : State) (a : Nat) : AccSt := SMap.get (fun _ => {}) s.mtr.accs a

/-- The state with accumulator `a` changed. -/
def State.modAcc (s : State) (a : Nat) (f : AccSt → AccSt) : State :=
  { s with mtr := { s.mtr with accs := SMap.put (fun _ => {}) s.mtr.accs a (f (s.accAt a)) } }

/-- TOTAL in mJ, signed 64-bit (R280). -/
def AccSt.mJ (x : AccSt) : Int := sx 64 (ux 64 (x.total / 2 ^ 20))

/-- KIND of accumulator `a`. -/
def State.accKind (s : State) (a : Nat) : Nat := s.rd (R.MTR_ACC_CFG_KIND a)

/-- Accumulators in use. -/
def State.accsInUse (s : State) : List Nat := (List.range 64).filter fun a => s.accKind a ≠ 0

/-- Channels that accumulator `a` works on. -/
def State.accChannels (s : State) (a : Nat) : List Nat :=
  let A := s.rd (R.MTR_ACC_CFG_CHA a)
  let B := s.rd (R.MTR_ACC_CFG_CHB a)
  if s.accKind a ≤ 2 then [A]
  else if s.is (R.MTR_ACC_CFG_PH3 a) then [A, A + 1, A + 2, B, B + 1, B + 2] else [A, B]

/-- What one fine result adds to accumulator `a`; none when a term is invalid. -/
def State.accTerm (s : State) (a : Nat) (val : Nat → Option Rat) : Option Rat :=
  let A := s.rd (R.MTR_ACC_CFG_CHA a)
  let B := s.rd (R.MTR_ACC_CFG_CHB a)
  let prod (i : Nat) : Option Rat := match val (A + i), val (B + i) with
    | some x, some y => some (x * y)
    | _, _ => none
  match s.accKind a with
  | 1 => val A
  | 2 => (val A).map fun x => x * x
  | _ =>
    if s.is (R.MTR_ACC_CFG_PH3 a) then
      match prod 0, prod 1, prod 2 with
      | some x, some y, some z => some (x + y + z)
      | _, _, _ => none
    else prod 0

/-- The product that ENERGY counts under FLOW (R279). -/
def flowTerm (flow : Nat) (p : Rat) : Rat :=
  if flow = 1 then (if 0 < p then p else 0) else if flow = 2 then (if p < 0 then -p else 0) else p

/-- One fine result into accumulator `a` (R279, R280). -/
def State.accAdd (s : State) (a : Nat) (val : Nat → Option Rat) : State :=
  match s.accTerm a val with
  | none => s.modAcc a fun x => { x with invalidIn := !x.idle, gap := true }
  | some p =>
    let add : Int := if s.accKind a = 4 then roundRat (flowTerm (s.rd (R.MTR_ACC_CFG_FLOW a)) p * 262144) else 0
    s.modAcc a fun x =>
      if x.idle then { x with total := x.total + add }
      else { x with total := x.total + add, sum := x.sum + p, count := x.count + 1 }

/-- A window of accumulator `a` closes at plant time `t` ns; its RESULT goes to its routes (R280). -/
def State.accClose (s : State) (a t : Nat) : State :=
  let x := s.accAt a
  let mean : Rat := if x.count = 0 then 0 else x.sum / (x.count : Rat)
  let r := if x.count = 0 then 0#32 else if s.accKind a = 2 then fSqrt mean else fOfRat mean
  let fl := (if x.count ≠ 0 then 1 else 0) + (if x.invalidIn then 2 else 0) + (if x.cal then 4 else 0) +
    (if x.wasReset then 8 else 0)
  let s := s.modAcc a fun x =>
    { x with sum := 0, count := 0, invalidIn := false, cal := false, wasReset := false, result := r
             resCount := x.count % 65536, resFlags := fl, winEnd := t, winSeq := (x.winSeq + 1) % 65536
             winCycle := s.cycleNum }
  s.writeRoutes 3 a r (decide (x.count ≠ 0))

/-- A boundary of the windows of accumulator `a` at plant time `t` ns: the open one closes, or the first after TOWPATH
opens (R280, R282). -/
def State.accBoundary (s : State) (a t : Nat) : State :=
  if (s.accAt a).idle then s.modAcc a fun x => { x with idle := false } else s.accClose a t

/-- TOWPATH is entered: no window closes in it, and none is open until the first boundary after it (R282). -/
def State.accsIdle (s : State) : State :=
  each s.accsInUse (fun s a => s.modAcc a fun x =>
    { x with sum := 0, count := 0, invalidIn := false, cal := false, wasReset := false, idle := true }) s

/-- The 32 bytes of an accumulator item (Table 10.3). -/
def State.accItem (s : State) (a : Nat) : Bytes :=
  let x := s.accAt a
  let tot := if s.accKind a = 4 then ux 64 x.mJ else 0
  layBytes 32 [(0, 8, tot), (8, 4, x.result.toNat), (12, 2, x.resCount), (14, 1, x.resFlags), (15, 1, s.accKind a),
    (16, 8, x.winEnd), (24, 2, x.winSeq), (26, 2, x.winCycle)]

/-- A read of bytes 0 to 3 of an item captures all 32 (R281). -/
def State.captureAcc (s : State) (a : Nat) : State :=
  let b := s.accItem a
  each (List.range 8) (fun s i => s.setReg (0x31000 + 0x20 * a + 4 * i) (BitVec.ofNat 32 (leAt b (4 * i) 4))) s

/-! ### Results -/

/-- Do fine results fall due? In RUN and HOLD, and as invalid ones while PLL_MTR has lost lock (R272, R280, Table
3.16). -/
def State.fineDue (s : State) : Bool := decide (s.power = .run) || decide (s.power = .hold)

/-- Channel, value and validity of the fine results that the filters give (R272, R273, R276). -/
def State.fineValues (s : State) (xs : List Sample) : List (Nat × F32 × Bool) :=
  (xs.filter fun x => isChannel x.channel && !s.interleaved x.channel).map fun x =>
    (x.channel, s.scaled x.channel x.x, s.resultValid x.channel (x.clean && !s.divided fineSpan))

/-- The number of a channel's valid result; none where it has none. -/
def fineNumber (res : List (Nat × F32 × Bool)) (c : Nat) : Option Rat :=
  match res.find? fun r => r.1 = c with
  | some (_, v, true) => if fFinite v then some (fRat v) else none
  | _ => none

/-- A channel's fine result goes to its routes, and a valid one to its trackers (R275, R279). -/
def State.takeFine (s : State) (r : Nat × F32 × Bool) : State :=
  let s := (s.wrB (R.MTR_CH_STAT_VALID r.1) r.2.2).writeRoutes 2 r.1 r.2.1 r.2.2
  if r.2.2 then s.feedTrackers 1 r.1 r.2.1 else s

/-- Accumulator `a` takes the results of the instant `n`, and a window that ends with it closes (R280). -/
def State.accTake (s : State) (n : Nat) (val : Nat → Option Rat) (a : Nat) : State :=
  let s := s.accAdd a val
  let w := s.rd (R.MTR_ACC_CFG_WIN a)
  if w ≠ 0 && n % w = 0 then s.accBoundary a (n * 250000) else s

/-- The window of tracker `k` ends with the instant `n`, if it does (R283). -/
def State.trackerEnd (s : State) (n k : Nat) : State :=
  let w := s.rd (R.MTR_TRK_CFG_WIN k)
  if w ≠ 0 && n % w = 0 then s.closeTracker k else s

/-- One result of an injected channel has passed; with the last its INJECTED goes, unless a run still holds it (R285).
-/
def State.injectedPassed (s : State) : State :=
  match s.mtr.injected with
  | some (c, left) =>
    if left ≤ 1 then
      ({ s with mtr := { s.mtr with injected := none } }).wrB (R.MTR_CH_STAT_INJECTED c)
        (decide (s.mtr.diag = some c) || decide (s.mtr.waiting = some c))
    else { s with mtr := { s.mtr with injected := some (c, left - 1) } }
  | none => s

/-- The fine results of the instant `n` × 250 µs (R274 to R280, R283). `xs` are what the filters give; a channel
without one has no result, and counts as invalid where an accumulator asks for it. -/
def State.fineResult (s : State) (n : Nat) (xs : List Sample) : State :=
  if !s.fineDue || n = s.mtr.fine then s
  else
    let s := s.advanceTo (((n * 250000 : Nat) : Int) + 1550000)
    let s := { s with mtr := { s.mtr with fine := n } }
    let res := s.fineValues xs
    let s := each res State.takeFine s
    let s := each s.accsInUse (fun s a => s.accTake n (fineNumber res) a) s
    let s := each ((List.range 32).filter fun k => s.is (R.MTR_TRK_CFG_EN k)) (fun s k => s.trackerEnd n k) s
    s.injectedPassed

/-- A fast-path result: trackers on that path. That of an interleaved modulator is a result of the channel below it,
with its own correction and its own overload (R273, R283). -/
def State.fastResult (s : State) (x : Sample) : State :=
  let m := x.channel
  let c := if s.interleaved m then m - 1 else m
  if s.metering && s.validBy m c (x.clean && !s.divided fastSpan) then s.feedTrackers 0 c (s.scaledBy m c x.x) else s

/-- MARK values of a SAMPLE mark, written by their routes, the invalid ones too (R272, R275, R278). -/
def State.markValues (s : State) (xs : List MarkSample) : State :=
  each (xs.filter fun x => isChannel x.channel && !s.interleaved x.channel) (fun s x =>
    let f : Rat := mkRat (min x.frac 50000) 50000
    let y := fOfRat ((1 - f) * fRat x.y0 + f * fRat x.y1)
    s.writeRoutes 1 x.channel (s.scaled x.channel y)
      (s.resultValid x.channel (x.clean && !s.divided markSpan) && fFinite x.y0 && fFinite x.y1)) s

/-- ACTIVE of the input sources: each stands while a channel's status bit does (R272, R400). -/
def State.judgeInputs (s : State) : State :=
  let seen (f : Nat → Bool) := (List.range 64).any fun c => isChannel c && f c
  (s.setActive 0x0A0 (seen fun c => s.is (R.MTR_CH_STAT_OVR c))).setActive 0x0A1
    (seen fun c => s.is (R.MTR_CH_STAT_STUCK c))

/-- Overload of an on-chip channel or a stuck bitstream seen or gone: 0 clear, 1 overload, 2 stuck (R272, Table 10.6).
-/
def State.inputEdge (s : State) (c st : Nat) : State :=
  if !isChannel c || (st = 1 && 40 ≤ c) || (st = 2 && c < 40) then s
  else if st = 1 then
    ((s.wrB (R.MTR_CH_STAT_OVR c) true).event 5 4 [(16, 1, c), (17, 1, 1)]).raise 0x0A0 c
  else if st = 2 then
    ((s.wrB (R.MTR_CH_STAT_STUCK c) true).event 5 4 [(16, 1, c), (17, 1, 2)]).raise 0x0A1 c
  else if s.is (R.MTR_CH_STAT_OVR c) || s.is (R.MTR_CH_STAT_STUCK c) then
    ((s.wrB (R.MTR_CH_STAT_OVR c) false).wrB (R.MTR_CH_STAT_STUCK c) false).event 5 4 [(16, 1, c)]
  else s

/-- The same with the sources' ACTIVE bits made to agree (R400). -/
def State.inputState (s : State) (c st : Nat) : State := (s.inputEdge c st).judgeInputs

/-! ### Test DAC (R286, R287) -/

/-- A diagnostic run on channel `c` starts. -/
def State.diagStart (s : State) (c : Nat) : State :=
  let s := { s with mtr := { s.mtr with diag := some c, waiting := none } }
  ((s.wr R.MTR_DIAG_RES_VERDICT 0).wrB R.MTR_DIAG_RES_BUSY true).wrB R.MTR_DIAG_RES_WAITING false

/-- `MTR_DIAG.GO`, with CH and LEVEL in the register. The results of the channel are invalid from GO on, also while
the run waits (R286). -/
def State.diagGo (s : State) : State :=
  let c := s.rd R.MTR_DIAG_CH
  if s.mtr.diag.isSome || s.is R.MTR_DIAG_RES_WAITING then s
  else if !s.is R.SYS_OVERLAY_MTR_TESTDAC || decide (40 ≤ c) then s.wr R.MTR_DIAG_RES_VERDICT 3
  else
    let t := s.wrB (R.MTR_CH_STAT_INJECTED c) true
    if s.mtr.calStep = 3 then ({ t with mtr := { t.mtr with waiting := some c } }).wrB R.MTR_DIAG_RES_WAITING true
    else t.diagStart c

/-- A run ends; `m1` and `m2` are the means of the last 8 samples at +LEVEL and −LEVEL, in full scale. With LEVEL 0
the quotient K has no stated value (log entry 5). -/
def State.diagDone (s : State) (m1 m2 : F32) : State :=
  match s.mtr.diag with
  | none => s
  | some c =>
    let lvl := s.rd R.MTR_DIAG_LEVEL
    let (z, s) := s.fresh 16
    let k : Nat := if lvl = 0 then z
      else (max 0 (min 65535 (roundRat ((fRat m1 - fRat m2) * 65536 * 4095 / (4 * (lvl : Rat)))))).toNat
    let verdict := if 32768 ≤ k then 2 else 1
    let s := { s with mtr := { s.mtr with diag := none, injected := some (c, 16) } }
    let s := (((s.wr R.MTR_DIAG_RES_K k).wr R.MTR_DIAG_RES_VERDICT verdict).wrB R.MTR_DIAG_RES_BUSY false)
    s.event 5 3 [(16, 1, c), (17, 1, verdict), (18, 2, k)]

/-! ### Background calibration (R284, R285) -/

/-- Is the DAC taken by a diagnostic, or PLL_MTR lost, so that no slice starts? -/
def State.calBlocked (s : State) : Bool :=
  s.mtr.diag.isSome || s.is R.MTR_DIAG_RES_WAITING || !s.metering

/-- Windows that contain a switch of a channel carry CAL (R284). -/
def State.markCal (s : State) (c : Nat) : State :=
  each (s.accsInUse.filter fun a => (s.accChannels a).contains c) (fun s a => s.modAcc a fun x => { x with cal := true }) s

/-- The slice in calibration ends; after the spare's the round ends (R284). -/
def State.calSliceEnd (s : State) : State :=
  let n := s.rd R.MTR_CAL_STAT_SLICE
  let s := { s.wr R.MTR_CAL_STAT_SLICE 0x3F with mtr := { s.mtr with calStep := 0, calNext := if n = 40 then 0 else n + 1 } }
  let s := s.wrB R.MTR_CAL_STAT_RUNNING (s.is R.MTR_CTL_CAL_EN)
  if n = 40 then
    let s := s.inc R.MTR_CAL_STAT_ROUNDS
    let s := s.event 5 1 [(16, 1, s.rd R.MTR_CAL_STAT_ROUNDS), (17, 1, s.mtr.calFails)]
    { s with mtr := { s.mtr with calFails := 0 } }
  else s

/-- Step 4 of Table 10.4: the measured gain error and offset (V) are accepted or refused. -/
def State.calAccept (s : State) (n : Nat) (gain ofs : F32) : State :=
  let ok := fFinite gain && fFinite ofs && fLe (fAbs gain) 0x3BA3D70A#32 && fLe (fAbs ofs) 0x3B03126F#32
  if ok then
    let s := { s with mtr := { s.mtr with corr := SMap.put (fun _ => (0#32, 0#32)) s.mtr.corr n (gain, ofs) } }
    if n < 40 then
      (s.wr (R.MTR_CH_STAT_GAIN_CORR n) (uxSat 16 (roundRat (fRat gain * 5000000)))).wr
        (R.MTR_CH_STAT_OFS_CORR n) (uxSat 8 (roundRat (fRat ofs * 50000)))
    else s
  else
    let s := if n < 40 then s.wrB (R.MTR_CH_STAT_CAL_FAIL n) true else s
    let s := s.inc R.MTR_CAL_STAT_FAILS
    let s := { s with mtr := { s.mtr with calFails := min 255 (s.mtr.calFails + 1) } }
    (s.event 5 2 [(16, 1, n), (20, 4, gain.toNat), (24, 4, ofs.toNat)]).raise 0x0A2 n

/-- The next timed step of the rotation; `gain` and `ofs` are what step 3 measured (Table 10.4). -/
def State.calStep (s : State) (gain ofs : F32) : State :=
  let n := s.rd R.MTR_CAL_STAT_SLICE
  let at_ (k : Nat) (s : State) : State := { s with mtr := { s.mtr with calStep := k } }
  match s.mtr.calStep with
  | 0 =>
    if !s.is R.MTR_CTL_CAL_EN then s.wrB R.MTR_CAL_STAT_RUNNING false
    else if s.calBlocked then s.wrB R.MTR_CAL_STAT_PAUSED true
    else
      let s := (s.wrB R.MTR_CAL_STAT_PAUSED false).wrB R.MTR_CAL_STAT_RUNNING true
      at_ (if s.mtr.calNext = 40 then 3 else 1) (s.wr R.MTR_CAL_STAT_SLICE s.mtr.calNext)
  | 1 => at_ 2 ((s.wrB (R.MTR_CH_STAT_SUBST n) true).markCal n)
  | 2 => at_ 3 s
  | 3 =>
    let s := at_ 4 (s.calAccept n gain ofs)
    match s.mtr.waiting with
    | some c => s.diagStart c
    | none => s
  | 4 => if n = 40 then s.calSliceEnd else at_ 5 s
  | _ => ((s.wrB (R.MTR_CH_STAT_SUBST n) false).markCal n).calSliceEnd

/-- A slice in progress is abandoned: the channel is reconnected with its old corrections (R285). -/
def State.calAbandon (s : State) : State :=
  let n := s.rd R.MTR_CAL_STAT_SLICE
  if n = 0x3F then s
  else
    let s := if n < 40 then s.wrB (R.MTR_CH_STAT_SUBST n) false else s
    let s := s.wr R.MTR_CAL_STAT_SLICE 0x3F
    ({ s with mtr := { s.mtr with calStep := 0, calNext := if n = 40 then 0 else n + 1 } }).wrB R.MTR_CAL_STAT_PAUSED true

/-- What a block reset of `MTR_` does beyond its registers (R282); the corrections in force go with the registers that
show them. -/
def State.mtrReset (s : State) : State :=
  let s := each s.accsInUse (fun s a =>
    let s := s.modAcc a fun x => { x with wasReset := true, gap := true }
    if (s.accAt a).idle then s else s.accClose a s.plantNs) s
  { s with mtr := { s.mtr with
      trks := [], corr := [], calStep := 0, calNext := 0, calFails := 0
      diag := none, waiting := none, injected := none } }

end Sys2Proof.Machine
end

