-- ==== Sys2Proof/Machine/Basin.lean ====
section
/-! DEFINITION. The Energy Basin: the ledger, the caps, the views of admission and its outcome, strings, and
the sluice (R244 to R264). -/

set_option Elab.async false

namespace Sys2Proof.Machine

open Sys2Proof

/-! ### The ledger (R244 to R249) -/

/-- V_g of a cell (R245). -/
def State.vg (s : State) (g : Nat) : F32 := (s.cellAt g).vUsed.getD (s.f32 R.CELL_VDC_MAX)

/-- V_LV (R246). -/
def State.vLv (s : State) : F32 := s.nrg.lv.getD (s.f32 R.NRG_V_LV_MAX)

/-- V_AUX (R246). -/
def State.vAux (s : State) : F32 := s.nrg.aux.getD (s.f32 R.NRG_V_AUX_MAX)

/-- An energy in J as whole mJ, rounded to nearest (R244). -/
def mJ (q : Rat) : Int := roundRat (q * 1000)

/-- ½ C V² in mJ. -/
def halfCV (c : F32) (v : Rat) : Int := mJ (fRat c * v * v / 2)

/-- What the Basin imagines of the plant for one ledger: the voltage at which each cell counts, which cells count as
ACTIVE, the bus voltages. -/
structure View where
  volt : Nat → Rat
  act : Nat → Bool
  lv : Rat
  aux : Rat

/-- The ledger of a view (Tables 9.1 and 9.3). -/
def State.ledgerOf (s : State) (v : View) : Ledger :=
  let cells := s.allCells.map fun g =>
    if s.cellRole g = .none then (0 : Int) else halfCV (s.f32 (R.NRG_C_POUND (g / 16))) (v.volt g)
  let lv := halfCV (s.f32 R.NRG_C_LV) v.lv
  let aux := halfCV (s.f32 R.NRG_C_AUX) v.aux
  let push (u : Rat) (i t : Fld) : Int := mJ (u * fRat (s.f32 i) * fRat (s.f32 t))
  let leg (l : Nat) : Int :=
    let es := (List.zip s.allCells cells).filterMap fun (g, e) => if s.legOf (g / 16) = l ∧ v.act g then some e else none
    if es.isEmpty then 0
    else roundRat (fRat (s.f32 R.NRG_F_MV) * (es.foldl (· + ·) 0 : Int) +
      fRat (s.vpk l) * fRat (s.f32 R.NRG_I_ARM_LIM) * fRat (s.f32 R.NRG_T_CLR_MV) * 1000)
  { cells := cells, lv := lv, aux := aux
    rel := [lv + push v.lv R.NRG_I_LV_LIM R.NRG_T_CLR_LV, aux + push v.aux R.NRG_I_AUX_LIM R.NRG_T_CLR_AUX,
      leg 0, leg 1, leg 2] }

/-- E_pound. -/
def Ledger.pound (x : Ledger) (p : Nat) : Int := ((x.cells.drop (16 * p)).take 16).foldl (· + ·) 0

/-- E_cell. -/
def Ledger.cell (x : Ledger) (g : Nat) : Int := x.cells.getD g 0

/-- E_TOTAL. -/
def Ledger.total (x : Ledger) : Int := x.cells.foldl (· + ·) 0 + x.lv + x.aux

/-- X_REL_MAX. -/
def Ledger.relMax (x : Ledger) : Int := x.rel.foldl max 0

/-- E_leg. -/
def State.legEnergy (s : State) (x : Ledger) (l : Nat) : Int := ((s.legPounds l).map x.pound).foldl (· + ·) 0

/-- The plant as it is. -/
def State.presentView (s : State) : View :=
  { volt := fun g => fRat (s.vg g), act := fun g => decide (s.cellRole g = .active), lv := fRat s.vLv, aux := fRat s.vAux }

/-- The voltage of a slot, when the Basin may use it (R245). -/
def State.usable (s : State) (slot : Nat) : Option F32 :=
  if s.slotGood slot && decide (s.slotAge slot ≤ s.rd R.NRG_CTL_AGE_MAX) then some (fMax 0#32 (s.slotValue slot)) else none

/-- Does a region of KIND 0x6 hold the 25 output slots? (R267) -/
def State.basinOut (s : State) : Bool :=
  let b := s.rd R.NRG_OUT_OUT_BASE
  (List.range 16).any fun n => s.regionUsed n && !s.loop.badRegions.getLsbD n &&
    decide (s.rd (R.LOOP_REGION_KIND n) = 6) && decide ((s.region n).1 ≤ b) && decide (b + 25 ≤ (s.region n).2)

/-- A Basin output slot written; with no region for all of them the Basin writes nothing (R267). -/
def State.putBasin (s : State) (off : Nat) (v : F32) : State :=
  if s.basinOut then s.writeSlot 6 (s.rd R.NRG_OUT_OUT_BASE + off) v true s.sys.k else s

/-- An energy in mJ as J in binary32. -/
def joules (e : Int) : F32 := fOfRat ((e : Rat) / 1000)

/-- The voltage that a cell's state gives the ledger (R245). -/
def State.freshVoltage (s : State) (g : Nat) : Option F32 := (s.cellSlot g 0).bind s.usable

/-- The voltages that the ledger uses, kept where a source is stale; the stale cells are counted (R245). -/
def State.takeVoltages (s : State) : State :=
  let cells := s.allCells.filter fun g => s.cellRole g ≠ .none
  let stale := (cells.filter fun g => (s.freshVoltage g).isNone).length
  let s := each cells (fun s g => match s.freshVoltage g with
    | some v => s.modCell g fun c => { c with vUsed := some v }
    | none => s) s
  let s := s.wr R.NRG_STAT_STALE stale
  let lv := (s.usable (s.rd R.NRG_SRC_LV_SLOT)).or s.nrg.lv
  let aux := (s.usable (s.rd R.NRG_SRC_AUX_SLOT)).or s.nrg.aux
  { s with nrg := { s.nrg with lv := lv, aux := aux } }

/-- The ledger update at the opening of the compute window (R244 to R246, R267). -/
def State.updateLedger (s : State) : State :=
  let s := s.takeVoltages
  let led := s.ledgerOf s.presentView
  let s := { s with nrg := { s.nrg with ledger := led } }
  let s := (s.putBasin 20 (joules led.total)).putBasin 21 (joules led.relMax)
  each [0, 1, 2] (fun s l => s.putBasin (22 + l) (joules (s.legEnergy led l))) s

/-- A signed 64-bit cap. -/
def State.cap (s : State) (lo hi : Fld) : Int := sx 64 (s.rd lo + s.rd hi * 2 ^ 32)

/-- The four caps of Table 9.2. -/
def State.caps (s : State) : Int × Int × Int × Int :=
  (s.cap R.NRG_CAP_CELL_LO R.NRG_CAP_CELL_HI, s.cap R.NRG_CAP_POUND_LO R.NRG_CAP_POUND_HI,
   s.cap R.NRG_CAP_TOTAL_LO R.NRG_CAP_TOTAL_HI, s.cap R.NRG_CAP_RELEASE_LO R.NRG_CAP_RELEASE_HI)

/-- Index of the largest of a list. -/
def worst (xs : List Int) : Nat := (xs.foldl (fun (i, b, m) x => if m < x then (i + 1, i, x) else (i + 1, b, m)) (0, 0, -1)).2.1

/-- A condition that asserts a source while it holds: asserted as it begins, its ACTIVE bit following it. -/
def State.level (s : State) (n inst : Nat) (was now : Bool) : State :=
  if now && !was then (s.setActive n true).raise n inst
  else if was && !now then s.setActive n false
  else s

/-- Which caps are exceeded (R250). -/
structure Over where
  cell : Bool
  pound : Bool
  total : Bool
  rel : Bool
  deriving DecidableEq, Repr

/-- The caps exceeded as bits of the event (Table 9.9). -/
def Over.bits (o : Over) : Nat :=
  (if o.cell then 1 else 0) + (if o.pound then 2 else 0) + (if o.total then 4 else 0) + (if o.rel then 8 else 0)

/-- Does a cap on stored energy stand exceeded? -/
def Over.stored (o : Over) : Bool := o.cell || o.pound || o.total

/-- The caps that the ledger exceeds. -/
def State.overNow (s : State) : Over :=
  let led := s.nrg.ledger
  let (cc, cp, ct, cr) := s.caps
  { cell := led.cells.any fun e => decide (cc < e), pound := (s.poundList.map led.pound).any fun e => decide (cp < e)
    total := decide (ct < led.total), rel := decide (cr < led.relMax) }

/-- The caps shown exceeded. -/
def State.overShown (s : State) : Over :=
  { cell := s.is R.NRG_STAT_OVER_CELL, pound := s.is R.NRG_STAT_OVER_POUND, total := s.is R.NRG_STAT_OVER_TOTAL
    rel := s.is R.NRG_STAT_OVER_REL }

/-- The caps shown. -/
def State.showOver (s : State) (o : Over) : State :=
  (((s.wrB R.NRG_STAT_OVER_CELL o.cell).wrB R.NRG_STAT_OVER_POUND o.pound).wrB R.NRG_STAT_OVER_TOTAL o.total).wrB
    R.NRG_STAT_OVER_REL o.rel

/-- The cell, the pound or the leg that exceeds its cap most. -/
def State.overWorst (s : State) (o : Over) : Nat :=
  let led := s.nrg.ledger
  if o.cell then worst led.cells else if o.pound then worst (s.poundList.map led.pound)
  else if o.rel then worst led.rel else 0

/-- Commands that would store more energy are limited (R250). -/
def State.clipCommands (s : State) (o : Over) : State :=
  let led := s.nrg.ledger
  let (cc, cp, _, _) := s.caps
  let limited (g : Nat) : Bool := o.total || decide (cc < led.cell g) || decide (cp < led.pound (g / 16))
  let clip (p : Nat × CellCmd) : Nat × CellCmd :=
    if limited p.1 then (p.1, { p.2 with dab := fMax 0#32 p.2.dab, dabSlope := 0 }) else p
  if o.stored then { s with cell := { s.cell with cmds := s.cell.cmds.map clip } } else s

/-- The check of the computed commands against the caps (R250). -/
def State.capCheck (s : State) : State :=
  let now := s.overNow
  let old := s.overShown
  let bad := s.overWorst now
  let rel := worst s.nrg.ledger.rel
  let s := (s.clipCommands now).showOver now
  let s := s.when (now.bits ≠ old.bits) fun s => s.event 4 1 [(16, 1, now.bits), (17, 1, old.bits), (18, 2, bad)]
  (s.level 0x080 bad old.stored now.stored).level 0x081 rel old.rel now.rel

/-! ### What is admitted and not yet in effect -/

/-- Role of a cell once an admitted command has taken effect; `former` is the role a SLUICING cell held before. -/
def dueRole (g : Nat) (former : CellRole) (r : CellRole) (x : Due) : CellRole :=
  let d := x.desc
  let op := d.opcode.toNat
  if op = 0x10 then (if d.le 4 1 ≠ 0 ∧ r = .ready then .active else r)
  else if op = 0x40 ∧ d.le 4 1 = g / 16 then
    (if r = .none ∨ r = .failed ∨ r = .out then r
     else if r = .parked ∧ d.le 5 1 = 1 then .rejoining else .charging)
  else if op = 0x41 ∧ d.le 4 1 = g / 16 then
    (match r with | .active => .parked | .charging => .disabled | .ready => .disabled | .rejoining => .disabled | _ => r)
  else if op = 0x42 ∧ d.le 4 2 = g then
    (if d.le 6 1 = 0 then (if r = .none ∨ r = .failed ∨ r = .out then r else .parked)
     else if r = .parked ∨ r = .failed then .rejoining else r)
  else if op = 0x50 ∧ d.le 4 1 ≠ 0 ∧ r = .sluicing then former
  else r

/-- Role of a cell once every admitted command has taken effect. -/
def State.soonRole (s : State) (g : Nat) : CellRole :=
  s.hst.due.foldl (dueRole g (CellRole.ofCode (s.cellAt g).former)) (s.cellRole g)

/-! ### Views of admission (R254) -/

/-- Last admitted VDC_CELL set-point that covers a leg; the nominal before any. -/
def State.vdcSetOf (s : State) (l : Nat) : F32 :=
  match s.nrg.vdcSet.find? fun p => p.1 = l with
  | some (_, v) => v
  | none => s.f32 R.CELL_VDC_NOM

/-- What a command under check would change: the commitments of some cells, cells that count as ACTIVE, the LV bus. -/
structure Ask where
  /-- V_commit a cell would take; none leaves it as it is -/
  commit : Nat → Option Rat
  act : Nat → Bool
  lv : Option Rat
  /-- DETAIL of a further test that fails -/
  extra : Option Nat

/-- Nothing asked. -/
def Ask.nothing : Ask := { commit := fun _ => none, act := fun _ => false, lv := none, extra := none }

/-- Cells of a scope: 0 cell, 1 pound, 2 plant. -/
def State.scopeCells (s : State) (scope idx : Nat) : List Nat :=
  if scope = 0 then [idx] else if scope = 1 then poundCells idx else s.allCells

/-- Target of a cell once an admitted SLUICE has taken effect: a START queues a READY or DISABLED cell of its scope
whose voltage lies above its target, or lowers the target of one it finds there; a STOP drops all (R260 to R262). -/
def State.dueTarget (s : State) (g : Nat) (t : Option F32) (x : Due) : Option F32 :=
  let d := x.desc
  if d.opcode.toNat ≠ 0x50 then t
  else if d.le 4 1 ≠ 0 then none
  else if !(s.scopeCells (d.le 5 1) (d.le 6 2)).contains g then t
  else
    let v : F32 := BitVec.ofNat 32 (d.le 8 4)
    match t with
    | some u => some (fMin u v)
    | none =>
      if (decide (s.cellRole g = .ready) || decide (s.cellRole g = .disabled)) && fLt v (s.vg g) then some v else none

/-- Target of a queued or SLUICING cell once every admitted command has taken effect. -/
def State.soonTarget (s : State) (g : Nat) : Option Rat :=
  let t : Option F32 := if s.cellRole g = .sluicing then some (s.cellAt g).target
    else (s.nrg.sluice.find? fun x => x.cell = g && !x.on).map (·.target)
  (s.hst.due.foldl (s.dueTarget g) t).map fRat

/-- V_commit of a cell without the command. -/
def State.committed (s : State) (g : Nat) : Option Rat :=
  match s.soonRole g with
  | .active => some (fRat (s.vdcSetOf (s.legOf (g / 16))))
  | .charging => some (fRat (s.vdcSetOf (s.legOf (g / 16))))
  | .rejoining => some (fRat (s.vdcSetOf (s.legOf (g / 16))))
  | .sluicing => s.soonTarget g
  | _ => none

/-- The view of the plant with a command applied: prospective, or planned (R254). -/
def State.viewWith (s : State) (planned : Bool) (a : Ask) : View :=
  { volt := fun g =>
      let v := fRat (s.vg g)
      let c := match a.commit g with | some x => some x | none => s.committed g
      match c with
      | some x => if planned then x else max v x
      | none => if planned then (s.soonTarget g).getD v else v
    act := fun g => decide (s.soonRole g = .active) || a.act g
    lv := max (fRat s.vLv) (match a.lv with | some x => x | none => fRat (s.nrg.lvSet.getD 0))
    aux := fRat s.vAux }

/-- The first failing limit of a command in a view (R256, step 2): DETAIL. -/
def State.misfit (s : State) (planned : Bool) (a : Ask) : Option Nat :=
  let x := s.ledgerOf (s.viewWith planned a)
  let y := s.ledgerOf (s.viewWith planned Ask.nothing)
  let (cc, cp, ct, cr) := s.caps
  let above (cap a b : Int) : Bool := decide (cap < a) && decide (b < a)
  if (List.zip x.cells y.cells).any (fun (e, f) => above cc e f) then some 0x0403
  else if s.poundList.any (fun p => above cp (x.pound p) (y.pound p)) then some 0x0404
  else if above ct x.total y.total then some 0x0405
  else if above cr x.relMax y.relMax then some 0x0406
  else a.extra

/-- Is a change in motion? (R256, step 3) -/
def State.inMotion (s : State) : Bool :=
  decide (s.rd R.NRG_STAT_SLUICE = 1) ||
    s.allCells.any fun g =>
      let r := s.cellRole g
      (decide (r = .active) || decide (r = .charging) || decide (r = .rejoining)) &&
        decide (fRat (s.vdcSetOf (s.legOf (g / 16))) < fRat (s.vg g))

/-- The largest `k` up to `hi` that passes a test which fails from some point on; the test passes at `lo`. -/
def searchTop (p : Nat → Bool) : Nat → Nat → Nat → Nat
  | 0, lo, _ => lo
  | fuel + 1, lo, hi =>
    if hi ≤ lo then lo
    else
      let mid := (lo + hi + 1) / 2
      if p mid then searchTop p fuel mid hi else searchTop p fuel lo (mid - 1)

/-- The largest fitting value in the requested direction, rounded toward the value in force (R256, step 4); none when
it does not lie beyond the value in force. `unit` is the rounding step. A binary32 value is below 2^128 and the smallest
step is a tenth, so 160 halvings reach every one. -/
def State.derated (s : State) (unit : Rat) (ask : F32 → Ask) (want inForce : F32) : Option F32 :=
  let neg := fSign want
  let m := fRat (fAbs want)
  let f := if neg then -(fRat inForce) else fRat inForce
  if m ≤ f then none
  else
    let val (k : Nat) : F32 := let q : Rat := (k : Rat) * unit; fOfRat (if neg then -q else q)
    let fits (k : Nat) : Bool := (s.misfit false (ask (val k))).isNone
    let k := searchTop fits 160 0 (m / unit).floor.toNat
    if f < fRat (fAbs (val k)) && fits k then some (val k) else none

/-- Rounding step of a derated value: 0.1 V or A, 1 kW. -/
def tenth : Rat := 1 / 10

/-- The outcome of a checked command (R256). `final` decides by step 4 at once, with DETAIL 0x0408 (R257). -/
def State.admission (s : State) (mayDerate : Option Rat) (ask : F32 → Ask) (want inForce : F32) (final : Bool) : Verdict :=
  match s.misfit false (ask want) with
  | none => { status := .ok, value := want }
  | some det =>
    if !final && s.inMotion && (s.misfit true (ask want)).isNone then { status := .deferred, detail := det }
    else
      let det := if final then 0x0408 else det
      match (if s.is R.NRG_CTL_DERATE_EN then mayDerate else none).bind fun u => s.derated u ask want inForce with
      | some v => { status := .derated, detail := det, value := v }
      | none => vEnergy det

/-! ### Strings (R247, R248, R253, R255) -/

/-- Strings that take part. -/
def State.stringsOn (s : State) : List Nat := (List.range 16).filter fun i => s.is (R.NRG_STR_CTL_EN i)

/-- SOE of a string in mJ, when set. -/
def State.soe? (s : State) (i : Nat) : Option Int := (s.nrg.soe.find? fun p => p.1 = i).map (·.2)

/-- SOE of a string in mJ: as set and metered since, or what was metered since reset while it is unset (R247, R248). -/
def State.soeOf (s : State) (i : Nat) : Int :=
  (s.soe? i).getD ((SMap.get (fun _ => (0 : Nat)) s.nrg.eIn i : Nat) - (SMap.get (fun _ => (0 : Nat)) s.nrg.eOut i : Nat) : Int)

/-- A kJ register in mJ. -/
def State.kJ (s : State) (f : Fld) : Int := (s.rd f : Int) * 1000000

/-- The energy the strings offer, mJ (R255). -/
def State.availableEnergy (s : State) : Int :=
  (s.stringsOn.map fun i => match s.soe? i with
    | some e => max 0 (e - s.kJ (R.NRG_STR_RES i))
    | none => 0).foldl (· + ·) 0

/-- The headroom of the strings, mJ (R255). -/
def State.headroom (s : State) : Int :=
  (s.stringsOn.map fun i => match s.soe? i with
    | some e => max 0 (s.kJ (R.NRG_STR_CAP i) - s.kJ (R.NRG_STR_TOP i) - e)
    | none => 0).foldl (· + ·) 0

/-- DERATE of a leg as the Basin reads it from its slot (R255). -/
def State.derateSlot (s : State) (l : Nat) : F32 :=
  let x := s.rd R.CELL_OUT_OUT_BASE + 8 * l + 7
  if s.slotKind x = 5 && (s.slotQual x).getLsbD 0 then s.slotValue x else 0#32

/-- `NRG_P_RATED` times the smallest DERATE. -/
def State.powerLimit (s : State) : F32 :=
  fMul (s.f32 R.NRG_P_RATED) (fMin (s.derateSlot 0) (fMin (s.derateSlot 1) (s.derateSlot 2)))

/-- Does the direction in force forbid the sign of a power, positive exporting? (R251) -/
def State.dirForbids (s : State) (p : F32) : Bool :=
  (decide (s.rd R.NRG_CTL_DIR = 0) && fLt 0#32 p) || (decide (s.rd R.NRG_CTL_DIR = 1) && fLt p 0#32)

/-- The magnitude tests of a POWER-class value (R255). -/
def State.powerTest (s : State) (p : F32) : Option Nat :=
  let e : Rat := fRat (fAbs p) * fRat (s.f32 R.NRG_T_MIN) * 1000
  if fLt s.powerLimit (fAbs p) then some 0x0407
  else if fLt 0#32 p ∧ (s.availableEnergy : Rat) < e then some 0x0407
  else if fLt p 0#32 ∧ (s.headroom : Rat) < e then some 0x0407
  else none

/-- SOE as shown in its registers. -/
def State.showSoe (s : State) (i : Nat) : State :=
  let e := ux 64 (s.soeOf i)
  ((s.wr (R.NRG_STR_SOE_LO i) e).wr (R.NRG_STR_SOE_HI i) (e / 2 ^ 32)).wrB (R.NRG_STR_STAT_SOE_VALID i) (s.soe? i).isSome

/-- Increment of accumulator `a` since the previous mark, and whether its interval is invalid (R247, R280). -/
def State.increment (s : State) (a : Nat) : Int × Bool :=
  let x := s.accAt a
  (sx 64 (ux 64 (x.mJ - SMap.get (fun _ => 0) s.nrg.totals a)), x.gap)

/-- One string's energy at a SAMPLE mark (R247). -/
def State.stringEnergy (s : State) (i : Nat) : State :=
  let (d, gap) := s.increment (s.rd (R.NRG_STR_CTL_SRC i))
  if gap then
    let s := s.wrB (R.NRG_STR_STAT_METER_GAP i) true
    let s := { s with nrg := { s.nrg with gapSeen := true } }
    (s.event 4 4 [(16, 1, i), (17, 1, 3)]).raise 0x083 i
  else
    let up (m : List (Nat × Nat)) (x : Int) := SMap.put (fun _ => 0) m i ((SMap.get (fun _ => 0) m i + x.toNat) % 2 ^ 64)
    let s := { s with nrg := { s.nrg with
      eIn := up s.nrg.eIn (max d 0), eOut := up s.nrg.eOut (max (-d) 0)
      soe := s.nrg.soe.map fun (j, e) => if j = i then (j, e + d) else (j, e) } }
    s.showSoe i

/-- String and PCC energies, then the SOE writes due, at a SAMPLE mark (R247, R248). -/
def State.meterStrings (s : State) : State :=
  let s := each s.stringsOn State.stringEnergy s
  let s := if s.is R.NRG_PCC_EN then
      let (a, g) := s.increment (s.rd R.NRG_PCC_IMPORT)
      let (b, h) := s.increment (s.rd R.NRG_PCC_EXPORT)
      { s with nrg := { s.nrg with
          pccIn := (s.nrg.pccIn + (if g then 0 else (max a 0).toNat)) % 2 ^ 64
          pccOut := (s.nrg.pccOut + (if h then 0 else (max b 0).toNat)) % 2 ^ 64 } }
    else s
  let s := { s with
    nrg := { s.nrg with totals := s.accsInUse.map fun a => (a, (s.accAt a).mJ) }
    mtr := { s.mtr with accs := s.mtr.accs.map fun (a, x) => (a, { x with gap := false }) } }
  let due := s.nrg.soeSet
  let s := each due (fun s (i, v) =>
    let old := s.soeOf i
    let s := { s with nrg := { s.nrg with soe := SMap.ins s.nrg.soe i ((v : Int) * 1000000), soeSeen := true } }
    (s.showSoe i).event 4 5 [(16, 1, i), (20, 4, v), (24, 8, ux 64 old)]) s
  { s with nrg := { s.nrg with soeSet := [] } }

/-- STR_GUARD made to agree with the strings. -/
def State.showGuard (s : State) : State :=
  s.wrB R.NRG_STAT_STR_GUARD ((List.range 16).any fun i => s.is (R.NRG_STR_STAT_GUARD i))

/-- The set-point of string `i`, as last admitted; 0 where none can be. -/
def State.stringSetpoint (s : State) (i : Nat) : F32 := if s.basinOut then s.setpoint (s.rd R.NRG_OUT_OUT_BASE + i) else 0#32

/-- The set-points in force written to the strings' slots at a SAMPLE mark (Table 9.8). -/
def State.feedStrings (s : State) : State :=
  each (List.range 16) (fun s i => s.putBasin i (s.slotValue (s.rd R.NRG_OUT_OUT_BASE + i))) s

/-- A slot written at once: nothing staged for it remains. -/
def State.forceSlot (s : State) (slot : Nat) (v : F32) : State :=
  let s := { s with loop := { s.loop with staged := s.loop.staged.filter fun p => p.1 ≠ slot } }
  if s.slotKind slot = 0 then s else s.putSlot slot v qValid s.sys.k

/-- The guard of string `i`, if enabled, at a SAMPLE mark (R253). -/
def State.guardString (s : State) (i : Nat) : State :=
  match (if s.is (R.NRG_STR_CTL_EN i) then s.soe? i else none) with
  | none => s
  | some e =>
    let sp := s.stringSetpoint i
    let low := decide (e ≤ s.kJ (R.NRG_STR_RES i)) && fLt sp 0#32
    let high := decide (s.kJ (R.NRG_STR_CAP i) - s.kJ (R.NRG_STR_TOP i) ≤ e) && fLt 0#32 sp
    if low || high then
      let s := s.forceSlot (s.rd R.NRG_OUT_OUT_BASE + i) 0
      let s := ((s.wrB (R.NRG_STR_STAT_GUARD i) true).wrB (R.NRG_STR_STAT_TOP i) high).showGuard
      (s.event 4 4 [(16, 1, i), (17, 1, if low then 1 else 2)]).raise 0x082 i
    else s

/-- Each POWER-class slot held to the derated limit (R259). -/
def State.limitPower (s : State) : State :=
  each s.powerSetpoints (fun s (slot, v) =>
    let lim := s.powerLimit
    if fLt lim (fAbs v) then
      let v' := if fSign v then fNeg lim else lim
      let s := { s with loop := { s.loop with staged := s.loop.staged ++ [(slot, v')] } }
      s.countAdmit.event 4 3 [(16, 2, slot), (20, 4, v'.toNat)]
    else s) s

/-- The auxiliary bus allowance and limit at a SAMPLE mark, on V_AUX as frozen at it (R246, R264). -/
def State.auxAllowance (s : State) : State :=
  let v := ((s.usable (s.rd R.NRG_SRC_AUX_SLOT)).or s.nrg.aux).getD (s.f32 R.NRG_V_AUX_MAX)
  let vm := s.f32 R.NRG_V_AUX_MAX
  let on := [0, 1, 2, 3].filter fun d => s.is (R.AUX_CTL_EN d)
  let n := max 1 on.length
  let h := fMul fHalf (fMul (s.f32 R.NRG_C_AUX) (fSub (fMul vm vm) (fMul v v)))
  let a := fDiv (fMax 0#32 h) (fMul (fOfNat n) (s.f32 R.NRG_AUX_TAU))
  let s := each on (fun s d => s.putBasin (16 + d) a) s
  let was := s.is R.NRG_STAT_AUX_OVER
  let now := fLt vm v
  let s := s.wrB R.NRG_STAT_AUX_OVER now
  let s := if was ≠ now then s.event 4 9 [(16, 1, if now then 1 else 0)] else s
  s.level 0x085 0 was now

/-! ### The sluice (R260 to R263) -/

/-- SLUICE_STATE. -/
def State.setSluice (s : State) (st : Nat) (auto : Bool) : State :=
  if s.rd R.NRG_STAT_SLUICE = st then s
  else (s.wr R.NRG_STAT_SLUICE st).event 4 6 [(16, 1, st), (17, 1, if auto then 1 else 0)]

/-- Insert a cell into the queue by decreasing E_cell. -/
def insertByEnergy (e : Nat → Int) (x : SluiceItem) : List SluiceItem → List SluiceItem
  | [] => [x]
  | y :: t => if e y.cell < e x.cell then x :: y :: t else y :: insertByEnergy e x t

/-- A sluice starts, or its queue grows, at the effect mark (R261, step 1; Table 9.6). -/
def State.sluiceStart (s : State) (scope idx : Nat) (target : F32) (auto : Bool) : State :=
  if s.rd R.NRG_STAT_SLUICE = 2 then s
  else
    let fresh := s.rd R.NRG_STAT_SLUICE = 0
    let s := if fresh then
        { s with nrg := { s.nrg with sluice := [], sluiceAuto := auto, sluiceDone := 0, sluiceLost := 0, sluiceEnergy := 0 } }
      else s
    let gs := s.scopeCells scope idx
    let old := s.nrg.sluice.map fun x =>
      if gs.contains x.cell && fLt target x.target then { x with target := target } else x
    let new := gs.filter fun g =>
      !(old.any fun x => x.cell = g) && (decide (s.cellRole g = .ready) || decide (s.cellRole g = .disabled))
        && fLt target (s.vg g)
    let e (g : Nat) : Int := s.nrg.ledger.cell g
    let add := new.foldl (fun q g => insertByEnergy e ⟨g, target, false⟩ q) []
    let s := { s with nrg := { s.nrg with sluice := old ++ add } }
    let s := each (old.filter fun x => x.on) (fun s x => s.modCell x.cell fun c => { c with target := x.target }) s
    s.setSluice 1 auto

/-- The sluice returns to IDLE with a result (R261, R262, Table 9.9a). -/
def State.sluiceEnd (s : State) (result : Nat) : State :=
  let s := s.setSluice 0 s.nrg.sluiceAuto
  let s := s.event 4 7 [(16, 1, result), (17, 1, s.nrg.sluiceDone), (18, 1, s.nrg.sluiceLost), (20, 8, s.nrg.sluiceEnergy)]
  { s with nrg := { s.nrg with sluice := [], sluiceAuto := false } }

/-- A cell leaves SLUICING to the role it held before. -/
def State.sluiceRole (s : State) (g : Nat) : State :=
  if s.cellRole g = .sluicing then s.setRole g (CellRole.ofCode (s.cellAt g).former) else s

/-- A sluice is stopped at the effect mark: queued cells dropped, sluicing cells commanded BLOCK (R262). -/
def State.sluiceStop (s : State) : State :=
  if s.rd R.NRG_STAT_SLUICE ≠ 1 then s
  else
    let on := s.nrg.sluice.filter fun x => x.on
    let s := each on (fun s x => s.sluiceRole x.cell) s
    let s := { s with nrg := { s.nrg with sluice := on, sluiceLost := s.nrg.sluiceLost + on.length, stopAt := s.tsn.local_ } }
    s.setSluice 2 s.nrg.sluiceAuto

/-- The sluice ends at once with a result: safety SAFE, or RUN left (R262, Table 17.2). -/
def State.sluiceAbort (s : State) (result : Nat) : State :=
  if s.rd R.NRG_STAT_SLUICE = 0 then s
  else
    let on := s.nrg.sluice.filter fun x => x.on
    let lost := if s.rd R.NRG_STAT_SLUICE = 1 then on.length else 0
    let s := each on (fun s x => s.sluiceRole x.cell) s
    ({ s with nrg := { s.nrg with sluiceLost := s.nrg.sluiceLost + lost } }).sluiceEnd result

/-- A sluicing cell ends its sluice, finished or not (R261, step 3). -/
def State.sluiceCellEnd (s : State) (g : Nat) (ok : Bool) : State :=
  let s := s.sluiceRole g
  { s with nrg := { s.nrg with sluice := s.nrg.sluice.filter (fun x => x.cell ≠ g)
                               sluiceDone := s.nrg.sluiceDone + (if ok then 1 else 0)
                               sluiceLost := s.nrg.sluiceLost + (if ok then 0 else 1) } }

/-- A sluicing cell has not finished within TMO (R261). -/
def State.sluiceCellTimeout (s : State) (g : Nat) : State :=
  if s.rd R.NRG_STAT_SLUICE = 1 && s.cellRole g = .sluicing then
    let t' := (s.cellAt g).since + s.rd R.NRG_SLUICE_TMO * 500000
    let s := { s with tsn := { s.tsn with local_ := max s.tsn.local_ t' } }
    (s.sluiceCellEnd g false).raise 0x084 g
  else s

/-- Queued cells start in order within PER_POUND; those no longer READY or DISABLED are dropped (R261, step 2). -/
def State.sluiceFeed (s : State) : State :=
  each s.nrg.sluice (fun s x =>
    if x.on then s
    else if s.cellRole x.cell ≠ .ready ∧ s.cellRole x.cell ≠ .disabled then
      { s with nrg := { s.nrg with sluice := s.nrg.sluice.filter fun y => y.cell ≠ x.cell } }
    else if (s.nrg.sluice.filter fun y => y.on && decide (y.cell / 16 = x.cell / 16)).length < s.rd R.NRG_SLUICE_PER_POUND then
      let s := s.setRole x.cell .sluicing
      let s := s.modCell x.cell fun c => { c with target := x.target, finished := 0 }
      { s with nrg := { s.nrg with sluice := s.nrg.sluice.map fun y => if y.cell = x.cell then { y with on := true } else y } }
    else s) s

/-- The sluice advanced at a SAMPLE mark (R261, R262). The pending START is its caller's. -/
def State.sluiceAdvance (s : State) : State :=
  if s.rd R.NRG_STAT_SLUICE = 1 then
    let done := s.nrg.sluice.filter fun x => x.on && decide (2 ≤ (s.cellAt x.cell).finished)
    let s := (each done (fun s x => s.sluiceCellEnd x.cell true) s).sluiceFeed
    if s.nrg.sluice.isEmpty then s.sluiceEnd 0 else s
  else if s.rd R.NRG_STAT_SLUICE = 2 then
    let busy := s.nrg.sluice.any fun x => (s.cellStatus x.cell).testBit 10
    if !busy || decide (s.nrg.stopAt + s.rd R.NRG_SLUICE_TMO * 500000 ≤ s.tsn.local_) then s.sluiceEnd 1 else s
  else s

/-- The automatic sluice at a SAMPLE mark (R263). -/
def State.autoSluice (s : State) : State :=
  let above := s.is R.NRG_STAT_OVER_CELL || s.is R.NRG_STAT_OVER_POUND || s.is R.NRG_STAT_OVER_TOTAL
  if s.is R.NRG_CTL_AUTO_SLUICE && s.grid = 0 && s.rd R.NRG_STAT_SLUICE = 0 && above then
    let n := s.nrg.overMarks + 1
    if 16 ≤ n then
      ({ s with nrg := { s.nrg with overMarks := 0 } }).sluiceStart 2 0 (s.f32 R.NRG_SLUICE_AUTO_V) true
    else { s with nrg := { s.nrg with overMarks := n } }
  else { s with nrg := { s.nrg with overMarks := 0 } }

/-- Has a pound queued or sluicing cells? -/
def State.poundSluices (s : State) (p : Nat) : Bool := s.nrg.sluice.any fun x => decide (x.cell / 16 = p)

end Sys2Proof.Machine
end

