-- ==== Sys2Proof/Machine/Operands.lean ====
section
/-! DEFINITION. The operand layout of every descriptor: step 1 of R102, one function per opcode. A format answers
the DETAIL of the first failure in the order of R102: 0x0005 a byte or bit that must be zero, 0x0008 a fused-off name,
0x0007 any other operand out of range. -/

set_option Elab.async false

namespace Sys2Proof.Machine

open Sys2Proof

/-- The binary32 operand at descriptor byte `i`. -/
def opF32 (d : Desc) (i : Nat) : F32 := BitVec.ofNat 32 (d.le i 4)

/-- A pound operand: in range, and fused on (R2). -/
def State.poundFused (s : State) (p : Nat) : Option Nat :=
  if 12 ≤ p then some 7 else if s.poundCount ≤ p then some 8 else none

/-- A cell operand: in range, and fused on (R2). -/
def State.cellFused (s : State) (g : Nat) : Option Nat :=
  if 192 ≤ g then some 7 else if 16 * s.poundCount ≤ g then some 8 else none

/-- No operands: HEARTBEAT, HOST_RESUME (Table 4.6). -/
def fmtNone : Format := fun _ d => reservedOk d [(4, 20)]

/-- POWER_STATE: byte 4 in the REQ encoding of Table 3.18 (Table 4.6). -/
def fmtPower : Format := fun _ d => firstOf [reservedOk d [(5, 19)], need (Power.ofReq (d.le 4 1)).isSome 7]

/-- GRID_MODE (R239). -/
def fmtGrid : Format := fun _ d => firstOf [reservedOk d [(5, 19)], need (d.le 4 1 < 4) 7]

/-- ENERGY_DIR (R251). -/
def fmtDir : Format := fun _ d => firstOf [reservedOk d [(5, 19)], need (d.le 4 1 < 3) 7]

/-- SETPOINT (R216). -/
def fmtSetpoint : Format := fun s d =>
  firstOf [reservedOk d [(6, 2), (12, 12)], need (d.le 4 2 < 4096) 5, need (s.slotKind (d.le 4 2) = 1) 7,
    need (fFinite (opF32 d 8)) 7]

/-- STRING_SETPOINT (R252). -/
def fmtString : Format := fun _ d =>
  firstOf [reservedOk d [(5, 3), (12, 12)], need (d.le 4 1 < 16) 7, need (fFinite (opF32 d 8)) 7]

/-- BANK_COMMIT (R207). -/
def fmtCommit : Format := fun _ d => firstOf [reservedOk d [(5, 3), (12, 12)], need (d.le 4 1 < 2) 5]

/-- POUND_ENABLE (R226). -/
def fmtPoundEnable : Format := fun s d =>
  firstOf [reservedOk d [(6, 18)], s.poundFused (d.le 4 1), need (d.le 5 1 < 2) 7]

/-- POUND_DISABLE (R228). -/
def fmtPoundDisable : Format := fun s d => firstOf [reservedOk d [(5, 19)], s.poundFused (d.le 4 1)]

/-- CELL_BYPASS (R233, Table 8.7). -/
def fmtBypass : Format := fun s d =>
  firstOf [reservedOk d [(7, 17)], s.cellFused (d.le 4 2), need (d.le 6 1 < 2) 7,
    need (s.cellRole (d.le 4 2) ≠ .none) 7]

/-- CELL_SERVICE (R177, R188). -/
def fmtService : Format := fun s d =>
  firstOf [reservedOk d [(10, 2), (20, 4)], s.cellFused (d.le 4 2), need (d.le 6 1 = 1 || d.le 6 1 = 2) 7,
    need (d.le 7 1 = 1 || d.le 7 1 = 2) 7, need (d.le 8 2 % 4 = 0) 7]

/-- SLUICE (R260). -/
def fmtSluice : Format := fun s d =>
  let scope := d.le 5 1
  let target := opF32 d 8
  firstOf [reservedOk d [(12, 12)], need (scope ≠ 2 || d.zero 6 2) 5, need (d.le 4 1 ≠ 1 || d.zero 8 4) 5,
    (if scope = 0 then s.cellFused (d.le 6 2) else if scope = 1 then s.poundFused (d.le 6 2) else none),
    need (d.le 4 1 < 2) 7, need (scope < 3) 7,
    need (d.le 4 1 = 1 || (fFinite target && fLe 0#32 target && fLe target (s.f32 R.CELL_VDC_MAX))) 7]

/-- A host buffer: address aligned to 8 bytes, length at least `n`. -/
def bufferOk (d : Desc) (addr len n : Nat) : Option Nat :=
  firstOf [need (d.le addr 8 % 8 = 0) 7, need (n ≤ d.le len 2) 0xC]

/-- ENERGY_RECORD (R265). -/
def fmtRecord : Format := fun _ d =>
  firstOf [reservedOk d [(14, 1), (20, 4)], need (d.le 15 1 = 0) 7, bufferOk d 4 12 528]

/-- ATTEST (R414). -/
def fmtAttest : Format := fun _ d => firstOf [reservedOk d [(14, 2), (20, 4)], bufferOk d 4 12 192]

/-- AUX_RUN (R326). -/
def fmtAuxRun : Format := fun s d =>
  let v := opF32 d 8
  let r := opF32 d 12
  firstOf [reservedOk d [(5, 3), (16, 8)], need (d.le 4 1 < 4) 7, need (fFinite v && fFinite r) 7,
    need (fLe (fAbs v) (s.f32 (R.AUX_SPEED_MAX (d.le 4 1)))) 7, need (fLt 0#32 r) 7]

/-- AUX_STOP (R326). -/
def fmtAuxStop : Format := fun _ d => firstOf [reservedOk d [(6, 18)], need (d.le 4 1 < 4) 7, need (d.le 5 1 < 2) 7]

/-- FAULT_CLEAR (R400). -/
def fmtClear : Format := fun _ d =>
  let scope := d.le 4 1
  firstOf [reservedOk d [(8, 16)], need (d.le 5 1 < 2) 5, need (scope ≠ 1 || d.zero 7 1) 5, need (scope ≠ 2 || d.zero 6 2) 5,
    need (scope < 3) 7, need (scope ≠ 0 || (sourceClass (d.le 6 2)).isSome) 7, need (scope ≠ 1 || d.le 6 1 < 14) 7]

/-- ROLE_SWAP (R378). -/
def fmtSwap : Format := fun _ d => reservedOk d [(4, 4), (16, 8)]

/-- DEBUG_UNLOCK (R419). -/
def fmtUnlock : Format := fun _ d =>
  let op := d.le 4 1
  firstOf [reservedOk d [(7, 1), (18, 6)], need (op = 0 || d.zero 5 1) 5, need (op < 3) 7, need (d.le 6 1 < 2) 7,
    need (op ≠ 0 || d.le 5 1 < 4) 7, need (op ≠ 0 || 64 ≤ d.le 16 2) 0xC, need (op ≠ 1 || 128 ≤ d.le 16 2) 0xC]

/-- FRAME_TX (R110). -/
def fmtFrameTx : Format := fun _ d =>
  firstOf [need (d.le 15 1 < 4) 5, need (60 ≤ d.le 12 2 && d.le 12 2 ≤ 1518) 7, need (d.le 14 1 < 3) 7]

/-- RX_BUFFER (R111). Bytes 14 to 23, which the rule gives no operand, are taken as reserved, so that one that is not
zero is DETAIL 0x0005: the rule lists no reserved bytes there (log entry 114, DESIGN CHOICE). -/
def fmtRxBuffer : Format := fun _ d => firstOf [reservedOk d [(14, 10)], need (1536 ≤ d.le 12 2) 0xC]

/-- TLM_BUFFER (R108). -/
def fmtTlmBuffer : Format := fun _ d =>
  firstOf [reservedOk d [(16, 8)], need (d.le 4 8 % 8 = 0) 7, need (64 ≤ d.le 12 4 && d.le 12 4 ≤ 65536) 0xC]

end Sys2Proof.Machine
end

