-- ==== Sys2Proof/Machine/Cells.lean ====
section
/-! DEFINITION. Admitted and kept commands; the commands of the Manager and the Basin, their checks (step 4 of R102)
and what they do at their effect mark; grid modes; what leaving RUN forces (R226 to R241, R251 to R263, R425). -/

set_option Elab.async false

namespace Sys2Proof.Machine

open Sys2Proof

/-! ### Rates and windows of the pounds (R19, R20) -/

/-- Rate of a pound: the lowest of this seat's RUNNING lanes, else the one last confirmed. -/
def State.rateOf (s : State) (p : Nat) : Nat :=
  match ((s.ownLanes p).filter s.runs).map fun n => s.rd (R.CNL_LANE_STAT_RATE n) with
  | [] => (s.pound p).confirmed
  | r :: t => t.foldl min r

/-- Is a pound served from its two ends (Table 1.3)? -/
def State.bothEnds (s : State) (p : Nat) : Bool := s.is (R.CNL_POUND_STAT_BOTH_ENDS p)

/-- U or D of a pound in ns at its rate and reach, `f` being the both-ends column of Table 1.3; the one-end figures are
twice as long (R20). -/
def State.windowOf (s : State) (f : Nat → Nat) (p : Nat) : Nat := f (s.rateOf p) * (if s.bothEnds p then 1 else 2)

/-- U or D of the cycle: the longest among the pounds in FULL service, with none that of the lowest TARGET (log entry
56). -/
def State.windowLen (s : State) (f : Nat → Nat) : Nat :=
  match (s.poundList.filter fun p => s.rd (R.CNL_POUND_STAT_SERVICE p) = 0).map (s.windowOf f) with
  | [] => f s.lowestTarget
  | x :: t => t.foldl max x

/-! ### Admitted and kept commands -/

/-- A command admitted, to take effect at the next SAMPLE mark (R29). -/
def State.queueDue (s : State) (d : Desc) (v : F32) : State :=
  { s with hst := { s.hst with due := s.hst.due ++ [{ desc := d, value := v, mark := s.sys.k + 1 }] } }

/-- Older kept commands of opcode `op` that satisfy `p` are superseded by command `c` (R103). -/
def State.supersedeOlder (s : State) (c : Cmd) (op : Nat) (p : Desc → Bool) : State :=
  s.supersede fun e => e.op = op && decide (e.seq < c.seq) && p e.desc

/-- Admitted: older kept commands for the same quantity are superseded, and the effect is queued. -/
def State.accept (s : State) (c : Cmd) (p : Desc → Bool) (v : F32) : State :=
  (s.supersedeOlder c c.desc.opcode.toNat p).queueDue c.desc v

/-- A kept command checked again as if newly received: resolved, or kept on (R103, R229, R241, R257). Effects it
queues are marked as those of a pending request. -/
def State.retry (s : State) (e : Kept) (own : Owner) : State :=
  match s.modeRefusal e.desc with
  | some det => s.resolve e (vMode det)
  | none =>
    let n := s.hst.due.length
    let (t, v) := own { seq := e.seq, ring := e.ring, idx := e.idx, desc := e.desc, fetchTime := s.plantNs } s
    if v.status.keeps then
      let kept := s.hst.kept.map fun x =>
        if x.seq = e.seq then { x with deferred := decide (v.status = Status.deferred) } else x
      ({ s with hst := { s.hst with kept := kept } }).showKept
    else
      let due := t.hst.due.take n ++ (t.hst.due.drop n).map fun x => { x with kept := true }
      ({ t with hst := { t.hst with due := due } }).resolve e v

/-- Every PENDING command of opcode `op` that satisfies `p` checked again. -/
def State.retryAll (s : State) (op : Nat) (p : Desc → Bool) (own : Owner) : State :=
  each ((s.keptOf op).filter fun e => !e.deferred && p e.desc) (fun s e => s.retry e own) s

/-! ### The Basin's commands (R251 to R259) -/

/-- ADMIT_DERATED for a derated verdict (Table 9.9a). -/
def State.tellDerated (s : State) (c : Cmd) (v : Verdict) : State :=
  if v.status = .derated then
    s.event 4 2 [(16, 1, c.ring), (18, 2, c.desc.tag.toNat), (20, 4, v.value.toNat), (24, 2, v.detail)]
  else s

/-- BANK_COMMIT (R207, Table 7.9). -/
def ownCommit : Owner := fun c s =>
  let v := s.commitVerdict (c.desc.le 4 1) (c.desc.le 8 4)
  if v.status = .ok then ((s.supersedeOlder c 0x30 fun _ => true).acceptCommit (c.desc.le 4 1), v) else (s, v)

/-- A BANK_COMMIT that waited for a verification: what fails is REJECTED_MODE (Table 7.9). -/
def ownCommitLater : Owner := fun c s =>
  let (s, v) := ownCommit c s
  (s, if v.status = .malformed then vMode v.detail else v)

/-- Verification ends, and the commits that waited for it are checked again (R205, R207). -/
def State.verified (s : State) : State :=
  if s.loop.verifying.isSome then s.verifyEnd.retryAll 0x30 (fun _ => true) ownCommitLater else s

/-- ENERGY_DIR (R251). -/
def ownDir : Owner := fun c s =>
  let t := c.desc.le 4 1
  let strings := (List.range 16).map s.stringSetpoint
  let powers := s.powerSetpoints.map (·.2)
  let neg (xs : List F32) := xs.any fun v => fLt v 0#32
  let pos (xs : List F32) := xs.any fun v => fLt 0#32 v
  if (t = 0 && (neg strings || pos powers)) || (t = 1 && (pos strings || neg powers)) then (s, vMode 0x0402)
  else (s.accept c (fun _ => true) 0, vOk)

/-- Class and scope of a host set-point slot (R258). -/
def State.slotClass (s : State) (slot : Nat) : Nat × Nat :=
  match (List.range 16).find? fun n => s.is (R.NRG_SPCLASS_EN n) && decide (s.rd (R.NRG_SPCLASS_SLOT n) = slot) with
  | some n => (s.rd (R.NRG_SPCLASS_CLASS n), s.rd (R.NRG_SPCLASS_SCOPE n))
  | none => (0, 0)

/-- Legs of a VDC_CELL scope: 0 the plant, 1 to 3 one leg (Table 9.13). -/
def scopeLegs (scope : Nat) : List Nat := if scope = 0 then [0, 1, 2] else [scope - 1]

/-- What a VDC_CELL set-point asks: V_commit of the committed cells of its legs. -/
def State.askVdc (s : State) (legs : List Nat) (v : F32) : Ask :=
  let moves (g : Nat) : Bool :=
    let r := s.soonRole g
    legs.contains (s.legOf (g / 16)) && (decide (r = .active) || decide (r = .charging) || decide (r = .rejoining))
  { Ask.nothing with commit := fun g => if moves g then some (fRat v) else none }

/-- An admitted set-point enters its slot at the next mark, and is what later admissions count with (R216, R254). -/
def State.stageSetpoint (s : State) (slot : Nat) (v : F32) : State :=
  let s := { s with loop := { s.loop with staged := s.loop.staged ++ [(slot, v)] } }
  match s.slotClass slot with
  | (1, scope) => { s with nrg := { s.nrg with vdcSet := (scopeLegs scope).foldl (fun m l => SMap.ins m l v) s.nrg.vdcSet } }
  | (2, _) => { s with nrg := { s.nrg with lvSet := some v } }
  | _ => s

/-- SETPOINT (R216, R254 to R257). -/
def ownSetpoint (final : Bool) : Owner := fun c s =>
  let slot := c.desc.le 4 2
  let v := opF32 c.desc 8
  let now := s.slotValue slot
  let r : Verdict := match s.slotClass slot with
    | (1, scope) => s.admission (some tenth) (s.askVdc (scopeLegs scope)) v now final
    | (2, _) => s.admission (some tenth) (fun x => { Ask.nothing with lv := some (fRat x) }) v now final
    | (3, _) =>
      if s.dirForbids v then vMode 0x0401
      else s.admission (some 1000) (fun x => { Ask.nothing with extra := s.powerTest x }) v now final
    | _ => { status := .ok, value := v }
  if r.status.done then
    let s := s.supersedeOlder c 0x20 fun d => d.le 4 2 = slot
    ((s.stageSetpoint slot r.value).tellDerated c r, r)
  else (s, r)

/-- The further tests of a string current beside its magnitude (Table 9.4). -/
def State.stringTest (s : State) (i : Nat) (v : F32) : Bool :=
  match s.soe? i with
  | none => false
  | some e =>
    !(fLt v 0#32 && decide (e ≤ s.kJ (R.NRG_STR_RES i)))
      && !(fLt 0#32 v && decide (s.kJ (R.NRG_STR_CAP i) - s.kJ (R.NRG_STR_TOP i) ≤ e))

/-- STRING_SETPOINT (R252, R254, R256). With no region for the Basin's slots it has nowhere to write (R267). -/
def ownString (final : Bool) : Owner := fun c s =>
  let i := c.desc.le 4 1
  let v := opF32 c.desc 8
  let slot := s.rd R.NRG_OUT_OUT_BASE + i
  let dir := s.rd R.NRG_CTL_DIR
  let imax := s.f32 (R.NRG_STR_IMAX i)
  if !s.basinOut then (s, vMode 0x040C)
  else if (dir = 0 && fLt v 0#32) || (dir = 1 && fLt 0#32 v) then (s, vMode 0x0401)
  else
    let may := if s.stringTest i v then some tenth else none
    let test (x : F32) : Option Nat := if s.stringTest i v && fLe (fAbs x) imax then none else some 0x0407
    let r := s.admission may (fun x => { Ask.nothing with extra := test x }) v (s.slotValue slot) final
    if r.status.done then
      let s := s.supersedeOlder c 0x21 fun d => d.le 4 1 = i
      let s := { s with loop := { s.loop with staged := s.loop.staged ++ [(slot, r.value)] } }
      let s := ((s.wrB (R.NRG_STR_STAT_GUARD i) false).wrB (R.NRG_STR_STAT_TOP i) false).showGuard
      (s.tellDerated c r, r)
    else (s, r)

/-! ### Reach of a pound (R164, R168) -/

/-- Is some lane of the pound RUNNING, on either seat? -/
def State.poundRuns (s : State) (p : Nat) : Bool :=
  [2 * p, 2 * p + 1].any fun n => if s.ownEnd n then s.runs n else decide (s.endReach n ≠ 0)

/-- Is cell `g` reached? -/
def State.reached (s : State) (g : Nat) : Bool := s.is (R.CNL_CELL_STAT_REACHED g)

/-! ### Pounds (R226 to R229) -/

/-- STATE of a pound once the admitted commands have taken effect. -/
def State.poundSoon (s : State) (p : Nat) : Nat :=
  s.hst.due.foldl (fun st x =>
    if x.desc.le 4 1 ≠ p then st
    else if x.desc.opcode = 0x40#8 then 1
    else if x.desc.opcode = 0x41#8 then 4
    else st) (s.poundState p)

/-- What POUND_ENABLE asks of the Basin (Table 9.4). -/
def State.askPound (s : State) (p method : Nat) : Ask :=
  let nom := s.f32 R.CELL_VDC_NOM
  let gs := (poundCells p).filter fun g => s.cellRole g ≠ .none ∧ s.cellRole g ≠ .failed
  let full := halfCV (s.f32 (R.NRG_C_POUND p)) (fRat nom)
  let short : Int := (gs.map fun g => max 0 (full - s.nrg.ledger.cell g)).foldl (· + ·) 0
  { Ask.nothing with
    commit := fun g => if gs.contains g then some (fRat nom) else none
    extra := if method = 1 && decide ((s.availableEnergy : Rat) * fRat (s.f32 R.NRG_ETA) < (short : Rat)) then some 0x0407 else none }

/-- POUND_ENABLE (Table 8.5, R229, R262). -/
def ownPoundEnable (final : Bool) : Owner := fun c s =>
  let p := c.desc.le 4 1
  let method := c.desc.le 5 1
  let st := s.poundSoon p
  let same (d : Desc) : Bool := decide (d.le 4 1 = p)
  if st = 1 || st = 2 || st = 3 then (s, vMode 0x0301)
  else if st = 4 then (s.supersedeOlder c 0x40 same, vPend 0)
  else if !s.poundRuns p then (s, vMode 0x0303)
  else if method = 0 && s.grid ≠ 0 then (s, vMode 0x0302)
  else if !s.regionHolds p then (s, vMode 0x0306)
  else if s.rd R.NRG_STAT_SLUICE ≠ 0 && s.poundSluices p then (s, vDefer 0x0409)
  else
    let r := s.admission none (fun _ => s.askPound p method) 0 0 final
    if r.status.done then (s.accept c same 0, r) else (s, r)

/-- POUND_DISABLE (R228, R229). -/
def ownPoundDisable : Owner := fun c s =>
  let p := c.desc.le 4 1
  let st := s.poundSoon p
  let l := s.legOf p
  let waiting := (s.keptOf 0x40).filter fun e => decide (e.desc.le 4 1 = p) && decide (e.seq < c.seq)
  let left := ((s.legCells l).filter fun g => g / 16 ≠ p && (s.cellRole g = .active ∨ s.cellRole g = .ready)).length
  if !waiting.isEmpty then (s.supersedeOlder c 0x40 fun d => d.le 4 1 = p, vOk)
  else if st = 0 || st = 4 then (s, vOk)
  else if st = 3 && !s.coveredWith l left then (s, vMode 0x0304)
  else (s.queueDue c.desc 0, vOk)

/-- POUND_ENABLE at its effect mark: the reached cells become CHARGING; with METHOD BATTERY the PARKED ones rejoin
(R226, R229). -/
def State.poundEnable (s : State) (p method : Nat) (kept : Bool) : State :=
  let s := each ((poundCells p).filter s.reached) (fun s g =>
    match s.cellRole g with
    | .none | .failed | .out | .sluicing => s
    | .parked => s.setRole g (if method = 1 then .rejoining else .charging)
    | _ => s.setRole g .charging) s
  let now := s.tsn.local_
  ((s.modPmgr p fun x => { x with method := method, since := now, waiting := [] }).setPound p 1 (if kept then 5 else 1)).regroupAll

/-- POUND_DISABLE at its effect mark: the cells of an ACTIVE pound are commanded BYPASS, those of another BLOCK, and
every reached cell is to report (R228). -/
def State.poundDisable (s : State) (p : Nat) : State :=
  let st := s.poundState p
  if st = 0 || st = 4 then s
  else
    let gs := s.cellsIn (poundCells p) [.active, .charging, .ready, .rejoining, .sluicing]
    let s := each gs (fun s g => (s.dropSluice g).setRole g (if st = 3 then .parked else .disabled)) s
    let now := s.tsn.local_
    let wait := (poundCells p).filter fun g => s.reached g && decide (s.cellRole g ≠ .none)
    ((s.modPmgr p fun x => { x with since := now, waiting := wait }).setPound p 4 1).regroupAll

/-- STOPPING ends: cells that have not reported become FAILED, the pound DISABLED, and a pending enable is checked
again (R228, R229). -/
def State.stoppingEnd (s : State) (p : Nat) : State :=
  if s.poundState p ≠ 4 then s
  else
    let late := (s.pmgr p).waiting
    let s := if late.isEmpty then s
      else { s with tsn := { s.tsn with
        local_ := max s.tsn.local_ ((s.pmgr p).since + s.rd R.CELL_TMO_BYP_TMO * 500000) } }
    let s := each (late.filter fun g => s.cellRole g ≠ .failed) (fun s g =>
      let old := s.cellRole g
      ((s.setRole g .failed).roleEvent g old .failed 0xFF06).raise 0x060 g) s
    let r := if s.grid = 0 then CellRole.disabled else CellRole.parked
    let s := s.setRoles (s.cellsIn (poundCells p) [.disabled, .parked, .charging, .ready, .active, .rejoining]) r
    let s := ((s.modPmgr p fun x => { x with waiting := [] }).setPound p 0 4).regroupAll
    s.retryAll 0x40 (fun d => d.le 4 1 = p) (ownPoundEnable false)

/-! ### Parking and release (R233) -/

/-- CELL_BYPASS (Table 8.7). -/
def ownBypass (final : Bool) : Owner := fun c s =>
  let g := c.desc.le 4 2
  let r := s.cellRole g
  let l := s.legOf (g / 16)
  let gone := decide (r = .parked) || decide (r = .failed)
  let node := s.rd (R.CNL_CELL_STAT_NODE_STATE g)
  let bad := s.is (R.CNL_CELL_STAT_UNREACHED g) || s.is (R.CNL_CELL_STAT_DARK g) || !s.reached g
    || (s.cellStatus g).testBit 8 || decide (node ≠ 6)
  if c.desc.le 6 1 = 0 then
    if gone then (s, vOk)
    else
      let left := ((s.legCells l).filter fun h => h ≠ g && (s.cellRole h = .active ∨ s.cellRole h = .ready)).length
      if s.grid ≠ 0 && !s.coveredWith l left then (s, vMode 0x0304)
      else (s.accept c (fun d => d.le 4 2 = g) 0, vOk)
  else if !gone then (s, vOk)
  else if s.poundState (g / 16) = 0 || (decide (r = .failed) && bad) then (s, vMode 0x0305)
  else
    let ask : Ask := { Ask.nothing with commit := fun h => if h = g then some (fRat (s.rejoinTarget g)) else none }
    let v := s.admission none (fun _ => ask) 0 0 final
    if v.status.done then (s.accept c (fun d => d.le 4 2 = g) 0, v) else (s, v)

/-- CELL_BYPASS at its effect mark (R233). -/
def State.cellBypass (s : State) (g action : Nat) : State :=
  let r := s.cellRole g
  if action = 0 then
    match r with
    | .none | .parked | .failed | .out => s
    | _ => (((s.dropSluice g).setRole g .parked).roleEvent g r .parked 0xFF06).regroupAll
  else if r = .parked ∨ r = .failed then ((s.setRole g .rejoining).roleEvent g r .rejoining 0xFF06).regroupAll
  else s

/-! ### The sluice command (R260 to R262) -/

/-- SLUICE (Table 9.6). -/
def ownSluice : Owner := fun c s =>
  let st := s.rd R.NRG_STAT_SLUICE
  let start := c.desc.le 4 1 = 0
  let isStart (d : Desc) : Bool := decide (d.le 4 1 = 0)
  if start then
    if s.grid ≠ 0 then (s, vMode 0x040A)
    else if st = 2 then (s.supersedeOlder c 0x50 isStart, vPend 0)
    else (s.queueDue c.desc 0, vOk)
  else if st = 1 then (s.queueDue c.desc 0, vOk)
  else if st = 2 then (s.supersedeOlder c 0x50 isStart, vOk)
  else (s, vOk)

/-- SLUICE at its effect mark. -/
def State.sluiceCmd (s : State) (d : Desc) : State :=
  if d.le 4 1 = 0 then s.sluiceStart (d.le 5 1) (d.le 6 2) (opF32 d 8) false else s.sluiceStop

/-! ### Test overlays (R429, R430) -/

/-- The lanes of a looped pound run on themselves, each hearing its own HELLO (R430). -/
def State.loopPound (s : State) (p : Nat) : State :=
  each (s.ownLanes p) (fun s n =>
    let r := s.rd (R.CNL_LANE_CTL_TARGET n)
    let s := (((s.laneOff n).setLane n .running).wr (R.CNL_LANE_STAT_RATE n) r).setTaps n (preset r)
    s.modLane n fun l => { l with hello := true, peerRate := leAt (s.trainHello n) 3 1 }) s

/-- The lanes of a looped pound start again, and the towpath carries WAKE (R430). -/
def State.unloopPound (s : State) (p : Nat) : State :=
  let now := s.tsn.local_
  (each (s.ownLanes p) State.restartLane s).modPound p fun q => { q with wake := some now }

/-- The pounds named in LOOP_POUNDS. -/
def State.loopPounds (s : State) : List Nat := s.poundList.filter fun p => s.bitOf R.SYS_OVERLAY_LOOP_POUNDS p

/-- The looped pounds run on themselves again, where the overlay is in force (R430). -/
def State.loopAgain (s : State) : State :=
  if s.is R.SYS_OVERLAY_CANAL_LOOPBACK then each s.loopPounds State.loopPound s else s

/-- OVERLAY (R432). -/
def State.overlayEvent (s : State) (cause code : Nat) : State :=
  s.event 0 9 [(16, 1, (s.reg 0x50).toNat % 8), (17, 1, cause), (18, 1, code)]

/-- Overlays in `mask` end; those that were in force are reported with a cause (R429, R432). -/
def State.endOverlays (s : State) (mask cause : Nat) : State :=
  let now := (s.reg 0x50).toNat % 8
  let ends := now &&& mask
  if ends = 0 then s
  else
    let ps := if ends.testBit 2 then s.loopPounds else []
    let s := s.setReg 0x50 (s.reg 0x50 &&& ~~~BitVec.ofNat 32 ends)
    let s := each ps State.unloopPound s
    s.overlayEvent cause 0

/-! ### Grid modes (R239 to R241) -/

/-- The grid mode once the admitted commands have taken effect. -/
def State.gridSoon (s : State) : Nat :=
  s.hst.due.foldl (fun g x => if x.desc.opcode = 0x10#8 then x.desc.le 4 1 else g) s.grid

/-- Is the shut-down to IDLE running? -/
def State.shutting (s : State) : Bool := s.cell.shut.isSome

/-- GRID_MODE event (Table 8.12). -/
def State.gridEvent (s : State) (old new : Nat) (blend kept : Bool) : State :=
  s.event 3 5 [(16, 1, old), (17, 1, new), (18, 1, if blend then 1 else 0), (19, 1, if kept then 1 else 0)]

/-- Are `n` slots from `base` all in regions of KIND `kind` (0 any)? -/
def State.slotsIn (s : State) (kind base n : Nat) : Bool :=
  (List.range n).all fun i => let k := s.slotKind (base + i); if kind = 0 then k ≠ 0 else k = kind

/-- Does one region of KIND `kind` hold the `n` slots from `base` (R221)? -/
def State.regionSpans (s : State) (kind base n : Nat) : Bool :=
  (List.range 16).any fun m => s.regionUsed m && !s.loop.badRegions.getLsbD m && decide (s.rd (R.LOOP_REGION_KIND m) = kind)
    && decide ((s.region m).1 ≤ base) && decide (base + n ≤ (s.region m).2)

/-- The slot check before a transition out of IDLE (R221, R222, R239). -/
def State.gridSlots (s : State) : Bool :=
  s.regionSpans 5 (s.rd R.CELL_OUT_OUT_BASE) 41 &&
  ((s.allCells.filter fun g => s.cellRole g ≠ .none).all fun g =>
    s.slotsIn 0 (s.rd R.CELL_SLOTS_BAL_BASE + g) 1 && s.slotsIn 0 (s.rd R.CELL_SLOTS_SHARE_BASE + g) 1) &&
  ([0, 1, 2].all fun l => [s.refSlot 1 l, s.refSlot 2 l, s.refSlot 3 l, s.rd (R.CELL_LEG_SRC1_DREF l)].all fun x => s.slotsIn 0 x 1) &&
  (!s.is R.CELL_FRAME_FREQ_EN || s.slotsIn 0 (s.rd R.CELL_FRAME_FREQ_FREQ_SLOT) 1) &&
  ([0, 1, 2, 3].all fun n => !s.is (R.CELL_FRAME_FWD_EN n) || s.slotsIn 3 (s.rd (R.CELL_FRAME_FWD_A_SLOT n)) 3) &&
  (!s.is R.CELL_FRAME_INV_EN || (s.slotsIn 0 (s.rd R.CELL_FRAME_INV_D_SLOT) 2 &&
    (!s.is R.CELL_FRAME_INV_ADD_EN || s.slotsIn 0 (s.rd R.CELL_FRAME_INV_ADD_SLOT) 3)))

/-- Allowed transitions (Table 8.10). -/
def gridAllowed (a b : Nat) : Bool :=
  (a = 0 && b ≠ 0) || (a = 1 && b = 2) || (a = 2 && b = 1) || (a = 3 && b = 2) || (a ≠ 0 && b = 0)

/-- The VPK condition of a transition (Table 8.10). -/
def State.vpkAllows (s : State) (a b : Nat) : Bool :=
  if (a = 0 && (b = 1 || b = 2)) || (a = 3 && b = 2) then [0, 1, 2].all fun l => fLe (s.f32 R.CELL_VPK_LIVE) (s.vpk l)
  else if a = 0 && b = 3 then [0, 1, 2].all fun l => fLe (s.vpk l) (s.f32 R.CELL_VPK_DEAD)
  else true

/-- Does a leg's condition refuse leaving IDLE (R238, R239)? -/
def State.legRefuses (s : State) (l : Nat) : Bool :=
  let c := s.rd (R.CELL_LEG_STAT_COND l)
  !s.covered l || c = 3 || c = 4 || c = 5

/-- GRID_MODE (R239 to R241, R262). -/
def ownGrid (final : Bool) : Owner := fun c s =>
  let t := c.desc.le 4 1
  let a := s.gridSoon
  let all (_ : Desc) : Bool := true
  if s.shutting || (s.grid ≠ 0 && a = 0) then
    if t = 0 then (s, vOk)
    else if [0, 1, 2].any fun l => s.rd (R.CELL_LEG_STAT_COND l) = 4 then (s, vMode 0x0304)
    else (s.supersedeOlder c 0x10 all, vPend 0)
  else if s.cell.blend.isSome && t ≠ 0 then (s.supersedeOlder c 0x10 all, vPend 0)
  else if t = a then (s, vOk)
  else if !gridAllowed a t then (s, vMode 0x0307)
  else if a = 0 && !s.gridSlots then (s, vMode 0x0306)
  else if a = 0 && [0, 1, 2].any fun l => s.rd (R.CELL_LEG_CTL_N_NEED l) = 0 then (s, vMode 0x0011)
  else if a = 0 && [0, 1, 2].any s.legRefuses then (s, vMode 0x0304)
  else if !s.vpkAllows a t then (s, vMode 0x0308)
  else if a = 0 && s.rd R.NRG_STAT_SLUICE ≠ 0 then (s, vDefer 0x0409)
  else if a = 0 then
    let r := s.admission none (fun _ => { Ask.nothing with act := fun g => s.soonRole g = .ready }) 0 0 final
    if r.status.done then (s.accept c all 0, r) else (s, r)
  else (s.accept c all 0, vOk)

/-- GRID_MODE at its effect mark (R239 to R241). -/
def State.gridEffect (s : State) (t : Nat) (kept : Bool) : State :=
  let a := s.grid
  if t = a || s.shutting then s
  else if t = 0 then s.startShutDown 0
  else if a = 0 then
    let s := s.endOverlays 7 2
    let s := s.setRoles (s.cellsIn s.allCells [.ready]) .active
    let s := each (s.poundList.filter fun p => s.poundState p = 2) (fun s p => s.setPound p 3 1) s
    ((s.wr R.CELL_STAT_GRID t).regroupAll).gridEvent 0 t false kept
  else
    let x : Blend := { old := a, since := s.sys.k, kept := kept }
    ({ s with cell := { s.cell with blend := some x } }).wrB R.CELL_STAT_BLEND true |>.wr R.CELL_STAT_GRID t

/-- The blend ends X cycles after its effect mark, and a pending request executes (R240). -/
def State.blendEnd (s : State) : State :=
  match s.cell.blend with
  | some b =>
    if b.since + s.rd R.CELL_CTL_XFER ≤ s.sys.k then
      let s := ({ s with cell := { s.cell with blend := none } }).wrB R.CELL_STAT_BLEND false
      (s.gridEvent b.old s.grid true b.kept).retryAll 0x10 (fun _ => true) (ownGrid false)
    else s
  | none => s

/-- One step of a ramp of power set-points to zero: `elapsed` of `total`. Each step passes through admission; one that
is not admitted, and a set-point already nearer zero, leave the slot as it is (R119, R241). -/
def State.rampStep (s : State) (start : List (Nat × F32)) (elapsed total : Nat) : State :=
  each start (fun s (slot, v) =>
    let f : Rat := if total ≤ elapsed then 0 else 1 - mkRat elapsed total
    let r := fOfRat (fRat v * f)
    let now := s.setpoint slot
    if fLt (fAbs r) (fAbs now) && (s.admission none (fun x => { Ask.nothing with extra := s.powerTest x }) r now true).status.done then
      s.forceSlot slot r
    else s) s

/-- The grid mode reaches IDLE: steps 2 and 3 of R241, the disconnection of R238, and the pending request. -/
def State.reachIdle (s : State) : State :=
  let old := s.grid
  let legs : List Nat := match s.cell.shut with
    | some x => [0, 1, 2].filter fun l => x.legs.getLsbD l
    | none => []
  let s := s.setRoles (s.cellsIn s.allCells [.active]) .ready
  let s := each (s.poundList.filter fun p => s.poundState p = 3) (fun s p => s.setPound p 2 4) s
  let s := { s with cell := { s.cell with blend := none, shut := none } }
  let s := ((s.wr R.CELL_STAT_GRID 0).wrB R.CELL_STAT_BLEND false).wrB R.CELL_STAT_SHUTDOWN false
  let s := s.regroupAll
  let s := if old = 0 then s else s.gridEvent old 0 false false
  let s := each legs (fun s l =>
    let h := (s.nAvail l, s.vpk l)
    ((s.modLeg l fun y => { y with held := h }).setCond l 5).event 3 6 [(16, 1, l)]) s
  let s := if legs.isEmpty then s else s.setActive 0x064 false
  let s := if !legs.isEmpty && s.is R.CELL_CTL_DISC_SAFE then s.wrBit R.FLT_SAFE_CAUSE_CAUSE 3 true else s
  s.retryAll 0x10 (fun _ => true) (ownGrid false)

/-- The ramp of a shut-down at a SAMPLE mark, and what follows its end (R241). -/
def State.shutRamp (s : State) : State :=
  match s.cell.shut with
  | some x =>
    let elapsed := s.plantNs - x.since
    let total := s.rd R.CELL_IDLE_RAMP_RAMP * 1000000
    if x.ended || decide (total ≤ elapsed) then (s.rampStep x.start 1 1).reachIdle else s.rampStep x.start elapsed total
  | none => s

/-- The ramp of a shut-down ends; the set-points and the grid mode follow at the next SAMPLE mark (R23, R241). -/
def State.shutdownEnd (s : State) : State :=
  match s.cell.shut with
  | some x =>
    let t : Int := (x.since : Int) + (s.rd R.CELL_IDLE_RAMP_RAMP : Int) * 1000000
    let s := s.advanceTo t
    if s.marksRun then { s with cell := { s.cell with shut := some { x with ended := true } } }
    else (s.rampStep x.start 1 1).reachIdle
  | none => s

/-! ### Pounds that go OUT and return (R235) -/

/-- A pound enters OUT at a SAMPLE mark. -/
def State.poundOut (s : State) (p : Nat) : State :=
  let gs := s.cellsIn (poundCells p) [.charging, .ready, .active, .rejoining]
  let s := each gs (fun s g => let r := s.cellRole g; (s.setRole g .out).roleEvent g r .out 0xFF07) s
  let s := each (s.cellsIn (poundCells p) [.sluicing]) (fun s g => s.sluiceCellEnd g false) s
  let s := each (poundCells p) State.dropSluice s
  let old := s.rd (R.CELL_POUND_STAT_STATE p)
  let s := s.wr (R.CELL_POUND_STAT_STATE p) (old % 8 + 8)
  s.modPound p fun q => { q with outCycles := 0 }

/-- A pound returns from OUT: its OUT cells rejoin, but those dark or unreached by then fail (R230, R235). -/
def State.poundBack (s : State) (p : Nat) : State :=
  let back := s.cellsIn (poundCells p) [.out]
  let s := s.setRoles back .rejoining
  let k := s.sys.k
  let dark (g : Nat) : Bool := s.is (R.CNL_CELL_STAT_DARK g) || s.is (R.CNL_CELL_STAT_UNREACHED g)
  let s := each (back.filter dark) (fun s g => s.suspect g 0xFF05 k) s
  let s := s.wr (R.CELL_POUND_STAT_STATE p) (s.rd (R.CELL_POUND_STAT_STATE p) % 8)
  s.modPmgr p fun x => { x with outBypass := false }

/-! ### Leaving RUN (Table 17.2) -/

/-- The grid and Basin side of leaving RUN for HOLD; `det` is the DETAIL of the pending requests it resolves. -/
def State.dropGrid (s : State) (det : Nat) : State :=
  let legs : List Nat := match s.cell.shut with
    | some x => [0, 1, 2].filter fun l => x.legs.getLsbD l
    | none => []
  let old := s.grid
  let s := { s with cell := { s.cell with blend := none, shut := none } }
  let s := ((s.wr R.CELL_STAT_GRID 0).wrB R.CELL_STAT_BLEND false).wrB R.CELL_STAT_SHUTDOWN false
  let chg := s.cellsIn s.allCells [.charging]
  let s := s.setRoles (s.cellsIn s.allCells [.active]) .ready
  let s := s.setRoles chg .disabled
  let s := each (s.cellsIn s.allCells [.rejoining]) (fun s g => s.setRole g (CellRole.ofCode (s.cellAt g).former)) s
  let s := each s.poundList (fun s p =>
    if s.poundState p = 1 then s.setPound p 0 4 else if s.poundState p = 3 then s.setPound p 2 4 else s) s
  let s := s.regroupAll
  let s := if old = 0 then s else s.gridEvent old 0 false false
  let s := each legs (fun s l => if s.rd (R.CELL_LEG_STAT_COND l) = 4 then s.setCond l 3 else s) s
  let s := if legs.isEmpty then s else s.setActive 0x064 false
  let s := s.sluiceAbort (if det = 3 then 2 else 1)
  let s := { s with hst := { s.hst with due := s.hst.due.filter fun x =>
    !(x.desc.opcode = 0x10#8 || x.desc.opcode = 0x40#8 || x.desc.opcode = 0x50#8) } }
  s.resolveWhere (fun e => e.op = 0x10 || e.op = 0x40 || (e.op = 0x50 && e.desc.le 4 1 = 0)) (vMode det)

/-! ### Deferred commands (R257) -/

/-- The owner that checks a command kept by the Basin. -/
def basinOwner (op : Nat) (final : Bool) : Option Owner :=
  if op = 0x10 then some (ownGrid final)
  else if op = 0x20 then some (ownSetpoint final)
  else if op = 0x21 then some (ownString final)
  else if op = 0x40 then some (ownPoundEnable final)
  else if op = 0x42 then some (ownBypass final)
  else none

/-- A deferred command checked again: resolved when it fits, finally when nothing remains in motion (R257). -/
def State.recheck (s : State) (e : Kept) : State :=
  match basinOwner e.op false, basinOwner e.op true with
  | some own, some last =>
    let c : Cmd := { seq := e.seq, ring := e.ring, idx := e.idx, desc := e.desc, fetchTime := s.plantNs }
    let v := (own c s).2
    if v.status = .derated || v.status = .energy then s.retry e last else s.retry e own
  | _, _ => s

/-- Up to 8 deferred commands checked at a SAMPLE mark, oldest first (R257). -/
def State.recheckDeferred (s : State) : State :=
  each ((s.hst.kept.filter fun e => e.deferred).take 8) State.recheck s

/-- A deferred command has been kept for `NRG_DEFER.TMO`: checked finally (R257). -/
def State.deferTimeout (s : State) (seq : Nat) : State :=
  match s.hst.kept.find? fun e => e.seq = seq && e.deferred with
  | some e =>
    match basinOwner e.op true with
    | some last => s.retry e last
    | none => s
  | none => s

/-- The pending START of a sluice that has returned to IDLE (Table 9.6). -/
def State.sluicePending (s : State) : State :=
  if s.rd R.NRG_STAT_SLUICE = 0 then s.retryAll 0x50 (fun d => d.le 4 1 = 0) ownSluice else s

end Sys2Proof.Machine
end

