-- ==== Sys2Proof/Machine/Canal.lean ====
section
/-! DEFINITION. The Canal protocol: pound service and splits, accepted states, fault reports and their coalescing,
cell service requests, hop delays, the downlink and the service windows (R21, R150 to R190, R395, R396). -/

set_option Elab.async false

namespace Sys2Proof.Machine

open Sys2Proof

/-! ### Service and split (R21, R164) -/

/-- E and W of a pound (R164). -/
def State.splitOf (s : State) (p : Nat) : Nat × Nat :=
  let e := s.endReach (2 * p)
  let w := s.endReach (2 * p + 1)
  let l := s.rd (R.CNL_POUND_CTL_FITTED p)
  if l ≤ e + w then
    let x := min e (max ((l + 1) / 2) (l - w))
    (x, l - x)
  else (e, w)

/-- Mean hop delay of a lane, 2^-16 ns; 0 before a measurement (R159). -/
def State.laneDelay (s : State) (n : Nat) : Nat :=
  let d := (s.lane n).delays
  if d.isEmpty then 0 else d.foldl (· + ·) 0 / d.length

/-- Do the measured delays of a pound meet their limits at rate `r`: its lane hops and its node-to-node hops (R165)? -/
def State.delaysMeet (s : State) (p r : Nat) : Bool :=
  let sym := 2 ^ (3 - r)
  let l := s.rd (R.CNL_POUND_CTL_FITTED p)
  ((s.ownLanes p).all fun n => !s.runs n || decide (s.laneDelay n ≤ 192 * sym * 65536)) &&
    (List.range l).all fun i =>
      let x := s.link (16 * p + i)
      (decide (i = 0) || decide (x.hopE ≤ 72 * sym * 8)) && (decide (i + 1 = l) || decide (x.hopW ≤ 72 * sym * 8))

/-- Does a measured delay of the pound exceed its limit at the rate it has (R165)? -/
def State.delayBad (s : State) (p : Nat) : Bool := !s.delaysMeet p (s.rateOf p)

/-- The highest rate at which the measured delays of a pound meet their limits; 0 when none does (R165). -/
def State.delayRate (s : State) (p : Nat) : Nat := ([3, 2, 1].find? fun r => s.delaysMeet p r).getD 0

/-- CAP_RATE of the seat's lanes of a pound held to the rate its delays allow, with the fault where it falls (R165). -/
def State.capByDelay (s : State) (p : Nat) : State :=
  let r := s.delayRate p
  if (s.ownLanes p).any fun m => r < s.rd (R.CNL_LANE_STAT_CAP_RATE m) then
    (each (s.ownLanes p) (fun s m => s.wr (R.CNL_LANE_STAT_CAP_RATE m) (min r (s.rd (R.CNL_LANE_STAT_CAP_RATE m)))) s).raise 0x026 p
  else s

/-- Service state that rate, reach and period allow: 0 FULL, 1 HALF, 2 OUT (R21). -/
def State.serviceOf (s : State) (p : Nat) : Nat :=
  let (e, w) := s.splitOf p
  let r := s.rateOf p
  let m := if e ≤ 8 ∧ w ≤ 8 then rateMin r else rateMinOne r
  if s.looped p || s.delayBad p || !s.poundRuns p then 2
  else if m ≤ s.periodNs then 0
  else if m ≤ 2 * s.periodNs then 1
  else 2

/-- Path delay of a cell from its reading end, 125 ps (Table 6.15b). -/
def State.pathOf (s : State) (g : Nat) (west : Bool) : Nat :=
  let p := g / 16
  let i := g % 16
  let l := s.rd (R.CNL_POUND_CTL_FITTED p)
  let lane := s.laneDelay (2 * p + (if west then 1 else 0)) * 8 / 65536
  let hops := if west then ((List.range l).filter fun j => i ≤ j && j + 1 < l).map fun j => (s.link (16 * p + j)).hopW
    else ((List.range (i + 1)).filter fun j => j ≠ 0).map fun j => (s.link (16 * p + j)).hopE
  lane + hops.foldl (· + ·) 0

/-- PATH of the positions of a pound that an end reads, from the hop delays as last measured (Table 6.15b). -/
def State.showPaths (s : State) (p : Nat) : State :=
  each (poundCells p) (fun s g =>
    s.wr (R.CNL_CELL_PATH_PATH g)
      (if s.is (R.CNL_CELL_STAT_REACHED g) then s.pathOf g (s.is (R.CNL_CELL_STAT_END g)) else 0)) s

/-- Reading end and depth of every position of a pound after its split has changed (R164, Table 6.15a). -/
def State.showReached (s : State) (p : Nat) : State :=
  let (e, w) := s.splitOf p
  let l := s.rd (R.CNL_POUND_CTL_FITTED p)
  each (List.range 16) (fun s i =>
    let g := 16 * p + i
    let east := decide (i < e)
    let west := !east && decide (i < l) && decide (l ≤ i + w)
    let d := if east then i else if west then l - 1 - i else 0
    let s := (s.wrB (R.CNL_CELL_STAT_REACHED g) (east || west)).wrB (R.CNL_CELL_STAT_END g) west
    let s := s.wr (R.CNL_CELL_STAT_DEPTH g) d
    if east || west then
      let s := (s.wrB (R.CNL_CELL_STAT_DARK g) false).wrB (R.CNL_CELL_STAT_UNREACHED g) false
      (s.wrBit (R.CNL_POUND_MAP_DARK p) i false).wrBit (R.CNL_POUND_MAP_UNREACHED p) i false
    else s) s |>.showPaths p

/-- Is the west end the time source of a pound (R161)? -/
def State.timeWest (s : State) (p : Nat) : Bool :=
  if s.is R.RED_CTL_PAIRED then s.gateOpen == s.is R.SYS_STRAP_SEAT_SEL else !s.runs (2 * p)

/-- Service, split, and the events of their changes, at a SAMPLE mark (R21, R164, R181, R235). -/
def State.evalService (s : State) (p : Nat) : State :=
  let (e, w) := s.splitOf p
  let both := decide (e ≤ 8) && decide (w ≤ 8)
  let old := s.rd (R.CNL_POUND_STAT_SERVICE p)
  let par := s.rd (R.CNL_POUND_STAT_PAR p)
  let want := s.serviceOf p
  let new := if old = 1 && want = 0 && decide (s.sys.k % 2 ≠ par) then 1 else want
  let r := s.rateOf p
  let (r0, _, p0) := (s.pound p).seen
  let unreached := decide (s.rd (R.CNL_POUND_STAT_SPLIT_E p) + s.rd (R.CNL_POUND_STAT_SPLIT_W p) = 0)
  let bad := s.delayBad p
  let split := decide (e ≠ s.rd (R.CNL_POUND_STAT_SPLIT_E p)) || decide (w ≠ s.rd (R.CNL_POUND_STAT_SPLIT_W p))
  let s := if split then
      let s := ((s.wr (R.CNL_POUND_STAT_SPLIT_E p) e).wr (R.CNL_POUND_STAT_SPLIT_W p) w).wrB (R.CNL_POUND_STAT_CHANGED p) true
      (s.showReached p).event 1 8 [(16, 1, p), (17, 1, e), (18, 1, w)]
    else s
  let s := s.wrB (R.CNL_POUND_STAT_BOTH_ENDS p) both
  let s := s.wrB (R.CNL_POUND_STAT_TIME_SRC p) (s.timeWest p)
  let far := if s.is R.SYS_STRAP_SEAT_SEL then e else w
  let s := s.wrB (R.CNL_POUND_STAT_RELAYED p) (s.is R.RED_CTL_PAIRED && decide (far ≠ 0))
  let s := s.level 0x026 p (s.pound p).overDelay bad
  let s := s.modPound p fun q => { q with overDelay := bad, seen := (r, both, s.periodNs) }
  if old = new then s
  else
    let cause := if bad then 4 else if !s.poundRuns p || unreached then 2 else if r ≠ r0 then 1
      else if s.periodNs ≠ p0 then 3 else 2
    let s := (s.wr (R.CNL_POUND_STAT_SERVICE p) new).wrB (R.CNL_POUND_STAT_CHANGED p) true
    let s := if new = 1 then
        let k := s.sys.k
        (s.wr (R.CNL_POUND_STAT_PAR p) (k % 2)).modPound p fun q => { q with halfSince := k }
      else s
    let s := s.event 1 7 [(16, 1, p), (17, 1, new), (18, 1, if both then 1 else 0), (19, 1, cause)]
    if new = 2 then s.poundOut p else if old = 2 then s.poundBack p else s

/-- Cycles spent OUT outside IDLE (R235). -/
def State.countOut (s : State) (p : Nat) : State :=
  if s.isOut p then
    if s.grid ≠ 0 then s.modPound p fun q => { q with outCycles := q.outCycles + 1 }
    else s.modPound p fun q => { q with outCycles := 0 }
  else s

/-- Service of every pound at a SAMPLE mark. -/
def State.evalServices (s : State) : State :=
  let s' := each s.poundList (fun s p => (s.evalService p).countOut p) s
  s'.regroupAll

/-! ### Dark and unreached positions (R183) -/

/-- Positions that answered from neither end, once no lane of the pound trains: the first and the last of the gap are
dark, those between them unreached. -/
def State.judgeDark (s : State) (p : Nat) : State :=
  if s.poundTrains p then s
  else
    let l := s.rd (R.CNL_POUND_CTL_FITTED p)
    let e := s.endReach (2 * p)
    let w := s.endReach (2 * p + 1)
    let gap := (List.range l).filter fun i => e ≤ i && i + w < l
    let k := s.sys.k + 1
    each gap (fun s i =>
      let g := 16 * p + i
      let edge := decide (i = e) || decide (i + w + 1 = l)
      if edge then
        if s.is (R.CNL_CELL_STAT_DARK g) then s
        else
          let s := ((s.wrB (R.CNL_CELL_STAT_DARK g) true).wrB (R.CNL_CELL_STAT_UNREACHED g) false)
          let s := (s.wrBit (R.CNL_POUND_MAP_DARK p) i true).wrBit (R.CNL_POUND_MAP_UNREACHED p) i false
          ((s.event 1 9 [(16, 2, g)]).raise 0x027 g).suspect g 0xFF05 k
      else if s.is (R.CNL_CELL_STAT_UNREACHED g) then s
      else
        let s := ((s.wrB (R.CNL_CELL_STAT_UNREACHED g) true).wrB (R.CNL_CELL_STAT_DARK g) false)
        let s := (s.wrBit (R.CNL_POUND_MAP_UNREACHED p) i true).wrBit (R.CNL_POUND_MAP_DARK p) i false
        ((s.event 1 0xA [(16, 2, g)]).raise 0x028 g).suspect g 0xFF05 k) s

/-- 200 µs with no new REPORT: reach is settled, dark positions are judged, and the lane leaves ENUM (R126, R128,
R183). -/
def State.reachSettled (s : State) (n : Nat) : State :=
  if isLink n then s
  else
    let s := s.modLane n fun l => { l with settled := true }
    let s := if s.laneState n = .enum then s.leaveEnum n else s
    s.judgeDark (poundOf n)

/-! ### Windows (R19, R20, R169, R180) -/

/-- Full count of the sample mark that a pound reports now: the present one, or the last of its parity when HALF
(R180). -/
def State.dueSample (s : State) (p : Nat) : Nat :=
  if s.isHalf p && decide (s.sys.k % 2 ≠ s.rd (R.CNL_POUND_STAT_PAR p)) then s.sys.k - 1 else s.sys.k

/-- The busy intervals of a pound, in ns after the SAMPLE mark of the sample it reports, and the span after which they
repeat: uplink and downlink (R19, R180). -/
def State.busyOf (s : State) (p : Nat) : List (Int × Int) × Int :=
  let u : Int := s.windowOf rateU p
  let d : Int := s.windowOf rateD p
  let n : Int := s.periodNs
  ([(1000, 1000 + u), (n - 450 - d, n - 450)], if s.isHalf p then 2 * n else n)

/-- Plant time in ns after the SAMPLE mark of the sample that a pound reports now. -/
def State.intoSample (s : State) (p : Nat) : Int := (s.plantNs : Int) - s.markTime (s.dueSample p)

/-- End of the service window of a pound that is open `x` ns after the mark of its sample: none inside an uplink or
downlink window, and no end at all for a pound OUT, which has no such windows (R169, R180, R182). -/
def State.windowEnd (s : State) (p : Nat) (x : Int) : Option (Option Int) :=
  if s.isOut p then some none
  else
    let (busy, span) := s.busyOf p
    let all := busy ++ busy.map (fun (a, b) => (a + span, b + span)) ++ busy.map fun (a, b) => (a - span, b - span)
    if all.any fun (a, b) => a ≤ x && x < b then none
    else match (all.map (·.1)).filter (x < ·) with
      | [] => some none
      | a :: l => some (some (l.foldl min a))

/-- How long until a service window of the pound is open, ns. -/
def State.windowWait (s : State) (p : Nat) : Nat :=
  let x := s.intoSample p
  let (busy, span) := s.busyOf p
  if s.isOut p then 0
  else
    let all := busy ++ busy.map (fun (a, b) => (a + span, b + span)) ++ busy.map fun (a, b) => (a - span, b - span)
    let ends := x :: (all.map (·.2)).filter (x < ·)
    match ends.filter fun y => (s.windowEnd p y).isSome with
    | [] => 0
    | a :: l => (l.foldl min a - x).toNat

/-! ### Accepted states (R173, R220, R227, R230) -/

/-- Slots of an accepted state (Table 8.2). -/
def State.writeCellSlots (s : State) (g k : Nat) (full : Bool) (b : Bytes) : State :=
  let temps := [48, 50, 52, 54].map fun o => sx 16 (leAt b o 2)
  let hot := temps.foldl max (temps.headD 0)
  let vals : List F32 := [0, 4, 8, 12, 16, 20].map (fun o => BitVec.ofNat 32 (leAt b o 4)) ++
    (if full then [fOfRat ((hot : Rat) / 10), BitVec.ofNat 32 (leAt b 56 4)] else [])
  each (List.zip (List.range 8) vals) (fun s (j, v) =>
    match s.cellSlot g j with
    | some x => s.writeSlot 2 x v true k
    | none => s) s

/-- The command that covered the sample of mark `k`: its MODE (R230). -/
def State.coveredBy (s : State) (g k : Nat) : Option Nat :=
  ((s.cellAt g).sent.find? fun (c, _, half) => c + 1 = k || (half && c + 2 = k)).bind (·.2.1)

/-- MODE of the last command that took effect before the sample of mark `k`; none where a later HOLD or SAFE blocked
the cell (R174, R230). -/
def State.lastMode (s : State) (g k : Nat) : Option Nat := ((s.cellAt g).sent.find? fun (c, _, _) => c + 1 ≤ k).bind (·.2.1)

/-- What the Manager and the Basin keep from an accepted state: charge, mode, bypass, sluice, STOPPING. -/
def State.cellNews (s : State) (g k : Nat) : State :=
  let p := g / 16
  let st := s.cellStatus g
  let node := st % 8
  let now := st / 8 % 8
  let closed := st.testBit 9
  let v := BitVec.ofNat 32 (leAt (s.link g).payload 0 4)
  let role := s.cellRole g
  let battery := decide ((s.pmgr p).method = 1)
  let good := if battery then fWithin (s.f32 R.CELL_REJOIN_BAND) (s.f32 R.CELL_VDC_NOM) v else fLe (s.f32 R.CELL_PRECH_MIN) v
  let nom := fLe (s.f32 R.CELL_VDC_NOM) v
  let done := !st.testBit 10 && fLe v (fAdd (s.cellAt g).target (s.f32 R.CELL_REJOIN_BAND))
  let cmd := s.coveredBy g k
  let wrong := match cmd with
    | some m => if m ≠ now then (s.cellAt g).wrong + 1 else 0
    | none => (s.cellAt g).wrong
  let e := leAt (s.link g).payload 36 4
  let s := match (s.cellAt g).eSluice with
    | some e0 =>
      if s.nrg.sluice.any (fun x => x.cell = g && x.on) then
        { s with nrg := { s.nrg with sluiceEnergy := s.nrg.sluiceEnergy + (e + 2 ^ 32 - e0) % 2 ^ 32 } }
      else s
    | none => s
  let s := s.modCell g fun c =>
    { c with charged := if role = .charging then (if good then min 100 (c.charged + 1) else 0) else 0
             levelled := c.levelled || (battery && nom)
             wrong := wrong, misses := 0
             bypassAt := if closed then none else c.bypassAt
             bypassTold := if closed then false else c.bypassTold
             finished := if role = .sluicing && done then c.finished + 1 else 0
             eSluice := some e }
  let s := if (4 ≤ node || closed) && s.lastMode g k = some 1 then s.suspect g 0xFF02 s.sys.k else s
  let s := if 3 ≤ wrong then s.suspect g 0xFF03 s.sys.k else s
  if (s.pmgr p).waiting.contains g && (if role = .parked || role = .failed then closed else decide (now = 0)) then
    s.modPmgr p fun x => { x with waiting := x.waiting.filter fun h => h ≠ g }
  else s

/-- Does this seat average the closure of a pound: the seat of a pair without the claim, with STEER (R161)? -/
def State.steers (s : State) (p : Nat) : Bool :=
  s.is R.RED_CTL_PAIRED && !s.gateOpen && s.is (R.CNL_POUND_CTL_STEER p)

/-- CLOSURE of a state (R161): kept with its sign as seen from this seat's end. -/
def State.takeClosure (s : State) (g : Nat) : State :=
  let c := leAt (s.link g).payload 32 2
  if c = 0x8000 ∨ !s.steers (g / 16) then s
  else
    let v := sx 16 c
    let mine := s.is (R.CNL_CELL_STAT_END g) == s.is R.SYS_STRAP_SEAT_SEL
    s.modPound (g / 16) fun q => { q with closures := q.closures ++ [(v, if mine then v else -v)] }

/-- Does a barge that arrives `t` ns after the present SAMPLE mark, or now if that is later, lie within the uplink
window of the sample its pound reports (R19, R20, R173, R180)? -/
def State.inUplink (s : State) (p t : Nat) : Bool :=
  let k := s.dueSample p
  let x := max (t : Int) ((s.plantNs : Int) - s.markTime s.sys.k) + (s.sys.k - k) * s.periodNs
  decide (1000 ≤ x ∧ x ≤ 1000 + s.windowOf rateU p)

/-- A state of cell `g` for sample `k` is accepted: kept as it is, with its hop delays, its slots and its leg's sums
(R173, R221, Table 8.2). -/
def State.acceptState (s : State) (g k : Nat) (b : Barge) : State :=
  let p := g / 16
  let full := decide (b.typ = 2)
  let s := s.modLink g fun l =>
    { l with cycle := b.cycle, typ := b.typ, payload := b.payload, sample := k + 1
             hopE := if full then leAt b.payload 68 2 else l.hopE
             hopW := if full then leAt b.payload 70 2 else l.hopW }
  let s := if full then (s.showPaths p).capByDelay p else s
  (s.writeCellSlots g k full b.payload).writeLegSum (s.legOf p)

/-- NODE_STATE of a cell as its last state has it, with its event; the first state past START syncs the cell (Table 5.7,
R187). -/
def State.showNode (s : State) (g : Nat) : State :=
  let old := s.rd (R.CNL_CELL_STAT_NODE_STATE g)
  let node := s.cellStatus g % 8
  let s := s.wr (R.CNL_CELL_STAT_NODE_STATE g) node
  let s := if old ≠ node && (4 ≤ old || 4 ≤ node) then s.event 1 0xC [(16, 2, g), (18, 1, old), (19, 1, node)] else s
  if node ≠ 0 && !s.cnl.synced.contains g then { s with cnl := { s.cnl with synced := s.cnl.synced ++ [g] } } else s

/-- A STATE or STATE_LEAN from an end of a pound, `t` ns after the present SAMPLE mark: accepted into the cell's
slots, or discarded (R152, R153, R155, R173). The state that charges the last cell ends the pound's pre-charge (R227).
-/
def State.stateFrom (s : State) (west : Bool) (b : Barge) (t : Nat) : State :=
  s.screen b.pound b fun s =>
    let p := b.pound
    let g := 16 * p + b.position
    let k := s.dueSample p
    let ok := decide (p < s.poundCount) && decide (b.position < 16) && s.reached g && (s.is (R.CNL_CELL_STAT_END g) == west)
      && decide (b.cycle = k % 65536) && decide (b.hops = s.rd (R.CNL_CELL_STAT_DEPTH g)) && s.inUplink p t && !s.isOut p
    if ok then ((((s.acceptState g k b).showNode g).cellNews g k).takeClosure g).prechargeDone p else s

/-! ### Fault reports (R176, R395, R396) -/

/-- COAL_OPEN made to agree with the windows. -/
def State.showWindows (s : State) : State := s.wr R.FLT_STAT_COAL_OPEN s.flt.windows.length

/-- The report of a cell has been logged: its FAULT_SEQ is what FAULT_ACK carries (R396). -/
def State.ackReport (s : State) (g seq : Nat) : State :=
  let old := match s.flt.acks.find? fun p => p.1 = g with | some p => p.2 | none => []
  { s with flt := { s.flt with acks := SMap.ins s.flt.acks g ((seq :: old).take 8) } }

/-- FAULT_ACK of a cell; 0 before any report of it has been logged, where the rule names no value (R170, log entry 114,
DESIGN CHOICE). -/
def State.faultAck (s : State) (g : Nat) : Nat :=
  match s.flt.acks.find? fun p => p.1 = g with
  | some (_, q :: _) => q
  | _ => 0

/-- A report joins an open window (R395). -/
def State.joinWindow (s : State) (w : CoalWin) (g cause : Nat) : State :=
  let k := s.cycleNum
  let s := s.modLog w.entry fun e =>
    { e with count := e.count + 1, bitmap := e.bitmap ||| BitVec.ofNat 192 (2 ^ g)
             cause := e.cause ||| (cause / 32768 * 32768), lastCycle := k }
  if s.latched w.source then s
  else
    let (acts, _) := s.actionsOf w.source
    let s := (s.setLatch w.source true).faultIrq acts
    { s with flt := { s.flt with due := s.flt.due ++ [⟨w.source, g, acts⟩] } }

/-- A report in an entry of its own; `opens` starts a window on it (R395). FAULT_RAISED is queued only for a window,
or with coalescing off. -/
def State.logReport (s : State) (n g cause : Nat) (value : F32) (opens tell : Bool) : State :=
  let was := s.latched n
  let (acts, notTaken) := s.actionsOf n
  let acts := if was then acts &&& 1 else acts
  let info : FaultInfo := { cause := cause, value := value, access := 5, bitmap := BitVec.ofNat 192 (2 ^ g)
                            flags := if opens then 0x22 else 0 }
  let e := s.entryOf n g info acts (notTaken && !was)
  let (j, s) := ((s.setLatch n true).countLogged n g).writeLog e
  let s := match j with
    | some i =>
      let s := if tell then s.faultRaised i e else s
      let s := if opens then
          let x : CoalWin := { source := n, cause := cause % 32768, entry := i, ends := s.sys.k + s.rd R.FLT_CTL_COAL_W }
          ({ s with flt := { s.flt with windows := s.flt.windows ++ [x] } }).showWindows
        else s
      if was then s else s.capture i { e with seq := s.flt.seq }
    | none => s
  let s := s.faultIrq acts
  if was then s else { s with flt := { s.flt with due := s.flt.due ++ [⟨n, g, acts⟩] } }

/-- A cell's report to the collector (R395, R396). -/
def State.cellReport (s : State) (g : Nat) (b : Bytes) : State :=
  let cause := leAt b 0 2
  let sev := leAt b 2 1
  let seq := leAt b 3 1
  let value : F32 := BitVec.ofNat 32 (leAt b 12 4)
  let known := match s.flt.acks.find? fun p => p.1 = g with | some p => p.2.contains seq | none => false
  if 4 ≤ sev || known then s
  else
    let n := 0x03C + sev
    let s := s.ackReport g seq
    let s := if s.flt.shadows.any fun w => w.covers n then s.suppress n g
      else if s.is R.FLT_CTL_COAL_EN then
        match s.flt.windows.find? fun w => w.source = n && decide (w.cause = cause % 32768) with
        | some w => s.joinWindow w g cause
        | none =>
          if s.flt.windows.length < 16 then s.logReport n g cause value true true
          else (s.logReport n g cause value false false).inc R.FLT_CNT_COAL_FULL
      else s.logReport n g cause value false true
    if 2 ≤ sev then s.suspect g cause (s.sys.k + 1) else s

/-- Windows that end at this SAMPLE mark close: FAULT_COALESCED (R395). -/
def State.closeWindows (s : State) : State :=
  let done := s.flt.windows.filter fun w => w.ends ≤ s.sys.k
  if done.isEmpty then s
  else
    let s := { s with flt := { s.flt with windows := s.flt.windows.filter fun w => s.sys.k < w.ends } }
    let s := each done (fun s w =>
      let s := s.modLog w.entry fun e => { e with flags := e.flags &&& 0xDF#8 }
      match s.logAt w.entry with
      | some e => s.event 0xB 2 [(16, 2, e.source), (18, 2, e.cause), (20, 2, e.count), (22, 1, w.entry), (24, 2, e.inst), (26, 2, e.lastCycle)]
      | none => s) s
    s.showWindows

/-- A FAULT barge from an end (R176). -/
def State.faultFrom (s : State) (b : Barge) : State :=
  s.screen b.pound b fun s =>
    if s.poundCount ≤ b.pound || s.rd (R.CNL_POUND_CTL_FITTED b.pound) ≤ b.position then s
    else s.cellReport (16 * b.pound + b.position) b.payload

/-! ### Cell service (R177, R187, R188) -/

/-- Does an access of `n` words at `addr` touch the protected settings 0x0010 to 0x001B (R187)? -/
def guarded (addr n : Nat) : Bool := decide (addr < 0x1C) && decide (0x10 < addr + 4 * n)

/-- CELL_SERVICE (R188). To a position that is fused on but not fitted, which no end reads, it answers as to an
unreached one, 0x0102: the spec names no case for it (log entry 114, DESIGN CHOICE). -/
def ownService : Owner := fun c s =>
  let g := c.desc.le 4 2
  let op := c.desc.le 6 1
  let addr := c.desc.le 8 2
  if op = 2 && guarded addr (c.desc.le 7 1) then (s, { status := .auth, detail := 0x0101 })
  else if s.is (R.CNL_CELL_STAT_DARK g) || s.is (R.CNL_CELL_STAT_UNREACHED g) || !s.reached g || !s.poundRuns (g / 16) then
    (s, vMode 0x0102)
  else if (s.link g).service.isSome then (s, vBusy 0x0103)
  else
    let r : ServiceReq := { op := op, len := c.desc.le 7 1, addr := addr, data := c.desc.le 12 8, tag := some c.desc.tag.toNat, sent := none }
    (s.modLink g fun l => { l with service := some r }, vOk)

/-- CELL_SERVICE_DONE (Table 6.13); a settings write of the controller's own moves on to the next (R187). -/
def State.serviceDone (s : State) (g : Nat) (r : ServiceReq) (result data : Nat) : State :=
  match r.tag with
  | some t =>
    let s := s.modLink g fun l => { l with service := none }
    s.event 1 0xB [(16, 2, g), (18, 1, result), (19, 1, r.len), (20, 2, t), (22, 2, r.addr), (24, 8, data)]
  | none => s.modLink g fun l => { l with service := none, written := l.written + 1 }

/-- A SERVICE_RSP from an end. -/
def State.serviceFrom (s : State) (b : Barge) : State :=
  s.screen b.pound b fun s =>
    let g := 16 * b.pound + b.position
    match (s.link g).service with
    | some r =>
      if r.sent = some b.seq then
        s.serviceDone g r (leAt b.payload 2 1) (if r.op = 1 then leAt b.payload 8 (4 * r.len) else 0)
      else s
    | none => s

/-- A request unanswered for 64 cycles is given up (R177). -/
def State.serviceTimeout (s : State) (g : Nat) : State :=
  match (s.link g).service with
  | some r => if r.sent.isSome then s.serviceDone g r 0x10 0 else s
  | none => s

/-- A setting of the controller's own waits to be written to a cell first seen SYNCED (R187). -/
def State.settingWrite (s : State) (g : Nat) : State :=
  let l := s.link g
  if s.cnl.synced.contains g && decide (l.written < 3) && l.service.isNone then
    let v := if l.written = 0 then s.cnl.holdMax else if l.written = 1 then s.cnl.bypassDelay else s.cnl.safeAction
    s.modLink g fun l => { l with service := some { op := 2, len := 1, addr := 0x10 + 4 * l.written, data := v, tag := none, sent := none } }
  else s

/-! ### Upstream barges and relays (R168, R178) -/

/-- An upstream barge taken from the end of lane `n`, `t` ns after the present SAMPLE mark. A REPORT heard at the
partner's end tells of its nodes (R129, R168). -/
def State.upstream (s : State) (n : Nat) (b : Barge) (t : Nat) : State :=
  if b.typ = 2 ∨ b.typ = 3 then s.stateFrom (isWest n) b t
  else if b.typ = 7 then s.faultFrom b
  else if b.typ = 6 then s.serviceFrom b
  else if b.typ = 10 then s.screen (poundOf n) b fun s => if leAt b.payload 0 1 = 3 then s.nodeReport n b else s
  else s

/-- A barge received on one of this seat's lanes: taken, and passed to the partner in a pair (R168). -/
def State.received (s : State) (n : Nat) (b : Barge) (t : Nat) : State :=
  if !s.runs n || isLink n || b.pound ≠ poundOf n || s.looped (poundOf n) then s
  else
    let s := if s.is R.RED_CTL_PAIRED && b.crc = b.goodCrc then s.sendRelay 1 n b else s
    s.upstream n b t

/-- A RELAY barge on a lock-link lane: kind 0x1 taken as heard upstream, kind 0x2 transmitted; others discarded and
counted, as is an inner barge that fails its own checks. The gate lets a relayed downlink barge out only while the
partner's claim is asserted (R168, R178, R359). -/
def State.relayed (s : State) (ll kind n : Nat) (b : Barge) (t : Nat) : State :=
  if !isLink ll || !s.runs ll then s
  else if kind = 1 then
    if s.ownEnd n then s else s.upstream n b t
  else if kind = 2 then
    s.screen (poundOf n) b fun s =>
      let gated := b.typ = 1 || b.typ = 5 || b.typ = 8 || b.typ = 9
      if s.ownEnd n && s.runs n && (!gated || s.gateOpen || s.is R.RED_PARTNER_LINE) then
        let b := { b with flags := b.flags ||| 4 }
        s.emit (.barge n { b with crc := b.goodCrc })
      else s
  else { s with cnl := { s.cnl with malformed := s.cnl.malformed + 1 } }

/-! ### Hop delays (R159, R165) -/

/-- A time in 2^-16 ns at the 125 ps resolution of a controller's timestamps (R157). -/
def stamped (t : Nat) : Nat := t / 8192 * 8192

/-- A DELAY_RSP that answers the DELAY_REQ sent last: `rtt` is t4 − t1 in 2^-16 ns (R157, R159). -/
def State.delayMeasured (s : State) (n rtt : Nat) (b : Barge) : State :=
  s.screen (poundOf n) b fun s =>
    if isLink n || decide (leAt b.payload 0 1 ≠ 9) || decide ((s.lane n).delaySeq.map (·.toNat) ≠ some (leAt b.payload 12 1)) then s
    else
      let s := s.modLane n fun l => { l with delaySeq := none }
      let d := (stamped rtt - leAt b.payload 4 4) / 2
      let m := s.laneDelay n
      let first := (s.lane n).delays.isEmpty
      if !first && (m + 65536 < d || d + 65536 < m) then s.modLane n fun l => { l with discarded := l.discarded + 1 }
      else
        let s := s.modLane n fun l => { l with delays := (d :: l.delays).take 8 }
        (s.showPaths (poundOf n)).capByDelay (poundOf n)

/-- A DELAY_REQ from the adjacent node; `turn` is the time to the launch of the answer, 2^-16 ns. -/
def State.delayReq (s : State) (n turn : Nat) (b : Barge) : State :=
  s.screen (poundOf n) b fun s =>
    if isLink n || s.laneState n = .off || s.laneState n = .detect || s.laneState n = .absent then s
    else s.sendTrain n (layBytes 16 [(0, 1, 9), (4, 4, stamped turn), (12, 1, leAt b.payload 12 1)])

/-! ### The downlink (R167, R170, R174, R175) -/

/-- Launch time of barge `i` of an end's downlink, 2^-16 ns; the seat's own offset is added on its own lanes (R161,
R167). -/
def State.launchAt (s : State) (p i : Nat) (own : Bool) : Int :=
  let r := s.rateOf p
  let d := s.windowOf rateD p
  let t : Int := s.markTime s.sys.k + s.periodNs - 450 - d + 64 * 2 ^ (3 - r) * i
  t * 65536 + (if own && !s.gateOpen then sx 16 (s.rd (R.CNL_POUND_TIME_SEAT_OFS p)) * 8192 else 0)

/-- UPLINK byte of a cell (Table 6.6). -/
def State.uplink (s : State) (g : Nat) (send : Bool) : Nat :=
  (if s.is (R.CNL_CELL_STAT_END g) then 128 else 0) + (if send then 16 else 0) + s.rd (R.CNL_CELL_STAT_DEPTH g)

/-- The COMMAND payload of a cell (Table 6.6). -/
def State.commandBytes (s : State) (g : Nat) (c : CellCmd) (launch : Int) : Bytes :=
  layBytes 48 [(0, 4, c.mod.toNat), (4, 4, c.slope.toNat), (8, 4, c.dab.toNat), (12, 4, c.dabSlope.toNat), (16, 4, c.bal.toNat),
    (20, 4, c.idab.toNat), (24, 4, s.rd R.CELL_CARRIER_PERIOD), (28, 2, c.phase), (30, 1, c.mode), (31, 1, c.flags),
    (32, 1, s.uplink g true), (33, 1, s.faultAck g), (34, 2, c.sluice), (36, 6, ux 48 (launch / 65536)), (42, 2, ux 16 launch)]

/-- The HOLD or SAFE payload (Table 6.10). -/
def holdBytes (action uplink ack reason : Nat) (launch : Int) : Bytes :=
  layBytes 16 [(0, 1, action), (1, 1, uplink), (2, 1, ack), (3, 1, reason), (4, 6, ux 48 (launch / 65536)), (10, 2, ux 16 launch)]

/-- What goes to every cell of a pound in place of its COMMAND: type, ACTION, REASON (R24, R70, R129, R175, Table
17.2). -/
def State.holdFor (s : State) (p : Nat) : Option (Nat × Nat × Nat) :=
  if s.isSafe then some (8, 0, 6)
  else if s.power = .hold then some (9, 1, 3)
  else if s.onBackup 0 || s.onBackup 1 then some (9, 0, 4)
  else if s.sys.overrun then some (9, 0, 1)
  else if s.poundTrains p then some (9, 0, 5)
  else none

/-- Send a downlink barge on an end of a pound: on the own lane, or by relay through the partner (R168). -/
def State.sendEnd (s : State) (n typ position : Nat) (payload : Bytes) : State :=
  let dir := if isWest n then 0 else 1
  if s.ownEnd n then (if s.runs n then s.sendBarge n typ position (poundOf n) dir s.sys.k payload else s)
  else
    let (q, s) := s.bargeSeq typ
    s.sendRelay 2 n { typ := typ, position := position, pound := poundOf n, flags := dir + 8 * s.seatBit, hops := 0
                      cycle := s.cycleNum, seq := q, length := payload.length / 4, payload := payload, crc := 0 }

/-- What the Manager keeps of the command a cell is given in this cycle: its MODE, and the start of its bypass limit,
for a cell that no barge reaches as well (R230, R232). -/
def State.noteCommand (s : State) (g : Nat) : State :=
  match s.cell.cmds.find? fun x => x.1 = g with
  | some (_, c) =>
    if c.cycle = s.sys.k then
      let k := s.sys.k
      let now := s.tsn.local_
      s.modCell g fun x =>
        { x with sent := ((k, some c.mode, decide (c.flags % 2 = 1)) :: x.sent).take 4
                 bypassAt := if c.mode = 2 && x.bypassAt.isNone && !(s.cellStatus g).testBit 9 then some now else x.bypassAt }
    else s
  | none => s

/-- What the Manager keeps of a HOLD or SAFE a cell is given in place of its command: one that is no HOLD_LAST ends the
command before it (R174). -/
def State.noteHold (s : State) (g typ action : Nat) : State :=
  if typ = 9 && action = 0 then s
  else s.modCell g fun x => { x with sent := ((s.sys.k, none, false) :: x.sent).take 4 }

/-- The downlink slot of one cell; `i` counts the barges of its end. -/
def State.downlinkCell (s : State) (n g i : Nat) : State :=
  let p := poundOf n
  let launch := s.launchAt p i (s.ownEnd n)
  match s.holdFor p with
  | some (typ, action, reason) => s.sendEnd n typ (g % 16) (holdBytes action (s.uplink g true) (s.faultAck g) reason launch)
  | none =>
    match s.cell.cmds.find? fun x => x.1 = g with
    | some (_, c) =>
      if c.cycle = s.sys.k then s.sendEnd n 1 (g % 16) (s.commandBytes g c launch) else s
    | none => s

/-- Is a downlink of the pound due in this cycle: every cycle when FULL, the cycles of its parity when HALF (R180)? -/
def State.sendsNow (s : State) (p : Nat) : Bool :=
  !s.isOut p && (!s.isHalf p || decide (s.sys.k % 2 = s.rd (R.CNL_POUND_STAT_PAR p) ∧ (s.pound p).halfSince ≠ s.sys.k))

/-- What the Manager keeps of what the cells of a pound are given in this cycle. -/
def State.noteDownlink (s : State) (p : Nat) : State :=
  match s.holdFor p with
  | some (typ, action, _) => each (poundCells p) (fun s g => s.noteHold g typ action) s
  | none => each (poundCells p) State.noteCommand s

/-- The downlink windows of one pound, each end in order of decreasing depth (R167). -/
def State.downlinkPound (s : State) (p : Nat) : State :=
  let l := s.rd (R.CNL_POUND_CTL_FITTED p)
  let e := s.rd (R.CNL_POUND_STAT_SPLIT_E p)
  let w := s.rd (R.CNL_POUND_STAT_SPLIT_W p)
  let s := each (List.range e) (fun s i => s.downlinkCell (2 * p) (16 * p + (e - 1 - i)) i) s
  each (List.range w) (fun s i => s.downlinkCell (2 * p + 1) (16 * p + (l - w + i)) i) s

/-- The downlink windows of a cycle (R167). The seat without the claim sends none, and its Manager keeps what the
holder's commands are. -/
def State.downlink (s : State) : State :=
  if (s.power ≠ .run && s.power ≠ .hold) || s.sys.downlinkSent then s
  else
    let s := { s with sys := { s.sys with downlinkSent := true } }
    let told := s.gateOpen || s.is R.RED_PARTNER_LINE
    let s := each (s.poundList.filter fun p => s.sendsNow p && told) State.noteDownlink s
    if s.gateOpen then each (s.poundList.filter s.sendsNow) State.downlinkPound s else s

/-! ### The service windows (R163, R169, R175, R182, R235) -/

/-- A service window in use on an end: when, in ns from now, the end is free for the next barge, and when the window
closes. -/
structure Window where
  free : Nat
  closes : Option Int
  deriving DecidableEq, Repr

/-- Can a barge of `words` payload words, with `path` ns to the last port it crosses, start in the window (R169)? -/
def Window.fits (w : Window) (words sym path : Nat) : Bool :=
  match w.closes with
  | none => true
  | some c => decide ((w.free + bargeSymbols words * sym + path : Nat) ≤ c)

/-- Path delay from the end of lane `n` to the far node that reads it, ns; a relay to the partner's end adds 80 ns
(R168, R169). -/
def State.pathNs (s : State) (n : Nat) : Nat :=
  let gs := (poundCells (poundOf n)).filter fun g => s.reached g && (s.is (R.CNL_CELL_STAT_END g) == isWest n)
  (gs.map fun g => s.pathOf g (isWest n)).foldl max 0 / 8 + 1 + (if s.ownEnd n then 0 else 80)

/-- Send a service barge of a type on an end, at most one of each type and cycle and only where it fits the window
(R169). `payload` is given the launch time, 2^-16 ns. -/
def State.sendService (s : State) (n typ position : Nat) (payload : Int → Bytes) (w : Window) : State × Window :=
  let sym := 2 ^ (3 - s.rateOf (poundOf n))
  let b := payload (s.plantFrac + (w.free * 65536 : Nat))
  if s.cnl.sentSvc.contains (n, typ) || !w.fits (b.length / 4) sym (s.pathNs n) then (s, w)
  else
    let s := s.sendEnd n typ position b
    ({ s with cnl := { s.cnl with sentSvc := s.cnl.sentSvc ++ [(n, typ)] } }, { w with free := w.free + bargeSymbols (b.length / 4) * sym })

/-- The TIME payload of a lane launched at `launch` (Table 6.4). A seat that takes the claim adds no SEAT_OFS from
then on, while the register keeps its value: the rule gives the offset to the seat without the claim and no end to it
(R161, log entry 114, DESIGN CHOICE). -/
def State.timeBytes (s : State) (n : Nat) (launch : Int) : Bytes :=
  let p := poundOf n
  let ofs : Int := if s.gateOpen then 0 else sx 16 (s.rd (R.CNL_POUND_TIME_SEAT_OFS p)) * 8192
  let t := launch + ofs
  let src := s.timeWest p == isWest n
  let next := if launch < s.markTime (s.sys.k + 1) * 65536 then s.sys.k + 1 else s.sys.k + 2
  layBytes 32 [(0, 8, ux 64 (t / 65536)), (8, 2, ux 16 t), (10, 1, s.rd (R.CNL_POUND_CTL_FULL_DIV p)), (16, 2, next),
    (18, 2, s.rd R.SYS_CYCLE_NOW_PERIOD), (20, 8, ux 64 (s.markTime next)),
    (28, 1, s.rd (R.CNL_POUND_STAT_SERVICE p) + 4 * s.rd (R.CNL_POUND_STAT_PAR p) + (if src then 8 else 0) + 16 * s.rateOf p),
    (29, 1, s.rd (R.CNL_POUND_STAT_SPLIT_E p)), (30, 1, s.rd (R.CNL_POUND_STAT_SPLIT_W p)), (31, 1, s.rd (R.CNL_POUND_CTL_FITTED p))]

/-- The next cell service request through an end (R177, R187). -/
def State.sendRequest (s : State) (n : Nat) (w : Window) : State × Window :=
  let p := poundOf n
  let gs := (poundCells p).filter fun g => s.reached g && (s.is (R.CNL_CELL_STAT_END g) == isWest n)
  let s := each gs State.settingWrite s
  match gs.findSome? fun g => match (s.link g).service with
      | some r => if r.sent.isNone then some (g, r) else none
      | none => none with
  | some (g, r) =>
    let seq := SMap.get (fun _ => 0) s.cnl.seqs 5
    let (s', w') := s.sendService n 5 (g % 16) (fun _ => layBytes 16 [(0, 1, r.op), (1, 1, r.len), (4, 2, r.addr), (8, 8, r.data)]) w
    if w'.free = w.free then (s', w')
    else
      let k := s.sys.k
      (s'.modLink g fun l => { l with service := some { r with sent := some seq }, since := k }, w')
  | none => (s, w)

/-- A broadcast service barge, where one is due. -/
def broadcastIf (due : Bool) (n typ : Nat) (payload : Int → Bytes) (q : State × Window) : State × Window :=
  if due then q.1.sendService n typ 0x1F payload q.2 else q

/-- What one end sends in a service window but for DELAY_REQ, in the priority of R169. A broadcast HOLD or SAFE
reaches cells of every depth and acknowledges none, so that its UPLINK is 0 and its FAULT_ACK 0, which the rule leaves
open beyond SEND = 0 (R174, R182, log entry 114, DESIGN CHOICE). -/
def State.serviceBarges (s : State) (n : Nat) (w : Window) : State × Window :=
  let p := poundOf n
  let gate := s.gateOpen
  let q := broadcastIf (gate && s.isSafe) n 8 (holdBytes 0 0 0 6) (s, w)
  let q := broadcastIf (gate && !s.isSafe && (s.pmgr p).outBypass && s.isOut p) n 8 (holdBytes 2 0 0 2) q
  let q := broadcastIf (s.ownEnd n && !s.onBackup 1 && s.timeValid) n 4 (q.1.timeBytes n) q
  let q := broadcastIf (gate && s.isOut p) n 9 (holdBytes 0 0 0 2) q
  if gate then q.1.sendRequest n q.2 else q

/-- What one end sends in a service window that is open (R169). DELAY_REQ goes out once in every 256 cycles, in the
first window it fits (R159). -/
def State.serviceEnd (s : State) (n : Nat) : State :=
  let p := poundOf n
  let own := s.ownEnd n
  let live := if own then s.runs n else decide (s.endReach n ≠ 0)
  match s.windowEnd p (s.intoSample p) with
  | none => s
  | some close =>
    if !live || s.looped p then s
    else
      let q := s.serviceBarges n ⟨0, close.map (· - s.intoSample p)⟩
      let due := own && decide (s.sys.k / 256 ≠ (s.lane n).askedAt / 256)
      if due && q.2.fits 4 (2 ^ (3 - s.rateOf p)) (s.laneDelay n / 65536 + 1) then q.1.sendDelayReq n else q.1

/-- A service window opens on every pound: time moves to the instant at which one is open on each (R169). -/
def State.serviceWindow (s : State) : State :=
  if s.power = .run || s.power = .hold then
    let wait := (s.poundList.map s.windowWait).foldl max 0
    let s := if s.poundList.all fun p => s.isOut p then s else s.advanceTo ((s.plantNs : Int) + wait)
    each (s.poundList.flatMap fun p => [2 * p, 2 * p + 1]) State.serviceEnd s
  else s

/-! ### At the SAMPLE mark -/

/-- The sample whose uplink window of a pound has closed by the opening of the present compute window, and not by the
one before: the present one when FULL; when HALF the last of its parity (R173, R180). -/
def State.judgedSample (s : State) (p : Nat) : Option Nat :=
  let k := s.sys.k
  let late := s.windowLen rateU < s.windowOf rateU p
  if s.isOut p then none
  else if !s.isHalf p then some k
  else if k % 2 = s.rd (R.CNL_POUND_STAT_PAR p) then (if late then none else some k)
  else if late && decide (1 ≤ k) then some (k - 1)
  else none

/-- Cells with no accepted state for their due sample, as its uplink window closes, are counted, and failed after
MISS_N in a row (R173, R179, R230). -/
def State.judgeMisses (s : State) : State :=
  each s.poundList (fun s p =>
    match s.judgedSample p with
    | none => s
    | some k =>
      each ((poundCells p).filter s.reached) (fun s g =>
        if (s.link g).sample = k + 1 then s
        else
          let s := s.inc (R.CNL_POUND_ERR_STATE_MISS p)
          let s := s.modCell g fun c => { c with misses := c.misses + 1 }
          if s.rd R.CELL_TIMING_MISS_N ≤ (s.cellAt g).misses then s.suspect g 0xFF04 s.sys.k else s) s) s

/-- Closure and steering every 64 cycles, in the seat without the claim of a pair (R161). -/
def State.steer (s : State) (p : Nat) : State :=
  let xs := (s.pound p).closures
  let was := (s.pound p).closureBad
  if s.sys.k % 64 ≠ 0 then s
  else if xs.isEmpty || !s.steers p then
    (s.wr (R.CNL_POUND_TIME_CLOSURE p) 0x8000).modPound p fun q => { q with closures := [], closureBad := false }
  else
    let n : Int := xs.length
    let mean := (xs.map (·.1)).foldl (· + ·) 0 / n
    let err := (xs.map (·.2)).foldl (· + ·) 0 / n
    let bad := decide (16 < mean) || decide (mean < -16)
    let s := (s.wr (R.CNL_POUND_TIME_CLOSURE p) (uxSat 16 mean)).modPound p fun q => { q with closures := [], closureBad := bad }
    let s := s.level 0x025 p was bad
    let o := sx 16 (s.rd (R.CNL_POUND_TIME_SEAT_OFS p)) + max (-4) (min 4 err)
    s.wr (R.CNL_POUND_TIME_SEAT_OFS p) (uxSat 16 o)

end Sys2Proof.Machine
end

