-- ==== Sys2Proof/Machine/Posted.lean ====
section
/-! DEFINITION. Descriptors that wait in a posted ring for a frame or a block: taking one up, its outcome where the
fetch decides it, and write-backs in ring order (R91, R96 to R98, R108, R110, R111). -/

set_option Elab.async false

namespace Sys2Proof.Machine

open Sys2Proof

/-- The opcode that a ring accepts beside commands (Table 4.3). -/
def ringOpcode (r : Nat) : Nat := if r < 4 then 0 else if r < 12 then 0xC0 else if r < 21 then 0xA0 else 0xB0

/-- The row of a descriptor whose opcode no command ring takes: it takes its turn and completes MALFORMED (R100,
R104). -/
def unknownRow : Nat := 256

/-- The owner of such a descriptor, which the check of the opcode never reaches. -/
def ownUnknown : Owner := fun _ s => (s, vBad 6)

/-- A descriptor of opcode `row` comes up in ring `r`; `outcome` is what the fetch decides of it. On a command ring it
waits its turn as a command does. -/
def State.post (s : State) (r row : Nat) (d : Desc) (frame : Bytes) (outcome : State → Option (Nat × Nat)) : State :=
  if r = evtq || !s.hasDesc r then s
  else
    if r < 4 then s.submit r unknownRow d fmtNone ownUnknown
    else
      let (i, _, s) := s.takeUp r
      let bad := if d.opcode.toNat ≠ row ∨ ringOpcode r ≠ row then some (6, 6) else outcome s
      s.enqueue { ring := r, idx := i, desc := d, frame := frame, bad := bad }

/-- The outcome of a format: MALFORMED with its DETAIL. -/
def fmtOutcome (fmt : Format) (d : Desc) (s : State) : Option (Nat × Nat) :=
  match (if d.flagsOk && !d.fence then fmt s d else some 5) with
  | some det => some (6, det)
  | none => none

/-- A TLM_BUFFER (R108) comes up. -/
def State.postTelemetry (s : State) (r : Nat) (d : Desc) : State := s.post r 0xC0 d [] (fmtOutcome fmtTlmBuffer d)

/-- An RX_BUFFER (R111) comes up. -/
def State.postReceive (s : State) (r : Nat) (d : Desc) : State := s.post r 0xB0 d [] (fmtOutcome fmtRxBuffer d)

end Sys2Proof.Machine
end

