-- ==== Sys2Proof/Machine/HostReg.lean ====
section
/-! DEFINITION. Register accesses over BAR0 as R8 to R13 judge them: what decodes, what a written word does
to each field, and the CORRECTED faults of an access that is discarded. What a register does beside
holding its fields is in the block it belongs to (Machine/Registers.lean calls it). -/

set_option Elab.async false

namespace Sys2Proof.Machine

open Sys2Proof

/-- A requester of a register access (Table 15.4). -/
structure Requester where
  master : Nat
  /-- may write RWL fields after the lock (R412) -/
  unlocked : Bool
  deriving DecidableEq, Repr

/-- The host over PCIe. -/
def byHost : Requester := ⟨0, false⟩

/-- The boot loader, which writes RWL fields only (R408). -/
def byLoader : Requester := ⟨8, true⟩

/-- Is boot DONE? (R80) -/
def State.bootDone (s : State) : Bool := s.is R.SYS_BOOT_STAT_DONE

/-- The six registers that decode before boot is DONE (R80). -/
def earlyRegs : List Nat := [0x0, 0x20, 0x24, 0x30, 0x38, 0x44]

/-- Does `off` lie in a descriptor bank (Table 18.1)? -/
def isBank (off : Nat) : Bool := 0x40000 ≤ off && off < 0x80000

/-- Does `off` lie in the MSI-X table or the pending bit array (Table 18.1)? -/
def isMsix (off : Nat) : Bool := off < 0x80200 && 0x80000 ≤ off || off = 0x81000 || off = 0x81004

/-- Is the register there at all (R433)? -/
def regExists (off : Nat) : Bool := off % 4 = 0 && ((regAt off).isSome || isBank off || isMsix off)

/-- Does BAR0 decode the offset now? (R80, R82, R433) -/
def State.decodes (s : State) (off : Nat) : Bool :=
  if s.sys.boot = .off ∨ s.sys.boot = .reset then false
  else if s.bootDone then regExists off else earlyRegs.contains off

/-- The source "undecoded host access", logged once boot is DONE (R8). -/
def State.undecoded (s : State) (r : Requester) (off access : Nat) : State :=
  if s.bootDone then s.raiseWith 0x000 0 { addr := off, master := r.master, access := access } else s

/-- The source "reserved encoding" for a register at `off` (R12). -/
def State.reservedWrite (s : State) (r : Requester) (off : Nat) : State :=
  s.raiseWith 0x002 0 { addr := off, master := r.master, access := 2 }

/-- Is an encoding of a field not reserved? (R12) -/
def Legal.ok (l : Legal) (v : Nat) : Bool :=
  match l with
  | .any => true
  | .range lo hi => lo ≤ v && v ≤ hi
  | .vec => 1 ≤ v && v ≤ 31 && v ≠ 24
  | .channel => v < 40 || (48 ≤ v && v < 64)
  | .f32nonneg => fFinite (BitVec.ofNat 32 v) && fLe 0#32 (BitVec.ofNat 32 v)
  | .f32max b => fFinite (BitVec.ofNat 32 v) && fLe 0#32 (BitVec.ofNat 32 v) && fLe (BitVec.ofNat 32 v) (BitVec.ofNat 32 b)
  | .f32finite => fFinite (BitVec.ofNat 32 v)

/-- Encodings reserved by something beside the field itself: PWM sources (R298), routes (R270, R278), INTERLEAVE of an
even channel (R273), set-point scopes (Table 9.13), N_NEED of a KZT-6096 (R246, Table 8.23), servo thresholds (R356).
`w` is the word written, `lsb` the field. -/
def State.legalHere (s : State) (off lsb : Nat) (w : Word) : Bool :=
  let v (l n : Nat) : Nat := w.toNat / 2 ^ l % 2 ^ n
  if 0x34400 ≤ off ∧ off < 0x34A00 then
    !(off % 0x20 = 0 && lsb = 24 && v 24 2 = 2 && (off - 0x34400) / 0x20 < 36)
  else if 0x30500 ≤ off ∧ off < 0x30700 then
    let r := (off - 0x30500) / 4
    let spare := decide (v 28 4 = 1 ∨ v 28 4 = 2) && decide (40 ≤ v 12 6 ∧ v 12 6 < 48)
    decide (v 28 4 = 0 ∧ lsb = 12) || (!(spare && lsb = 12) && decide (s.slotKind (v 0 12) = 3 ∨ v 28 4 = 0) &&
      !(decide (v 28 4 ≠ 0) && (List.range 128).any fun q =>
        decide (q ≠ r) && decide (s.rd (R.MTR_ROUTE_KIND q) ≠ 0) && decide (s.rd (R.MTR_ROUTE_SLOT q) = v 0 12)))
  else if 0x30100 ≤ off ∧ off < 0x30200 then !(lsb = 30 && v 30 1 = 1 && (off / 4) % 2 = 0)
  else if 0x2C100 ≤ off ∧ off < 0x2C140 then
    !(lsb = 16 && decide (v 24 4 ≠ 1) && decide (v 16 4 ≠ 0))
  else if 0x28100 ≤ off ∧ off < 0x28160 then
    !(off % 0x20 = 0 && lsb = 16 && !s.isFull && decide (32 < v 16 7))
  else if off = 0x3A124 ∨ off = 0x3A164 then
    decide (v 16 16 ≠ 0) && decide (v 0 16 ≠ 0) && decide (v 16 16 < v 0 16)
  else true

/-- Bits of a reaction register that the class holds at 1, and those that it holds at 0 (Table 15.12). -/
def reactForced (n : Nat) : Nat × Nat :=
  match sourceClass n with
  | none => (0, 0x3F000000)
  | some c => ((if 1 ≤ c then 2 ^ 29 else 0) + (if c = 2 then 2 ^ 24 else 0) + c * 2 ^ 30,
      if resettable (n / 32) then 0 else 2 ^ 27)

/-- The word that a register reads, as far as it differs from the word stored for reasons of class or fusing:
reaction registers (Table 15.12) and shadow maps (Table 15.14). -/
def fixedView (off : Nat) (w : Word) : Word :=
  if 0x3E800 ≤ off ∧ off < 0x3F000 then
    let (ones, clear) := reactForced ((off - 0x3E800) / 4)
    (w ||| BitVec.ofNat 32 ones) &&& ~~~BitVec.ofNat 32 clear
  else if [0x10600, 0x10640, 0x10680, 0x106C0].contains off then Fld.put ⟨off, 24, 2⟩ w 3
  else if 0x3E184 ≤ off ∧ off ≤ 0x3E1A8 then
    (w ||| BitVec.ofNat 32 (2 ^ ((off - 0x3E180) / 4))) &&& 0x7FE#32
  else w

/-- What a write does to the fields of a register: the word left, and whether a reserved encoding and a differing
locked field were met. -/
structure Written where
  word : Word
  reserved : Bool := false
  locked : Bool := false
  deriving DecidableEq, Repr

/-- One field of a write (R9, R10, R12). A reserved encoding that the settings write over a 0 keeps the 0 and logs no
fault (R436). -/
def State.writeField (s : State) (off : Nat) (w : Word) (open_ loader : Bool) (a : Written) (f : FieldDef) : Written :=
  let fl : Fld := ⟨off, f.lsb, f.width⟩
  let v := fl.get w
  let good := f.legal.ok v && s.legalHere off f.lsb w
  let set := if good then { a with word := fl.put a.word v }
    else if loader && decide (fl.get a.word = 0) then a else { a with reserved := true }
  match f.access with
  | .rw => if loader then a else set
  | .rwl =>
    if open_ then set
    else if fl.get (fixedView off a.word) = fl.get (fixedView off (fl.put a.word v)) then a
    else { a with locked := true }
  | .w1c => if loader then a else { a with word := a.word &&& ~~~(fl.put 0 v) }
  | .ro => a
  | .wo => a

/-- Is the protected-settings lock set? (R412) -/
def State.locked (s : State) : Bool := s.is R.SEC_IMG_STAT_LOCKED

/-- Does register `i` of the array at `base` belong to a lane, port, pound or cell that is fused off (R2)? -/
def State.fusedOff (s : State) (base i : Nat) : Bool :=
  !s.isFull &&
    (if [0x10000, 0x10004, 0x10008, 0x1000C].contains base then decide (12 ≤ i) && decide (i < 24)
     else if [0x11000, 0x11004, 0x28400].contains base then decide (96 ≤ i)
     else [0x10800, 0x10804, 0x10808, 0x10A00, 0x10A04, 0x10A08, 0x10A0C, 0x10A10, 0x28200, 0x2C080].contains base && decide (6 ≤ i))

/-- The bits of a written word that reach the register: those of fused-off towpath ports are discarded (R2). -/
def State.fusedBits (s : State) (off : Nat) (w : Word) : Word :=
  if off = 0x10780 ∧ !s.isFull then w &&& 0x3F#32 else w

/-- Carry out a 32-bit write on the fields of a register of the register table (R2, R9 to R12). -/
def State.writeFields (s : State) (r : Requester) (off : Nat) (w : Word) : State :=
  match regAt off with
  | none => s
  | some (d, i) =>
    if s.fusedOff d.base i then s else
    let w := s.fusedBits off w
    let open_ := !s.locked || r.unlocked
    let a := d.fields.foldl (s.writeField off w open_ (decide (r.master = 8))) { word := s.reg off }
    let s := s.setReg off a.word
    let s := if a.reserved then s.reservedWrite r off else s
    if a.locked then s.raiseWith 0x001 0 { addr := off, master := r.master, access := 2 } else s

/-- An access of the host over BAR0 returns the link from L1 to L0 (R81). -/
def State.wakeLink (s : State) (q : Requester) : State :=
  if s.hst.l1 && decide (q = byHost) then { s with hst := { s.hst with l1 := false } } else s

/-- A write of the word `w` at `off` by `q`: what the register itself does is `eff` when the access decodes. -/
def State.hostWrite (s : State) (off : Nat) (w : Word) (eff : State → State) (q : Requester := byHost) : State :=
  let s := s.wakeLink q
  if !s.decodes off then s.undecoded q off 2
  else eff (s.writeFields q off w)

end Sys2Proof.Machine
end

