-- ==== Sys2Proof/Machine/Time.lean ====
section
/-! DEFINITION. Plant time and the PTP trackers (R340 to R349). Times are in 2^-16 ns; an instant at a port is
given in 2^-16 ns of local time since the power-on reset, that is 65,536 × 2 × L with its fraction. The servo's law is
not in the spec: the rate it sets is a free value (log entry 5). -/

set_option Elab.async false

namespace Sys2Proof.Machine

open Sys2Proof

/-- Value of a correction at an instant of local time. -/
def Corr.at_ (c : Corr) (x : Int) : Int := x + c.ofs + c.rate * (x - c.anchor * 65536) / 2 ^ 48

/-- The instant of local time of the present tick. -/
def State.nowLocal (s : State) : Int := 131072 * (s.tsn.local_ : Int)

/-- The correction with another rate from tick `l` on: T is continuous there (R340). -/
def Corr.withRate (c : Corr) (l : Nat) (r : Int) : Corr :=
  { ofs := c.eval l - 131072 * (l : Int), anchor := 2 * (l : Int), rate := r }

/-- The correction moved by `d` in a step. -/
def Corr.step (c : Corr) (d : Int) : Corr := { c with ofs := c.ofs + d }

/-- Tracker `i`. -/
def State.tracker (s : State) (i : Nat) : Tracker := SMap.get (fun _ => {}) s.tsn.trackers i

/-- The state with tracker `i` changed. -/
def State.modTracker (s : State) (i : Nat) (f : Tracker → Tracker) : State :=
  { s with tsn := { s.tsn with trackers := SMap.put (fun _ => {}) s.tsn.trackers i (f (s.tracker i)) } }

/-- What tracker `i` has of port `p`. -/
def State.ptpLink (s : State) (i p : Nat) : PtpLink := SMap.get (fun _ => {}) (s.tracker i).links p

/-- The state with what tracker `i` has of port `p` changed. -/
def State.modPtpLink (s : State) (i p : Nat) (f : PtpLink → PtpLink) : State :=
  s.modTracker i fun t => { t with links := SMap.put (fun _ => {}) t.links p (f (s.ptpLink i p)) }

/-- What is under way on port `p` of tracker `i` is dropped; what it has measured stays. -/
def State.dropPtpLink (s : State) (i p : Nat) : State :=
  s.modPtpLink i p fun l => { mpd := l.mpd, down := l.down }

/-- Tracker states (Table 13.3). -/
inductive Dom where
  | disabled | listening | acquiring | locked | holdover
  deriving DecidableEq, Repr

/-- STATE encoding (Table 13.3). -/
def Dom.code : Dom → Nat
  | .disabled => 0 | .listening => 1 | .acquiring => 2 | .locked => 3 | .holdover => 4

/-- State of an encoding. -/
def Dom.ofCode : Nat → Dom
  | 1 => .listening | 2 => .acquiring | 3 => .locked | 4 => .holdover | _ => .disabled

/-- State of tracker `i`. -/
def State.dom (s : State) (i : Nat) : Dom := Dom.ofCode (s.rd (R.TSN_DOM_STAT_STATE i))

/-- Is tracker `i` LOCKED? -/
def State.domLocked (s : State) (i : Nat) : Bool := decide (s.dom i = .locked)

/-- Selected tracker. -/
def State.selected (s : State) : Nat := s.rd R.TSN_TIME_STAT_SEL

/-- Rates shown. -/
def State.showRate (s : State) : State :=
  let r := ux 64 s.tsn.corr.rate
  (s.wr R.TSN_PLANT_RATE_LO r).wr R.TSN_PLANT_RATE_HI (r / 2 ^ 32)

/-- The state with plant time's correction at `c`. -/
def State.setCorr (s : State) (c : Corr) : State := ({ s with tsn := { s.tsn with corr := c } }).showRate

/-- The state with tracker `i`'s correction at `c`. -/
def State.setDomCorr (s : State) (i : Nat) (c : Corr) : State :=
  let s := s.modTracker i fun t => { t with corr := c }
  let r := ux 64 c.rate
  (s.wr (R.TSN_DOM_RATE_LO i) r).wr (R.TSN_DOM_RATE_HI i) (r / 2 ^ 32)

/-- What plant time still has to close toward the selected tracker. -/
def State.timeDiff (s : State) : Int := (s.tracker s.selected).corr.eval s.tsn.local_ - s.plantFrac

/-- TSN_TIME_DIFF shown, in ns. -/
def State.showDiff (s : State) : State :=
  s.wr R.TSN_TIME_DIFF (if s.tsn.slew.isSome then uxSat 32 (s.timeDiff / 65536) else 0)

/-- `TSN_TIME_CTL.SLEW` as a rate (R343). -/
def State.slewRate (s : State) : Int := (s.rd R.TSN_TIME_CTL_SLEW : Int) * 2 ^ 48 / 1000000000

/-- Start a slew from the plant time reached, or follow exactly when nothing is to close (R343). -/
def State.startSlew (s : State) : State :=
  let d := s.timeDiff
  let c := (s.tracker s.selected).corr
  if d = 0 then
    (({ s with tsn := { s.tsn with slew := none } }).setCorr c).wrB R.TSN_TIME_STAT_SLEWING false |>.showDiff
  else
    let up := decide (0 < d)
    let s := { s with tsn := { s.tsn with slew := some up } }
    let r := if up then c.rate + s.slewRate else c.rate - s.slewRate
    ((s.setCorr (s.tsn.corr.withRate s.tsn.local_ r)).wrB R.TSN_TIME_STAT_SLEWING true).showDiff

/-- The time in which a slew closes the difference passes: the difference over that of the rates (R343). -/
def State.runSlew (s : State) : State :=
  let r := s.tsn.corr.rate - (s.tracker s.selected).corr.rate
  if r = 0 then s else s.advanceBy (s.timeDiff * 2 ^ 32 / r).toNat

/-- No slew is in progress. -/
def State.endSlew (s : State) : State := { s with tsn := { s.tsn with slew := none } }

/-- The slew ends: plant time takes the tracker's parameters at the edge where the difference would change sign
(R343). -/
def State.slewDone (s : State) : State :=
  if s.tsn.slew.isSome then
    let s := s.runSlew.endSlew
    let s := (s.setCorr (s.tracker s.selected).corr).wrB R.TSN_TIME_STAT_SLEWING false
    s.showDiff.event 9 4 [(16, 1, s.selected)]
  else s

/-- Every open metering window closes (R280, R342). -/
def State.closeWindowsAtStep (s : State) : State := each s.accsInUse (fun s a => s.accClose a s.plantNs) s

/-- Plant time steps to correction `c`: the epoch moves with it (R342). `new` is the first payload byte of PLANT_TIME.
-/
def State.jumpTime (s : State) (c : Corr) (new : Nat) : State :=
  let d := c.eval s.tsn.local_ - s.plantFrac
  let s := { s.setCorr c with sys := { s.sys with epoch := s.sys.epoch + d / 65536 } }
  let s := ({ s with tsn := { s.tsn with slew := none, stepAsked := false } }).wrB R.TSN_TIME_STAT_SLEWING false
  let s := (s.showDiff.wrB R.TSN_TIME_STAT_STEPPED true).closeWindowsAtStep
  s.event 9 1 [(16, 1, new), (17, 1, 1), (24, 8, ux 64 (d / 65536))]

/-- Is a tracker LOCKED? With none, plant time runs on its last parameters (R348). -/
def State.anyLocked (s : State) : Bool := s.domLocked 0 || s.domLocked 1

/-- Does plant time follow the corrections of tracker `i`: the selected one, while some tracker is LOCKED (R343,
R348)? -/
def State.follows (s : State) (i : Nat) : Bool :=
  decide (s.selected = i) && s.timeValid && !s.is R.TSN_TIME_STAT_FREE && s.anyLocked

/-- Plant time against the selected tracker: the first LOCKED makes it VALID in a step; a tracker takes over from
free-run by slewing, and so does one that is LOCKED again after plant time ran on its last parameters (R341, R343,
R348). -/
def State.judgeTime (s : State) : State :=
  let l := s.domLocked s.selected
  let s := s.wrB R.TSN_TIME_STAT_LOCKED l
  if l && !s.timeValid then
    let s := s.wrB R.TSN_TIME_STAT_VALID true
    (s.setActive 0x120 false).jumpTime (s.tracker s.selected).corr 1
  else if l && s.is R.TSN_TIME_STAT_FREE then
    ((s.wrB R.TSN_TIME_STAT_FREE false).event 9 1 [(16, 1, 1)]).startSlew
  else if l && s.tsn.slew.isNone && decide (s.tsn.corr ≠ (s.tracker s.selected).corr) then s.startSlew
  else s

/-- Plant time falls to INVALID (R341). -/
def State.timeInvalid (s : State) : State :=
  if s.timeValid then
    let s := (s.wrB R.TSN_TIME_STAT_VALID false).wrB R.TSN_TIME_STAT_FREE false
    let s := ({ s with tsn := { s.tsn with slew := none } }).wrB R.TSN_TIME_STAT_SLEWING false
    ((s.showDiff.event 9 1 [(16, 1, 0)]).setActive 0x120 true).raise 0x120 0
  else s

/-- A change of selection: DOMAIN_SWITCH and a slew (R343, R348). -/
def State.select (s : State) (n : Nat) : State :=
  let o := s.selected
  if o = n then s
  else
    let s := (s.wr R.TSN_TIME_STAT_SEL n).inc R.TSN_TIME_STAT_SWITCHES
    let d := s.timeDiff / 65536
    let ms := if s.rd R.TSN_TIME_CTL_SLEW = 0 then 0 else d.natAbs * 1000 / s.rd R.TSN_TIME_CTL_SLEW
    let s := s.event 9 3 [(16, 1, o), (17, 1, n), (20, 4, uxSat 32 d), (24, 4, ms)]
    if s.timeValid && !s.is R.TSN_TIME_STAT_FREE then s.startSlew else s

/-- The tracker that R348 selects now. -/
def State.wanted (s : State) : Nat :=
  let pref := s.rd R.TSN_TIME_CTL_PREF
  let sel := s.selected
  if s.role = .standby then s.tsn.holderSel.getD sel
  else if !s.is R.TSN_TIME_CTL_AUTO then pref
  else if sel = pref then (if !s.domLocked pref && s.domLocked (1 - pref) then 1 - pref else pref)
  else if s.domLocked pref && !s.domLocked sel then pref
  else sel

/-- Selection and plant time re-judged (R341, R348). "Plant time holdover" is raised when no tracker is LOCKED any
more. -/
def State.judgeSelection (s : State) (hadLock : Bool) : State :=
  let s := (s.select s.wanted).judgeTime
  let has := s.anyLocked
  let s := if hadLock ≠ has then s.setActive 0x122 (!has) else s
  if hadLock && !has then s.raise 0x122 0 else s

/-- A change of a tracker's state: DOMAIN_STATE, LOSS_CNT, "PTP domain lost" (R347). -/
def State.setDom (s : State) (i : Nat) (x : Dom) : State :=
  let old := s.dom i
  if old = x then s
  else
    let had := s.anyLocked
    let s := s.wr (R.TSN_DOM_STAT_STATE i) x.code
    let s := s.modTracker i fun t => { t with good := 0, lockedAt := if x = .locked then s.tsn.local_ else t.lockedAt }
    let s := s.event 9 2 [(16, 1, i), (17, 1, old.code), (18, 1, x.code), (19, 1, s.rd (R.TSN_DOM_STAT_SLAVE_PORT i))]
    let s := if old = .locked then s.inc (R.TSN_DOM_STAT_LOSS_CNT i) else s
    let s := if old = .locked && x = .holdover then (s.setActive 0x121 true).raise 0x121 i
      else if x = .locked then s.setActive 0x121 false else s
    s.judgeSelection had

/-- Tracker `i` of an enabled domain starts from LISTENING with its correction; of a disabled one it is DISABLED
(R344, R347). -/
def State.startTracker (s : State) (i : Nat) : State :=
  if s.is (R.TSN_DOM_CTL_EN i) then
    let p := if s.rd (R.TSN_DOM_CTL_PORTS i) = 2 then 1 else 0
    let s := (s.wr (R.TSN_DOM_STAT_SLAVE_PORT i) p).modTracker i fun t => { corr := t.corr, reqSeq := t.reqSeq }
    s.setDom i .listening
  else s.setDom i .disabled

/-- Both trackers start (R344, R349). -/
def State.startTrackers (s : State) : State := each [0, 1] State.startTracker s

/-- A write of `TSN_DOM_CTL` of tracker `i`: EN starts it or disables it (R347). -/
def State.domWritten (s : State) (i : Nat) : State :=
  if s.is (R.TSN_DOM_CTL_EN i) = decide (s.dom i ≠ .disabled) then s else s.startTracker i

/-- Trackers stop, as in TOWPATH (R344, R349): state kept, nothing consumed until they start again. -/
def State.trackersRun (s : State) : Bool := decide (s.power = .run) || decide (s.power = .hold)

/-- PLL_ETH lost: every tracker that runs enters HOLDOVER (R349, log entry 118). -/
def State.trackersHold (s : State) : State :=
  each [0, 1] (fun s i => if s.dom i = .disabled then s else s.setDom i .holdover) s

/-! ### Messages (R344 to R347) -/

/-- Order of two data sets by the best master algorithm: negative when the first is better (IEEE 1588-2019, 9.3.4). -/
def masterKey (m : PtpMaster) : List Nat :=
  [m.priority1, m.clockClass, m.accuracy, m.variance, m.priority2, m.gm, m.stepsRemoved, m.clock, m.port]

/-- Lexicographic order of keys. -/
def keyLess : List Nat → List Nat → Bool
  | a :: s, b :: t => if a < b then true else if b < a then false else keyLess s t
  | _, _ => false

/-- ms of the local counter. -/
def State.nowMs (s : State) : Nat := s.tsn.local_ / 500000

/-- Is a foreign master qualified at `now`: 2 Announces within the last 4 intervals? (Table 13.2) -/
def qualified (now : Nat) (x : PtpMaster × Nat × Option Nat) : Bool :=
  match x.2.2 with
  | none => false
  | some p => decide (now ≤ p + 4 * x.1.interval)

/-- The best foreign master that is qualified at `now`. -/
def bestMaster (now : Nat) (xs : List (PtpMaster × Nat × Option Nat)) : Option PtpMaster :=
  (xs.filter (qualified now)).foldl (fun b x =>
    match b with
    | none => some x.1
    | some m => if keyLess (masterKey x.1) (masterKey m) then some x.1 else b) none

/-- An Announce enters the foreign master list. -/
def hear (now : Nat) (m : PtpMaster) (xs : List (PtpMaster × Nat × Option Nat)) : List (PtpMaster × Nat × Option Nat) :=
  match xs.find? fun x => x.1.clock = m.clock ∧ x.1.port = m.port with
  | some x => (m, now, some x.2.1) :: xs.filter fun y => !(y.1.clock = m.clock ∧ y.1.port = m.port)
  | none => (m, now, none) :: xs

/-- A change of grandmasterIdentity while LOCKED returns a tracker to ACQUIRING (Table 13.3). -/
def State.newGrandmaster (s : State) (i : Nat) (old : Option PtpMaster) (m : PtpMaster) : State :=
  match old with
  | some o => if o.gm = m.gm then s else (s.event 9 6 [(16, 1, i), (24, 8, m.gm)]).setDom i .acquiring
  | none => s

/-- What a new master does to a tracker in state `d` (Table 13.3). -/
def State.masterIn (s : State) (i : Nat) (old : Option PtpMaster) (m : PtpMaster) (d : Dom) : State :=
  match d with
  | .locked => s.newGrandmaster i old m
  | .listening => s.setDom i .acquiring
  | .holdover => s.setDom i .acquiring
  | _ => s

/-- The tracker takes a master (Table 13.3). -/
def State.takeMaster (s : State) (i : Nat) (m : PtpMaster) : State :=
  let old := (s.tracker i).master
  let s := s.modTracker i fun t => { t with master := some m }
  let s := (s.wr (R.TSN_DOM_GM_LO i) m.gm).wr (R.TSN_DOM_GM_HI i) (m.gm / 2 ^ 32)
  let s := (s.wr (R.TSN_DOM_UTC_OFFSET i) m.utc).wrB (R.TSN_DOM_UTC_VALID i) m.utcValid
  s.masterIn i old m (s.dom i)

/-- An Announce (R344, R347). -/
def State.announce (s : State) (i port : Nat) (m : PtpMaster) : State :=
  if decide (s.rd (R.TSN_DOM_CTL_PROFILE i) = 4) && !m.tlv then s
  else
    let s := s.modTracker i fun t => { t with
      foreign := hear s.nowMs m t.foreign
      heard := t.heard ||| BitVec.ofNat 2 (2 ^ port) }
    match bestMaster s.nowMs (s.tracker i).foreign with
    | some b => s.takeMaster i b
    | none => s

/-- The tracker's correction is servoed at the rate its servo sets, a free value; plant time follows (R343, R347). -/
def State.servo (s : State) (i : Nat) : State :=
  let (r, s) := s.fresh 64
  let s := s.setDomCorr i ((s.tracker i).corr.withRate s.tsn.local_ (sx 64 r))
  if s.follows i then
    (match s.tsn.slew with
      | none => s.setCorr (s.tracker i).corr
      | some _ => s.startSlew)
  else s

/-- The tracker steps to its master (R347); plant time that follows it slews (R343). -/
def State.stepTracker (s : State) (i : Nat) (ofs : Int) : State :=
  let s := s.setDom i .acquiring
  let s := (s.setDomCorr i ((s.tracker i).corr.step (-ofs))).inc (R.TSN_DOM_STAT_STEPS i)
  let s := s.modTracker i fun t => { t with good := 0 }
  if s.follows i then s.startSlew else s

/-- The offset from master is known (R347): shown, then a step, the servo, and the lock count. -/
def State.offsetKnown (s : State) (i : Nat) (ofs : Int) : State :=
  let s := s.wr (R.TSN_DOM_OFS i) (uxSat 32 (ofs / 4096))
  let mag := (if ofs < 0 then -ofs else ofs)
  let big := decide ((s.rd (R.TSN_DOM_SERVO_STEP_THR i) : Int) * 65536 < mag)
  let near := decide (mag ≤ (s.rd (R.TSN_DOM_SERVO_LOCK_THR i) : Int) * 65536)
  if s.dom i ≠ .acquiring && s.dom i ≠ .locked then s
  else if big then s.stepTracker i ofs
  else
    let s := (s.servo i).modTracker i fun t => { t with good := if near then min 16 (t.good + 1) else 0 }
    if decide (s.dom i = .acquiring) && decide (16 ≤ (s.tracker i).good) then s.setDom i .locked else s

/-- Does port `p` hold role SLAVE for tracker `i`, and not PASSIVE_SLAVE (R346)? -/
def State.isSlave (s : State) (i p : Nat) : Bool := decide (p = s.rd (R.TSN_DOM_STAT_SLAVE_PORT i))

/-- A Sync is complete: t2 − t1, corrected (IEEE 1588-2019, 11.2); the PASSIVE_SLAVE port measures and does not steer
(R346). -/
def State.syncDone (s : State) (i port : Nat) (t1 t2 corr : Int) : State :=
  let d := t2 - t1 - corr - sx 32 (s.rd (R.TSN_PORT_ASYM port))
  let s := s.modPtpLink i port fun l => { l with down := d, sync := none }
  if s.isSlave i port then s.offsetKnown i (d - (s.ptpLink i port).mpd) else s

/-- A mean path or peer delay of a port is known; that of the SLAVE port is shown (R346, R356). -/
def State.delayKnown (s : State) (i port : Nat) (d : Int) : State :=
  let s := s.modPtpLink i port fun l => { l with mpd := d, delayReq := none, peer := none, unanswered := 0 }
  if s.isSlave i port then s.wr (R.TSN_DOM_MPD i) (min (2 ^ 32 - 1) (d / 4096).toNat) else s

/-- Is the message from the tracker's master? -/
def State.fromMaster (s : State) (i : Nat) (m : PtpMsg) : Bool :=
  match (s.tracker i).master with
  | some x => decide (x.clock = m.clock) && decide (x.port = m.port)
  | none => false

/-- Does tracker `i` consume a message that arrives on `port`? (R345) -/
def State.consumes (s : State) (i port : Nat) (m : PtpMsg) : Bool :=
  s.trackersRun && s.is (R.TSN_DOM_CTL_EN i) && s.is (R.TSN_PORT_STAT_UP port)
    && (s.rd (R.TSN_DOM_CTL_PORTS i)).testBit port && decide (s.rd (R.TSN_DOM_CTL_DOMAIN i) = m.domain)
    && (if s.is (R.TSN_DOM_CTL_TAGGED i) then decide (m.vid = some (s.rd (R.TSN_DOM_CTL_VID i))) else m.vid.isNone)

/-- Does the tracker use the peer delay mechanism? (Table 13.2) -/
def State.peerDelay (s : State) (i : Nat) : Bool := decide (2 ≤ s.rd (R.TSN_DOM_CTL_PROFILE i))

/-- Ingress time of an instant in tracker `i`'s own time (R339). -/
def State.ingress (s : State) (i port : Nat) (x : Int) : Int :=
  (s.tracker i).corr.at_ x - (s.rd (R.TSN_PORT_ING_LAT port) : Int)

/-- Egress time of an instant in tracker `i`'s own time (R339). -/
def State.egress (s : State) (i port : Nat) (x : Int) : Int :=
  (s.tracker i).corr.at_ x + (s.rd (R.TSN_PORT_EGR_LAT port) : Int)

/-- A tracker consumes a PTP message; `x` is the instant of its timestamp point, `y` that of the answer to a
Pdelay_Req (R345). -/
def State.ptp (s : State) (i port : Nat) (m : PtpMsg) (x y : Int) : State :=
  if !s.consumes i port m then s
  else
    let l := s.ptpLink i port
    let at_ := s.ingress i port x
    match m.body with
    | .announce a => s.announce i port a
    | .sync two origin =>
      if !s.fromMaster i m then s
      else if two then s.modPtpLink i port fun l => { l with sync := some (m.seq, at_, m.correction) }
      else s.syncDone i port origin at_ m.correction
    | .followUp origin =>
      (match l.sync with
        | some (q, t2, c) => if s.fromMaster i m && decide (q = m.seq) then s.syncDone i port origin t2 (c + m.correction) else s
        | none => s)
    | .delayResp receive mine =>
      (match l.delayReq with
        | some (q, t3) =>
          if mine && s.fromMaster i m && decide (q = m.seq) && !s.peerDelay i then
            let up := receive - t3 - m.correction + sx 32 (s.rd (R.TSN_PORT_ASYM port))
            s.delayKnown i port ((l.down + up) / 2)
          else s
        | none => s)
    | .pdelayReq =>
      if s.peerDelay i then
        let turn := s.egress i port y - at_
        s.emit (.ptpOut i port 3 m.seq (m.correction + turn))
      else s
    | .pdelayResp two receipt mine =>
      (match l.delayReq with
        | some (q, t1) =>
          if mine && decide (q = m.seq) && s.peerDelay i then
            if two then s.modPtpLink i port fun l => { l with peer := some (q, at_ - t1 - m.correction, receipt) }
            else s.delayKnown i port ((at_ - t1 - m.correction) / 2)
          else s
        | none => s)
    | .pdelayRespFollowUp origin mine =>
      (match l.peer with
        | some (q, d, t2) =>
          if mine && decide (q = m.seq) then s.delayKnown i port ((d - (origin - t2) - m.correction) / 2) else s
        | none => s)
    | .other => s

/-- The master is lost on the SLAVE port: the ports exchange roles where the other still hears it, with no change of
state (R346); else HOLDOVER (Table 13.3). `kind`: 0 Announce receipt, 1 Sync, 2 delay responses. -/
def State.masterLost (s : State) (i kind : Nat) : State :=
  let p := s.rd (R.TSN_DOM_STAT_SLAVE_PORT i)
  let other := (s.tracker i).heard.getLsbD (1 - p)
  if s.dom i ≠ .acquiring && s.dom i ≠ .locked then s
  else if decide (s.rd (R.TSN_DOM_CTL_PORTS i) = 3) && other && decide (kind ≠ 2) then
    let s := s.modTracker i fun t => { t with heard := BitVec.ofNat 2 (2 ^ (1 - p)) }
    let s := s.dropPtpLink i p
    let s := s.wr (R.TSN_DOM_STAT_SLAVE_PORT i) (1 - p)
    s.wr (R.TSN_DOM_MPD i) (min (2 ^ 32 - 1) ((s.ptpLink i (1 - p)).mpd / 4096).toNat)
  else
    let s := if kind = 0 then s.modTracker i fun t => { t with
          foreign := t.foreign.filter fun x => !(t.master.any fun m => x.1.clock = m.clock ∧ x.1.port = m.port)
          master := none
          heard := 0 }
      else s
    (each [0, 1] (fun s p => s.dropPtpLink i p) s).setDom i .holdover

/-- 60 s of HOLDOVER with no master (R347). -/
def State.holdoverEnd (s : State) (i : Nat) : State := if s.dom i = .holdover then s.setDom i .listening else s

/-- PREF has been LOCKED for REVERT_S seconds (R348). -/
def State.revert (s : State) : State :=
  let pref := s.rd R.TSN_TIME_CTL_PREF
  let n := s.rd R.TSN_TIME_CTL_REVERT_S
  if s.role ≠ .standby && s.is R.TSN_TIME_CTL_AUTO && decide (n ≠ 0) && s.domLocked pref && decide (s.selected ≠ pref) then
    ((s.advanceByTicks ((s.tracker pref).lockedAt + n * 500000000)).select pref).judgeTime
  else s

/-- A write of STEP_REQ (R342). -/
def State.stepReq (s : State) : State :=
  if s.power = .hold && s.role ≠ .standby && s.domLocked s.selected then
    { s with tsn := { s.tsn with stepAsked := true } }
  else s.inc R.TSN_TIME_STAT_STEP_REFUSED

/-- An accepted step takes effect at a SAMPLE mark (R342). -/
def State.stepAtMark (s : State) : State :=
  if s.tsn.stepAsked then s.jumpTime (s.tracker s.selected).corr 1 else s

/-- A read of TSN_NOW_LO (R356). -/
def State.captureNow (s : State) : State :=
  let f := s.plantFrac
  let t := ux 64 (f / 65536)
  let l := s.tsn.local_
  let s := ((s.wr R.TSN_NOW_LO t).wr R.TSN_NOW_HI (t / 2 ^ 32)).wr R.TSN_NOW_FRAC_FRAC (ux 16 f)
  (s.wr R.TSN_LOCAL_LO l).wr R.TSN_LOCAL_HI (l / 2 ^ 32)

/-- Plant time at the release of a main-domain reset: INVALID, or VALID in free-run (R341). -/
def State.timeReset (s : State) : State :=
  let s := s.wrB R.TSN_TIME_STAT_VALID false
  { s with tsn := { s.tsn with slew := none, stepAsked := false, trackers := [], holderSel := none } }

/-- Free-run, once the settings give FREERUN (R341). -/
def State.timeFree (s : State) : State :=
  if s.is R.TSN_TIME_CTL_FREERUN && !s.timeValid then
    let s := (s.wrB R.TSN_TIME_STAT_VALID true).wrB R.TSN_TIME_STAT_FREE true
    (s.setCorr {}).event 9 1 [(16, 1, 2)]
  else s

/-- One tick of the local counter, which counts while `VAON` and `VCORE` are in range (R340). -/
def State.tick (s : State) : State :=
  if s.sys.feeds ≠ 0 ∧ s.sys.railsOk.getLsbD 0 = true then s.advanceByTicks (s.tsn.local_ + 1) else s

end Sys2Proof.Machine
end

