-- ==== Sys2Proof/Machine/Net.lean ====
section
/-! DEFINITION. The Ethernet ports: UP and down, received frames, PRP, frame transmission with launch times and one-step
insertion (R333 to R339, R350 to R354). A frame is sent whole within its command (log entry 13). -/

set_option Elab.async false

namespace Sys2Proof.Machine

open Sys2Proof

/-! ### Ports (R334) -/

/-- Does the Ethernet domain run on its loop (Table 3.4, R71)? -/
def State.ethRuns (s : State) : Bool := s.bitOf R.CLK_PLL_STAT_LOCKED 9 && !s.onBackup 9

/-- A port comes up, at the rate of its divider (R75, R334). -/
def State.portUp (s : State) (p : Nat) : State :=
  if s.is (R.TSN_PORT_CTL_EN p) && s.trackersRun && s.ethRuns && !s.is (R.TSN_PORT_STAT_UP p) then
    let s := s.wr (R.TSN_PORT_STAT_SPEED p) (s.rd (if p = 0 then R.CLK_DIV_NOW_ETH0_RATE else R.CLK_DIV_NOW_ETH1_RATE))
    (((s.wrB (R.TSN_PORT_STAT_LOS p) false).wrB (R.TSN_PORT_STAT_UP p) true).setActive 0x123 false).event 9 5
      [(16, 1, p), (17, 1, 1)]
  else s

/-- No tracker hears its master on port `p` any more (R346). -/
def State.deafen (s : State) (p : Nat) : State :=
  each [0, 1] (fun s i => s.modTracker i fun t => { t with heard := t.heard &&& ~~~ BitVec.ofNat 2 (2 ^ p) }) s

/-- A port goes down for a cause of Table 13.6. -/
def State.portDown (s : State) (p cause : Nat) : State :=
  let s := if cause = 1 then s.wrB (R.TSN_PORT_STAT_LOS p) true else s
  let s := s.deafen p
  if s.is (R.TSN_PORT_STAT_UP p) then
    let s := (s.wrB (R.TSN_PORT_STAT_UP p) false).event 9 5 [(16, 1, p), (17, 1, 0), (18, 1, cause)]
    if s.is (R.TSN_PORT_CTL_EN p) then ((s.wrB (R.TSN_PORT_STAT_LOST p) true).setActive 0x123 true).raise 0x123 p else s
  else s

/-- Both ports go down. -/
def State.portsDown (s : State) (cause : Nat) : State := each [0, 1] (fun s p => s.portDown p cause) s

/-! ### Frames as bytes -/

/-- The `n`-byte big-endian number at offset `i`. -/
def beAt (b : Bytes) (i n : Nat) : Nat := (List.range n).foldl (fun a k => 256 * a + (b.getD (i + k) 0).toNat) 0

/-- The frame with the `n`-byte big-endian number `v` at offset `i`. -/
def bePut (b : Bytes) (i n v : Nat) : Bytes :=
  (List.range b.length).map fun k =>
    if i ≤ k ∧ k < i + n then BitVec.ofNat 8 (v / 256 ^ (i + n - 1 - k)) else b.getD k 0

/-- VID of a frame with one tag. -/
def frameVid (b : Bytes) : Option Nat := if beAt b 12 2 = 0x8100 then some (beAt b 14 2 % 4096) else none

/-- Offset of the EtherType, after at most one tag. -/
def typeAt (b : Bytes) : Nat := if beAt b 12 2 = 0x8100 then 16 else 12

/-- Where a PTP message lies in a frame: offset, and the UDP header's offset for IPv4 (R353). -/
def ptpAt (b : Bytes) (ports : List Nat) : Option (Nat × Option Nat) :=
  let t := typeAt b
  if beAt b t 2 = 0x88F7 then some (t + 2, none)
  else if beAt b t 2 = 0x0800 ∧ beAt b (t + 11) 1 = 17 then
    let u := t + 2 + 4 * (beAt b (t + 2) 1 % 16)
    if ports.contains (beAt b (u + 2) 2) then some (u + 8, some u) else none
  else none

/-- messageType of the event message that one-step insertion accepts (R353): 0 Sync, 1 Delay_Req, 2 Pdelay_Req,
3 Pdelay_Resp. -/
def oneStepType (b : Bytes) : Option Nat :=
  match ptpAt b [319] with
  | some (o, _) => if beAt b o 1 % 16 < 4 then some (beAt b o 1 % 16) else none
  | none => none

/-- One's complement sum of 16-bit words. -/
def onesAdd (a b : Nat) : Nat := let x := a + b; x % 65536 + x / 65536

/-- A UDP checksum made valid again after the bytes from `o` changed from `old` to `new`; zero stays zero (R353). -/
def fixChecksum (old new : Bytes) (u o : Nat) : Bytes :=
  let c := beAt new (u + 6) 2
  if c = 0 then new
  else
    let n := (new.length - o) / 2
    let x := (List.range n).foldl (fun a k =>
      onesAdd (onesAdd a (65535 - beAt old (o + 2 * k) 2)) (beAt new (o + 2 * k) 2)) (65535 - c)
    let c' := 65535 - x
    bePut new (u + 6) 2 (if c' = 0 then 65535 else c')

/-- The frame with the egress timestamp `e` (2^-16 ns) inserted (R353). -/
def oneStep (b : Bytes) (e : Int) : Bytes :=
  match ptpAt b [319], oneStepType b with
  | some (o, u), some ty =>
    let corr := sx 64 (beAt b (o + 8) 8)
    let ns := (e / 65536).toNat
    let b' :=
      if ty = 3 then bePut b (o + 8) 8 (ux 64 (corr + e))
      else bePut (bePut (bePut b (o + 8) 8 (ux 64 (corr + e % 65536))) (o + 34) 6 (ns / 1000000000)) (o + 40) 4 (ns % 1000000000)
    (match u with
      | some u => fixChecksum b b' u o
      | none => b')
  | _, _ => b

/-! ### PRP (R337, R338) -/

/-- A redundancy control trailer appended. -/
def withTrailer (b : Bytes) (seq lan : Nat) : Bytes :=
  let size := b.length - (typeAt b + 2) + 6
  b ++ (List.range 6).map fun i => (BitVec.ofNat 8 (((seq * 65536 + lan * 4096 + size % 4096) * 65536 + 0x88FB) / 256 ^ (5 - i)))

/-- Sequence and LAN identifier of a valid trailer. -/
def trailer (b : Bytes) : Option (Nat × Nat) :=
  let n := b.length
  if n < 20 then none
  else if beAt b (n - 2) 2 = 0x88FB ∧ beAt b (n - 4) 2 % 4096 = n - (typeAt b + 2) then
    some (beAt b (n - 6) 2, beAt b (n - 4) 2 / 4096)
  else none

/-- Is the frame with this source and sequence the second copy? The table after it; whether it was full (R338). -/
def State.prpSee (s : State) (mac seq : Nat) : Bool × Bool × State :=
  let now := s.nowMs
  let live := s.tsn.prp.filter fun e => now ≤ e.last + s.rd R.TSN_PRP_CTL_FORGET
  let put (l : List PrpEntry) : State := { s with tsn := { s.tsn with prp := l } }
  match live.find? fun e => e.mac = mac with
  | some e =>
    let dup := e.seqs.contains seq
    let e' : PrpEntry := { mac := mac, last := now, seqs := (if dup then e.seqs.filter (· ≠ seq) else seq :: e.seqs) }
    (dup, false, put (e' :: live.filter fun x => x.mac ≠ mac))
  | none =>
    if 1024 ≤ live.length then (false, true, put live)
    else (false, false, put ({ mac := mac, seqs := [seq], last := now } :: live))

/-! ### Receiving (R335, R336) -/

/-- Register fields of a port's VLAN and multicast entries. -/
def vlanFld (p k : Nat) : Fld × Fld :=
  if p = 0 then (R.TSN_PORT0_VLAN_EN k, R.TSN_PORT0_VLAN_VID k) else (R.TSN_PORT1_VLAN_EN k, R.TSN_PORT1_VLAN_VID k)

/-- Enable and address halves of a multicast entry. -/
def mcFld (p k : Nat) : Fld × Fld × Fld :=
  if p = 0 then (R.TSN_PORT0_MC_HI_EN k, R.TSN_PORT0_MC_HI k, R.TSN_PORT0_MC_LO k)
  else (R.TSN_PORT1_MC_HI_EN k, R.TSN_PORT1_MC_HI k, R.TSN_PORT1_MC_LO k)

/-- Address of a port. -/
def State.macOf (s : State) (p : Nat) : Nat := s.rd (R.TSN_PORT_MAC_HI p) * 2 ^ 32 + s.rd (R.TSN_PORT_MAC_LO p)

/-- Destinations of PTP (R344): the two Layer 2 addresses and that of 224.0.1.129. -/
def ptpAddresses : List Nat := [0x011B19000000, 0x0180C200000E, 0x01005E000181]

/-- Does the port take this destination? (R335) -/
def State.destOk (s : State) (p dst : Nat) : Bool :=
  decide (dst = s.macOf p) || decide (dst = 0xFFFFFFFFFFFF) || ptpAddresses.contains dst ||
    (List.range 4).any fun k =>
      let (en, hi, lo) := mcFld p k
      s.is en && decide (s.rd hi * 2 ^ 32 + s.rd lo = dst)

/-- Does the port take this tag? (R335) -/
def State.vidOk (s : State) (p : Nat) (v : Option Nat) : Bool :=
  match v with
  | none => true
  | some 0 => true
  | some v => (List.range 8).any fun k => s.is (vlanFld p k).1 && decide (s.rd (vlanFld p k).2 = v)

/-- Is the frame a PTP message that a tracker consumes, and does a tracker that does keep a copy? A Delay_Req is another
slave's, such as the other seat's, and passes (R336, R345, log entry 118). -/
def State.ptpTaken (s : State) (p : Nat) (b : Bytes) : Bool × Bool :=
  match ptpAt b [319, 320] with
  | none => (false, false)
  | some (o, udp) =>
    let m : PtpMsg := { domain := beAt b (o + 4) 1, vid := frameVid b, clock := 0, port := 0, seq := 0, correction := 0, body := .other }
    let takes := [0, 1].filter fun i => s.consumes i p m && decide (beAt b o 1 % 16 ≠ 1) && decide (udp.isSome = decide (s.rd (R.TSN_DOM_CTL_PROFILE i) = 1))
    (!takes.isEmpty, takes.any fun i => s.is (R.TSN_DOM_CTL_PTP_COPY i))

/-- Ingress timestamp in whole ns of plant time for an instant at the port (R339). -/
def State.ingressNs (s : State) (p : Nat) (x : Int) : Nat :=
  ux 64 ((s.tsn.corr.at_ x - (s.rd (R.TSN_PORT_ING_LAT p) : Int)) / 65536)

/-- A frame enters the next posted buffer of its receive ring, or is dropped; a halted ring writes nothing (R95, R111,
R336). -/
def State.deliver (s : State) (p : Nat) (b : Bytes) (x : Int) : State :=
  match s.postedOf (21 + p) with
  | [] => s.inc (R.TSN_PORT_DROP_NO_BUF p)
  | q :: _ =>
    if s.canDma && !s.is (R.HST_RING_STATE_HALTED (21 + p)) then
      let s := s.emit (.frameIn (q.desc.le 4 8) b)
      s.completePosted (21 + p) (s.ingressNs p x) 0 0 0 (b.length + 65536 * p)
    else s.inc (R.TSN_PORT_DROP_NO_BUF p)

/-- A frame that passes the filters: taken by a tracker, delivered, or both (R336, R345). -/
def State.takeFrame (s : State) (p : Nat) (body : Bytes) (x : Int) : State :=
  let k := s.ptpTaken p body
  if k.1 && !k.2 then s else s.deliver p body x

/-- The counters of a frame with a redundancy trailer: the wrong LAN, a full table (R338). -/
def State.takeTrailer (s : State) (p seq lan mac : Nat) : Bool × State :=
  let s := s.when (lan ≠ (if p = 0 then 0xA else 0xB)) fun s => s.inc R.TSN_PRP_STAT_WRONG_LAN
  let (dup, full, s) := s.prpSee mac seq
  (dup, s.when full fun s => s.inc R.TSN_PRP_STAT_TABLE_FULL)

/-- The trailer of a frame, where the port looks for one (R338). -/
def State.trailerOf (s : State) (b : Bytes) : Option (Nat × Nat) := if s.is R.TSN_PRP_CTL_EN then trailer b else none

/-- The frame without its trailer. -/
def State.bodyOf (s : State) (b : Bytes) : Bytes := if (s.trailerOf b).isSome then b.take (b.length - 6) else b

/-- Does a port's filter drop the frame? (R336) -/
def State.filtersOut (s : State) (p : Nat) (b : Bytes) : Bool :=
  decide (beAt b (typeAt b) 2 = 0x8808) || !s.destOk p (beAt b 0 6) || !s.vidOk p (frameVid b)

/-- A frame, without its FCS, arrives on port `p`; `x` is the instant of its timestamp point (R335, R336, R338). -/
def State.frameIn (s : State) (p : Nat) (b : Bytes) (fcs : Bool) (x : Int) : State :=
  let body := s.bodyOf b
  if !s.is (R.TSN_PORT_STAT_UP p) then s
  else if !fcs then s.inc (R.TSN_PORT_ERR_FCS p)
  else if body.length < 60 ∨ 1518 < body.length then s.inc (R.TSN_PORT_ERR_LENGTH p)
  else if s.filtersOut p b then s.inc (R.TSN_PORT_DROP_FILTERED p)
  else match s.trailerOf b with
    | none => s.takeFrame p body x
    | some (seq, lan) =>
      let (dup, s) := s.takeTrailer p seq lan (beAt b 6 6)
      if dup then s.inc R.TSN_PRP_STAT_DUP else s.takeFrame p body x

/-! ### Sending (R110, R337, R350 to R354) -/

/-- Launch time of a FRAME_TX descriptor. -/
def launchOf (d : Desc) : Nat := d.le 16 8

/-- What the fetch of a FRAME_TX decides (R110, Table 13.5). -/
def txOutcome (d : Desc) (frame : Bytes) (s : State) : Option (Nat × Nat) :=
  match fmtOutcome fmtFrameTx d s with
  | some r => some r
  | none =>
    let one := d.le 15 1 % 2 = 1
    if one && (oneStepType frame).isNone then some (6, 0x0901)
    else if one && d.le 14 1 = 2 then some (6, 0x0902)
    else if d.le 14 1 = 2 && !s.is R.TSN_PRP_CTL_EN then some (6, 0x0903)
    else if launchOf d ≠ 0 && decide (s.plantNs + 10000000000 < launchOf d) then some (6, 0x0904)
    else if launchOf d ≠ 0 && !s.timeValid then some (4, 0x0905)
    else none

/-- A FRAME_TX comes up in its ring. -/
def State.postTransmit (s : State) (r : Nat) (d : Desc) (frame : Bytes) : State :=
  s.post r 0xA0 d (frame.take (d.le 12 2)) (txOutcome d frame)

/-- Ports a frame goes out on: those it names that are UP. -/
def State.txPorts (s : State) (d : Desc) : List Nat :=
  (if d.le 14 1 = 2 then [0, 1] else [d.le 14 1]).filter fun p => s.is (R.TSN_PORT_STAT_UP p)

/-- Is launch queue `q` gated while the gate is closed? (R359) -/
def State.queueGated (s : State) (q : Nat) : Bool := s.bitOf R.RED_GATE_ETXQ q && !s.gateOpen

/-- Egress timestamp in 2^-16 ns of plant time (R339). -/
def State.egressPlant (s : State) (p : Nat) (x : Int) : Int := s.tsn.corr.at_ x + (s.rd (R.TSN_PORT_EGR_LAT p) : Int)

/-- The instant at which `n` bytes have left port `p` whose timestamp point passes at `e` (2^-16 ns): 0.8 ns a byte at
10GBASE-R, 8 ns at 1000BASE-X (Table 13.1). -/
def State.leaves (s : State) (p n : Nat) (e : Int) : Int :=
  e + (if s.is (R.TSN_PORT_STAT_SPEED p) then n * 524288 / 10 else n * 524288 : Nat)

/-- Bytes of a frame from its timestamp point on: with the PRP trailer it gets and its FCS. -/
def wireLength (d : Desc) (frame : Bytes) : Nat := frame.length + (if d.le 14 1 = 2 then 6 else 0) + 4

/-- Is a frame with launch time `t` due at `e`? -/
def dueBy (t : Nat) (e : Int) : Bool := decide (t = 0) || decide (65536 * (t : Int) ≤ e)

/-- Does the head of a queue with GUARD keep port `p` from a frame that would be sent at `e` and leave at `f`? A due
frame of a higher queue is not held back: `q` is none for the controller's own messages (R352). -/
def State.guarded (s : State) (q : Option Nat) (t p : Nat) (e f : Int) : Bool :=
  (List.range 8).any fun g =>
    match s.postedOf (13 + g) with
    | [] => false
    | h :: _ =>
      s.is (R.TSN_Q_CTL_GUARD g) && decide (q ≠ some g) && decide (launchOf h.desc ≠ 0) && (s.txPorts h.desc).contains p
        && decide (65536 * (launchOf h.desc : Int) < f) && !(q.any (fun k => decide (g < k)) && dueBy t e)

/-- Does a higher queue have a head frame due at `e` on port `p`, which starts first (R352)? -/
def State.outranked (s : State) (q p : Nat) (e : Int) : Bool :=
  (List.range 8).any fun g =>
    match s.postedOf (13 + g) with
    | [] => false
    | h :: _ =>
      decide (q < g) && (s.txPorts h.desc).contains p && dueBy (launchOf h.desc) e && !s.queueGated g
        && !s.guarded (some g) (launchOf h.desc) p e (s.leaves p (wireLength h.desc h.frame) e)

/-- Is the frame kept from port `p` at `e`, by contention or the guard (R352)? -/
def State.heldBack (s : State) (q : Nat) (h : Posted) (p : Nat) (e : Int) : Bool :=
  s.outranked q p e || s.guarded (some q) (launchOf h.desc) p e (s.leaves p (wireLength h.desc h.frame) e)

/-- The head frame of launch queue `q` reaches its launch time with its port free; `x` gives the instant, per port, at
which its timestamp point would pass (R350 to R353). A launch time ahead is waited for; a frame held back stays. -/
def State.launch (s : State) (q : Nat) (x : Nat → Int) : State :=
  let r := 13 + q
  match s.postedOf r with
  | [] => s
  | h :: _ =>
    let d := h.desc
    let t := launchOf d
    let ports := s.txPorts d
    let first := ports.headD 0
    let e0 := s.egressPlant first (x first)
    let early := decide (t ≠ 0) && decide (e0 < 65536 * (t : Int))
    let shift : Int := if early then 65536 * (t : Int) - e0 else 0
    let e := e0 + shift
    let late := decide (t ≠ 0) && decide (65536 * ((t : Int) + (s.rd (R.TSN_Q_CTL_LATE_WIN q) : Int)) < e)
    if s.queueGated q then s.completePosted r 0 4 0 4 0
    else if ports.isEmpty then s.completePosted r 0 4 0 0xB 0
    else if ports.any fun p => s.heldBack q h p (s.egressPlant p (x p) + shift) then s
    else if late && !s.is (R.TSN_Q_CTL_LATE_SEND q) then (s.inc (R.TSN_Q_STAT_LATE_DROPPED q)).completePosted r 0 4 0 0xA 0
    else
      let s := s.advanceByTicks ((x first + shift) / 131072).toNat
      let s := if late then s.inc (R.TSN_Q_STAT_LATE_SENT q) else s
      let pair := decide (d.le 14 1 = 2)
      let seq := s.tsn.prpSeq.toNat
      let s := each ports (fun s p =>
        let ep := s.egressPlant p (x p) + shift
        let f := if d.le 15 1 % 2 = 1 then oneStep h.frame ep else h.frame
        s.emit (.frameOut p (if pair then withTrailer f seq (0xA + p) else f) ep)) s
      let s := if pair then { s with tsn := { s.tsn with prpSeq := s.tsn.prpSeq + 1 } } else s
      s.completePosted r (if (d.le 15 1).testBit 1 then ux 64 (e / 65536) else 0) 0 (if late then 4 else 0) 0 0

/-- Bytes of tracker `i`'s own delay request from its timestamp point on, with its header, tag and FCS: 44 of Delay_Req
or 54 of Pdelay_Req in a frame of 60 at least (IEEE 1588-2019, 13.6 and 13.9; PRESUMED, log entry 118). -/
def State.requestLength (s : State) (i : Nat) : Nat :=
  let udp := if s.rd (R.TSN_DOM_CTL_PROFILE i) = 1 then 28 else 0
  let tag := if s.is (R.TSN_DOM_CTL_TAGGED i) then 4 else 0
  max 60 ((if s.peerDelay i then 54 else 44) + 14 + tag + udp) + 4

/-- Tracker `i` sends its own Delay_Req or Pdelay_Req on port `p`, with its timestamp point at instant `x` (R345). -/
def State.delayRequest (s : State) (i : Nat) (x : Int) (p : Nat) : State :=
  let e := s.egressPlant p x
  if !s.is (R.TSN_PORT_STAT_UP p) || s.guarded none 0 p e (s.leaves p (s.requestLength i) e) then s
  else
    let q := (s.tracker i).reqSeq
    let t3 := s.egress i p x
    let s := s.modTracker i fun t => { t with reqSeq := (q + 1) % 65536 }
    let s := s.modPtpLink i p fun l => { l with
      delayReq := some (q, t3)
      unanswered := if l.delayReq.isSome then l.unanswered + 1 else l.unanswered }
    s.emit (.ptpOut i p (if s.peerDelay i then 2 else 1) q 0)

/-- The tracker's interval timer: its own Delay_Req or Pdelay_Req on each of its ports (R345, R346); `x` is the instant
of egress. -/
def State.delaySend (s : State) (i : Nat) (x : Int) : State :=
  if s.trackersRun && s.is (R.TSN_DOM_CTL_EN i) && (s.peerDelay i || (s.tracker i).master.isSome) then
    each ([0, 1].filter fun p => (s.rd (R.TSN_DOM_CTL_PORTS i)).testBit p) (fun s p => s.delayRequest i x p) s
  else s

end Sys2Proof.Machine
end

