-- ==== Sys2Proof/Machine/Digest.lean ====
section
/-! DEFINITION. SHA-256, and the making and the check of an ECDSA P-256 signature, which the spec names for images, unlock responses and
records (R266, R407, R414, R419) and whose definitions are those of the standards FIPS 180-4 and FIPS 186-4 (log
entry 14). -/

set_option Elab.async false

namespace Sys2Proof.Machine

open Sys2Proof

/-! ### SHA-256 -/

/-- Round constants of SHA-256, part 0. -/
def shaK0 : List Word := [
  0x428A2F98, 0x71374491, 0xB5C0FBCF, 0xE9B5DBA5, 0x3956C25B, 0x59F111F1, 0x923F82A4, 0xAB1C5ED5,
  0xD807AA98, 0x12835B01, 0x243185BE, 0x550C7DC3, 0x72BE5D74, 0x80DEB1FE, 0x9BDC06A7, 0xC19BF174,
  0xE49B69C1, 0xEFBE4786, 0x0FC19DC6, 0x240CA1CC, 0x2DE92C6F, 0x4A7484AA, 0x5CB0A9DC, 0x76F988DA,
  0x983E5152, 0xA831C66D, 0xB00327C8, 0xBF597FC7, 0xC6E00BF3, 0xD5A79147, 0x06CA6351, 0x14292967]

/-- Round constants of SHA-256, part 1. -/
def shaK1 : List Word := [
  0x27B70A85, 0x2E1B2138, 0x4D2C6DFC, 0x53380D13, 0x650A7354, 0x766A0ABB, 0x81C2C92E, 0x92722C85,
  0xA2BFE8A1, 0xA81A664B, 0xC24B8B70, 0xC76C51A3, 0xD192E819, 0xD6990624, 0xF40E3585, 0x106AA070,
  0x19A4C116, 0x1E376C08, 0x2748774C, 0x34B0BCB5, 0x391C0CB3, 0x4ED8AA4A, 0x5B9CCA4F, 0x682E6FF3,
  0x748F82EE, 0x78A5636F, 0x84C87814, 0x8CC70208, 0x90BEFFFA, 0xA4506CEB, 0xBEF9A3F7, 0xC67178F2]

/-- Initial hash value of SHA-256. -/
def shaInit : List Word := [
  0x6A09E667, 0xBB67AE85, 0x3C6EF372, 0xA54FF53A, 0x510E527F, 0x9B05688C, 0x1F83D9AB, 0x5BE0CD19]

/-- Rotation right of a word. -/
def rotr (x : Word) (n : Nat) : Word := (x >>> n) ||| (x <<< (32 - n))

/-- The big-endian word at byte `i` of a message. -/
def beWord (b : Bytes) (i : Nat) : Word :=
  BitVec.ofNat 32 ((((b.getD i 0).toNat * 256 + (b.getD (i + 1) 0).toNat) * 256 + (b.getD (i + 2) 0).toNat) * 256
    + (b.getD (i + 3) 0).toNat)

/-- The message schedule, newest word first, extended by `n` words. -/
def shaExtend : Nat → List Word → List Word
  | 0, w => w
  | n + 1, w =>
    let a := w.getD 1 0
    let b := w.getD 14 0
    let s1 := rotr a 17 ^^^ rotr a 19 ^^^ (a >>> 10)
    let s0 := rotr b 7 ^^^ rotr b 18 ^^^ (b >>> 3)
    shaExtend n ((s1 + w.getD 6 0 + s0 + w.getD 15 0) :: w)

/-- One round on the working variables a to h. -/
def shaRound (v : List Word) (kw : Word × Word) : List Word :=
  match v with
  | [a, b, c, d, e, f, g, h] =>
    let s1 := rotr e 6 ^^^ rotr e 11 ^^^ rotr e 25
    let t1 := h + s1 + ((e &&& f) ^^^ (~~~e &&& g)) + kw.1 + kw.2
    let s0 := rotr a 2 ^^^ rotr a 13 ^^^ rotr a 22
    let t2 := s0 + ((a &&& b) ^^^ (a &&& c) ^^^ (b &&& c))
    [t1 + t2, a, b, c, d + t1, e, f, g]
  | _ => v

/-- One 64-byte block. -/
def shaBlock (h : List Word) (blk : Bytes) : List Word :=
  let w0 := ((List.range 16).map fun i => beWord blk (4 * i)).reverse
  let w := (shaExtend 48 w0).reverse
  List.zipWith (· + ·) h ((List.zip (shaK0 ++ shaK1) w).foldl shaRound h)

/-- The blocks of a padded message, `n` of them. -/
def shaBlocks : Nat → List Word → Bytes → List Word
  | 0, h, _ => h
  | n + 1, h, b => shaBlocks n (shaBlock h (b.take 64)) (b.drop 64)

/-- The `n` big-endian bytes of a number. -/
def beBytes (n v : Nat) : Bytes := (List.range n).map fun i => BitVec.ofNat 8 (v / 256 ^ (n - 1 - i))

/-- SHA-256 of a run of bytes. -/
def sha256 (b : Bytes) : Bytes :=
  let n := b.length
  let pad := (119 - n % 64) % 64
  let m := b ++ [0x80#8] ++ List.replicate pad 0 ++ beBytes 8 (8 * n)
  (shaBlocks (m.length / 64) shaInit m).flatMap fun w => beBytes 4 w.toNat

/-! ### ECDSA on P-256 -/

/-- The field prime. -/
def p256P : Nat := 2 ^ 256 - 2 ^ 224 + 2 ^ 192 + 2 ^ 96 - 1

/-- The order of the base point. -/
def p256N : Nat := 0xffffffff00000000ffffffffffffffffbce6faada7179e84f3b9cac2fc632551

/-- The coefficient b of the curve y² = x³ − 3x + b. -/
def p256B : Nat := 0x5ac635d8aa3a93e7b3ebbd55769886bc651d06b0cc53b0f63bce3c3e27d2604b

/-- The base point. -/
def p256G : Nat × Nat :=
  (0x6b17d1f2e12c4247f8bce6e563a440f277037d812deb33a0f4a13945d898c296,
   0x4fe342e2fe1a7f9b8ee7eb4a7c0f9e162bce33576b315ececbb6406837bf51f5)

/-- `a ^ e` modulo `m`, for exponents below 2^n. -/
def modPow (m : Nat) : Nat → Nat → Nat → Nat
  | 0, _, _ => 1 % m
  | n + 1, a, e =>
    let h := modPow m n (a * a % m) (e / 2)
    if e % 2 = 1 then h * a % m else h

/-- Inverse modulo a prime. -/
def modInv (m a : Nat) : Nat := modPow m 256 (a % m) (m - 2)

/-- A point in Jacobian coordinates: (x, y, z) stands for (x/z², y/z³), z = 0 for the point at infinity. -/
abbrev EcPoint := Nat × Nat × Nat

/-- Difference in the field. -/
def fieldSub (a b : Nat) : Nat := (a + (p256P - b % p256P)) % p256P

/-- Twice a point. -/
def ecDouble (q : EcPoint) : EcPoint :=
  let (x, y, z) := q
  let p := p256P
  let zz := z * z % p
  let yy := y * y % p
  let b := x * yy % p
  let a := 3 * fieldSub x zz * (x + zz) % p
  let x' := fieldSub (a * a) (8 * b)
  (x', fieldSub (a * fieldSub (4 * b) x') (8 * yy * yy), 2 * y * z % p)

/-- Sum of two points. -/
def ecAdd (q r : EcPoint) : EcPoint :=
  let (x1, y1, z1) := q
  let (x2, y2, z2) := r
  let p := p256P
  if z1 = 0 then r
  else if z2 = 0 then q
  else
    let u1 := x1 * (z2 * z2 % p) % p
    let u2 := x2 * (z1 * z1 % p) % p
    let s1 := y1 * (z2 * (z2 * z2 % p) % p) % p
    let s2 := y2 * (z1 * (z1 * z1 % p) % p) % p
    if u1 = u2 then (if s1 = s2 then ecDouble q else (1, 1, 0))
    else
      let h := fieldSub u2 u1
      let d := fieldSub s2 s1
      let hh := h * h % p
      let hhh := h * hh % p
      let v := u1 * hh % p
      let x := fieldSub (d * d) (hhh + 2 * v)
      (x, fieldSub (d * fieldSub v x) (s1 * hhh), h * z1 % p * z2 % p)

/-- `k` times a point, for `k` below 2^n. -/
def ecMul : Nat → Nat → EcPoint → EcPoint
  | 0, _, _ => (1, 1, 0)
  | n + 1, k, q =>
    let r := ecDouble (ecMul n (k / 2) q)
    if k % 2 = 1 then ecAdd r q else r

/-- The big-endian number of a run of bytes. -/
def beNat (b : Bytes) : Nat := b.foldl (fun a x => 256 * a + x.toNat) 0

/-- Does the 64-byte signature r, s of a message digest verify under the 64-byte key X, Y? -/
def ecdsaOk (key digest sig : Bytes) : Bool :=
  let x := beNat (key.take 32)
  let y := beNat ((key.drop 32).take 32)
  let r := beNat (sig.take 32)
  let t := beNat ((sig.drop 32).take 32)
  if x < p256P && y < p256P && decide (y * y % p256P = (x * x * x + (p256P - 3) * x + p256B) % p256P)
      && decide (0 < r ∧ r < p256N ∧ 0 < t ∧ t < p256N) then
    let w := modInv p256N t
    let u1 := beNat digest * w % p256N
    let u2 := r * w % p256N
    let (px, _, pz) := ecAdd (ecMul 256 u1 (p256G.1, p256G.2, 1)) (ecMul 256 u2 (x, y, 1))
    decide (pz ≠ 0) && decide (px * modInv p256P (pz * pz) % p256P % p256N = r)
  else false

/-- The signature r, s, each 32 bytes with the most significant first, of a message digest with a private key and the
number drawn for it (R266). -/
def ecdsaSign (key nonce : Nat) (digest : Bytes) : Bytes :=
  let (x, _, z) := ecMul 256 nonce (p256G.1, p256G.2, 1)
  let r := x * modInv p256P (z * z) % p256P % p256N
  beBytes 32 r ++ beBytes 32 (modInv p256N nonce * (beNat digest + r * key) % p256N)

end Sys2Proof.Machine
end

