-- ==== Sys2Proof/Machine/Pwm.lean ====
section
/-! DEFINITION. The PWM generator and the window comparators (R291 to R315): groups and loads, slot sources,
masks, trips and cuts, latches and trip lines, start-up, persistence, the watch of TOWPATH. -/

set_option Elab.async false

namespace Sys2Proof.Machine

open Sys2Proof

/-! ### Channels and groups -/

/-- PWM channels, in order. -/
def pwmAll : List Nat := List.range 48

/-- Group of channel `n`. -/
def State.pwmGroup (s : State) (n : Nat) : Nat := s.rd (R.PWM_CH_CFG_GROUP n)

/-- Is group `g` running? (R292) -/
def State.pwmRuns (s : State) (g : Nat) : Bool := s.is (R.PWM_GRP_STAT_RUNNING g)

/-- Members of group `g`. -/
def State.pwmMembers (s : State) (g : Nat) : List Nat := pwmAll.filter fun n => s.pwmGroup n = g

/-- Mask state at reset: a drive is STOPPED, its mask OFF (R325). -/
def maskReset (n : Nat) : Nat := if 36 ≤ n then 3 else 0

/-- Mask state of channel `n`: FREE where the mask does not apply (R300). -/
def State.pwmMask (s : State) (n : Nat) : Nat :=
  if s.is (R.PWM_CH_CFG_MASK_EN n) then SMap.get maskReset s.pwm.mask n else 0

/-- Phase in force. -/
def State.pwmPhase (s : State) (n : Nat) : Nat := SMap.get (fun _ => 0) s.pwm.phase n

/-- Does a condition of Table 11.3 hold the outputs of channel `n`? -/
def State.pwmHeld (s : State) (n : Nat) : Bool :=
  decide (s.power ≠ .run) || s.isSafe || s.onBackup 0 || s.is R.SYS_OVERLAY_PWM_MASKED || !s.is (R.PWM_CH_CFG_EN n)
    || !s.pwmRuns (s.pwmGroup n) || s.is (R.PWM_CH_STAT_CUT n) || s.is (R.PWM_CH_STAT_SLOT_LOST n) || decide (s.pwmMask n = 3)

/-- The outputs of a channel: high impedance, both low, or as the pattern forms them (Table 11.3). -/
inductive PwmOut where
  | hiZ | low | pattern
  deriving DecidableEq, Repr

/-- Outputs of channel `n` by condition (Table 11.3, R304). -/
def State.pwmOut (s : State) (n : Nat) : PwmOut :=
  if !s.gateOpen || decide (s.power = .off) || decide (s.power = .towpath) || decide (s.power = .boot) then .hiZ
  else if s.pwmHeld n || !s.pwm.on.contains n then .low
  else .pattern

/-- Position of unit `u` of the period in the interval of channel `n`, in 125 ps, and the interval's length (R293). -/
def State.pwmPlace (s : State) (n u : Nat) : Nat × Nat × Nat :=
  let t := 16 * s.rd (R.PWM_GRP_STAT_PERIOD (s.pwmGroup n))
  let d := s.rd (R.PWM_CH_NOW_DUTY n)
  let a : Int := 16 * (s.pwmPhase n : Int) - (if s.is (R.PWM_CH_CFG_ALIGN n) then ((d / 2 : Nat) : Int) else 0)
  ((((u : Int) - a) % (t : Int)).toNat, d, t)

/-- The raw signal at unit `u` of the period, after the mask (R293, R300). -/
def State.pwmRaw (s : State) (n u : Nat) : Bool :=
  let (o, d, _) := s.pwmPlace n u
  if s.pwmMask n = 1 then true else if s.pwmMask n = 2 then false else decide (o < d)

/-- HI at unit `u` of a period that no cut or change disturbs: on DT after the rising edge (R294). -/
def State.pwmHi (s : State) (n u : Nat) : Bool :=
  let (o, d, t) := s.pwmPlace n u
  decide (s.pwmOut n = .pattern) &&
    (if s.pwmMask n = 0 then decide (d = t) || (decide (s.rd (R.PWM_CH_DT_DT n) ≤ o) && decide (o < d)) else decide (s.pwmMask n = 1))

/-- LO at unit `u`, likewise (R294). -/
def State.pwmLo (s : State) (n u : Nat) : Bool :=
  let (o, d, t) := s.pwmPlace n u
  decide (s.pwmOut n = .pattern) && s.is (R.PWM_CH_CFG_LO_EN n) &&
    (if s.pwmMask n = 0 then decide (d = 0) || (decide (d + s.rd (R.PWM_CH_DT_DT n) ≤ o) && decide (o < t)) else decide (s.pwmMask n = 2))

/-- The outputs of channel `n` are low until its group's next boundary (R304). -/
def State.pwmOff (s : State) (n : Nat) : State := { s with pwm := { s.pwm with on := s.pwm.on.filter (· ≠ n) } }

/-- The same for every channel. -/
def State.pwmOffAll (s : State) : State := { s with pwm := { s.pwm with on := [] } }

/-- ACTIVE of channel `n` shown (Table 11.8). -/
def State.showChannel (s : State) (n : Nat) : State :=
  let a := s.is (R.PWM_CH_CFG_EN n) && s.pwmRuns (s.pwmGroup n)
  let s := s.wrB (R.PWM_CH_STAT_ACTIVE n) a
  let s := s.wrB (R.PWM_CH_STAT_MASKED n) (decide (s.pwmMask n ≠ 0))
  if s.pwmHeld n then s.pwmOff n else s

/-- The members of a group shown. -/
def State.showGroup (s : State) (g : Nat) : State := each (s.pwmMembers g) State.showChannel s

/-! ### Loads (R295 to R299) -/

/-- Lost or recovered slot at a load (R299). -/
def State.loadSlotLost (s : State) (n : Nat) : State :=
  let lost := decide (s.rd (R.PWM_CH_CFG_SRC n) = 1) && s.pwm.lost.contains n
  if lost && !s.is (R.PWM_CH_STAT_SLOT_LOST n) then
    (((s.wrB (R.PWM_CH_STAT_SLOT_LOST n) true).setActive 0x0C1 true).event 6 2 [(16, 1, n), (17, 1, 1)]).raise 0x0C1 n
  else if !lost && s.is (R.PWM_CH_STAT_SLOT_LOST n) then
    let s := (s.wrB (R.PWM_CH_STAT_SLOT_LOST n) false).event 6 2 [(16, 1, n), (17, 1, 0)]
    s.setActive 0x0C1 (pwmAll.any fun m => s.is (R.PWM_CH_STAT_SLOT_LOST m))
  else s

/-- Load of one member with the period being loaded: clamped, reported (R297). -/
def State.loadChannel (s : State) (n period : Nat) : State :=
  let d := s.rd (R.PWM_CH_DUTY_DUTY n)
  let p := s.rd (R.PWM_CH_PHASE_PHASE n)
  let cd := decide (period * 16 < d)
  let cp := decide (period ≤ p)
  let s := s.wr (R.PWM_CH_NOW_DUTY n) (min d (period * 16))
  let s := { s with pwm := { s.pwm with phase := SMap.put (fun _ => 0) s.pwm.phase n (min p (period - 1)) } }
  let s :=
    if cd || cp then
      ((s.wrB (R.PWM_CH_STAT_CLAMPED n) true).event 6 1 [(16, 1, n), (17, 1, s.pwmGroup n),
        (18, 1, (if cd then 1 else 0) + (if cp then 2 else 0))]).raise 0x0C0 n
    else s
  s.loadSlotLost n

/-- The load of group `g`: staged values of the group and every member together (R295). -/
def State.loadGroup (s : State) (g : Nat) : State :=
  let p := s.rd (R.PWM_GRP_CTL_PERIOD g)
  let s := (s.wr (R.PWM_GRP_STAT_PERIOD g) p).wrB (R.PWM_GRP_STAT_ARMED g) false
  each (s.pwmMembers g) (fun s n => s.loadChannel n p) s

/-- Arm a load of group `g`; a group that does not run loads at once (R295). -/
def State.armGroup (s : State) (g : Nat) : State :=
  if s.pwmRuns g then s.wrB (R.PWM_GRP_STAT_ARMED g) true else s.loadGroup g

/-- A write of PWM_LOAD (R295). -/
def State.pwmLoad (s : State) (v : Word) : State :=
  each ((List.range 8).filter fun g => v.getLsbD g) State.armGroup s

/-- After a write of PWM_GRP_CTLg: EN 0 stops the counter at once, EN 1 waits for the next APPLY mark (R292). -/
def State.grpWritten (s : State) (g : Nat) : State :=
  if s.is (R.PWM_GRP_CTL_EN g) || !s.pwmRuns g then s
  else
    let s := s.wrB (R.PWM_GRP_STAT_RUNNING g) false
    let s := if s.is (R.PWM_GRP_STAT_ARMED g) then s.loadGroup g else s
    s.showGroup g

/-- A staged write: what it stages, and LATE when it came in the same TB clock as the load (R296). A host write of
the duty of a channel whose SRC is not HOST is discarded (R298). -/
def State.stagedWrite (s : State) (t : Staged) (v : Word) (late : Bool) (q : Requester := byHost) : State :=
  match t with
  | .period g =>
    let f := R.PWM_GRP_CTL_PERIOD g
    s.hostWrite (q := q) f.off (f.put (s.reg f.off) v.toNat) fun s => if late then s.wrB (R.PWM_GRP_STAT_LATE g) true else s
  | .duty n =>
    if s.decodes (R.PWM_CH_DUTY_DUTY n).off && decide (s.rd (R.PWM_CH_CFG_SRC n) ≠ 0) then s.wakeLink q
    else s.hostWrite (q := q) (R.PWM_CH_DUTY_DUTY n).off v fun s => if late then s.wrB (R.PWM_CH_STAT_LATE n) true else s
  | .phase n =>
    s.hostWrite (q := q) (R.PWM_CH_PHASE_PHASE n).off v fun s => if late then s.wrB (R.PWM_CH_STAT_LATE n) true else s

/-- Is the slot of channel `n` lost at this read? (R299) -/
def State.pwmSlotLost (s : State) (n : Nat) : Bool :=
  let i := s.rd (R.PWM_CH_CFG_SLOT n)
  !s.slotGood i || decide (1 < s.slotAge i)

/-- Channel `n` staged from its slot (R298, R299). -/
def State.stageSlot (s : State) (n : Nat) : State :=
  let i := s.rd (R.PWM_CH_CFG_SLOT n)
  let g := s.pwmGroup n
  let s := { s with pwm := { s.pwm with
    lost := (if s.pwmSlotLost n then n :: s.pwm.lost.filter (· ≠ n) else s.pwm.lost.filter (· ≠ n))
    armNext := (if s.pwm.armNext.contains g then s.pwm.armNext else g :: s.pwm.armNext) } }
  if s.pwm.lost.contains n then s
  else
    let x := s.slotValue i
    let y := fClamp 0#32 0x3F800000#32 x
    let s := if fLt x 0#32 || fLt 0x3F800000#32 x then s.wrB (R.PWM_CH_STAT_CLAMPED n) true else s
    s.wr (R.PWM_CH_DUTY_DUTY n) (fScaleRound y (16 * s.rd (R.PWM_GRP_CTL_PERIOD g)) 1).toNat

/-- Every channel with SRC SLOT staged at the end of the compute window (R298). -/
def State.stageSlots (s : State) : State :=
  each (pwmAll.filter fun n => s.rd (R.PWM_CH_CFG_SRC n) = 1) State.stageSlot s

/-- A write of PWM_CH_CFG (other than EN) or PWM_CH_DT (`dtWrite`) while EN is 1 is discarded (R304): `before` is the
state that the write found. -/
def State.channelWritten (s : State) (before : State) (n : Nat) (dtWrite : Bool) : State :=
  let cfg := (R.PWM_CH_CFG_EN n).off
  let dt := (R.PWM_CH_DT_DT n).off
  let bad := before.is (R.PWM_CH_CFG_EN n) &&
    (dtWrite || decide (Fld.put ⟨cfg, 31, 1⟩ (s.reg cfg) 0 ≠ Fld.put ⟨cfg, 31, 1⟩ (before.reg cfg) 0))
  let s := if bad then
      ((s.setReg cfg ((R.PWM_CH_CFG_EN n).put (before.reg cfg) (s.rd (R.PWM_CH_CFG_EN n)))).setReg dt (before.reg dt)).raise 0x0C2 n
    else s
  -- outside channels 36 to 47 MASK_EN is a reserved bit (Table 11.7)
  (if n < 36 then s.wrB (R.PWM_CH_CFG_MASK_EN n) false else s).showChannel n

/-- A drive sets the mask state of channel `n` (R300). -/
def State.setMask (s : State) (n m : Nat) : State :=
  ({ s with pwm := { s.pwm with mask := SMap.put maskReset s.pwm.mask n m } }).showChannel n

/-! ### Trips (R301 to R303) -/

/-- Does channel `n` select an input that is asserted now? -/
def State.pwmTripped (s : State) (n : Nat) : Bool :=
  decide (s.rd (R.PWM_CH_TRIP_LINES n) &&& s.rd R.CMP_LINE_STAT_ASSERTED ≠ 0) ||
    decide (s.rd (R.PWM_CH_TRIP_TRIP_IN n) &&& s.rd R.PWM_TRIPIN_LEVEL ≠ 0)

/-- A cut of channel `n` (R302). -/
def State.cutChannel (s : State) (n : Nat) : State :=
  if s.is (R.PWM_CH_STAT_CUT n) then s
  else (((s.wrB (R.PWM_CH_STAT_CUT n) true).wrB (R.PWM_CH_STAT_TRIPPED n) true).inc (R.PWM_CH_STAT_CUT_CNT n)).pwmOff n

/-- Cut every channel that selects an asserted input (R302). -/
def State.cutAll (s : State) : State := each (pwmAll.filter s.pwmTripped) State.cutChannel s

/-- A cut in force sets TRIPPED again (R11). -/
def State.keepTripped (s : State) (n : Nat) : State :=
  if s.is (R.PWM_CH_STAT_CUT n) then s.wrB (R.PWM_CH_STAT_TRIPPED n) true else s

/-- Has trip input `key` been deasserted for 1 ms? (R303) -/
def State.quietLong (s : State) (key : Nat) : Bool :=
  decide (SMap.get (fun _ => 0) s.pwm.offAt key + 500000 ≤ s.tsn.local_)

/-- The state with the deassertion of trip input `key` noted. -/
def State.noteOff (s : State) (key : Nat) : State :=
  { s with pwm := { s.pwm with offAt := SMap.put (fun _ => 0) s.pwm.offAt key s.tsn.local_ } }

/-- The external inputs re-evaluated: LEVEL, SEEN, which stays while the input is asserted (R11), "external trip", cuts
(R301 to R303). -/
def State.readTripIn (s : State) : State :=
  let s := each (List.range 8) (fun s n =>
    let now := s.pwm.pins.getLsbD n && s.bitOf R.PWM_TRIPIN_EN n
    let was := s.bitOf R.PWM_TRIPIN_LEVEL n
    let s := s.wrBit R.PWM_TRIPIN_LEVEL n now
    let s := if now then s.wrBit R.PWM_TRIPIN_SEEN n true else s
    if now && !was then
      if s.quietLong (16 + n) then s.raise 0x0C3 n else s
    else if !now && was then s.noteOff (16 + n)
    else s) s
  (s.setActive 0x0C3 (decide (s.rd R.PWM_TRIPIN_LEVEL ≠ 0))).cutAll

/-- `TRIP_INn` changes: `low` is its level now (R301). -/
def State.tripPin (s : State) (n : Nat) (low : Bool) : State :=
  let m := BitVec.ofNat 8 (2 ^ n)
  ({ s with pwm := { s.pwm with pins := (if low then s.pwm.pins ||| m else s.pwm.pins &&& ~~~m) } }).readTripIn

/-! ### Comparators (R305 to R312) -/

/-- Comparator channels, in order. -/
def cmpAll : List Nat := List.range 64

/-- Comparator channel beside its registers. -/
def State.cmpCh (s : State) (c : Nat) : CmpCh := SMap.get (fun _ => {}) s.cmp.chans c

/-- The state with comparator channel `c` changed. -/
def State.modCmp (s : State) (c : Nat) (f : CmpCh → CmpCh) : State :=
  { s with cmp := { s.cmp with chans := SMap.put (fun _ => {}) s.cmp.chans c (f (s.cmpCh c)) } }

/-- Does SENSE select the comparator? (R306) -/
def State.senses (s : State) (c : Nat) (hi : Bool) : Bool :=
  let x := s.rd (R.CMP_CH_CFG_SENSE c)
  if hi then x % 2 = 1 else x / 2 = 1

/-- Register fields of a side of channel `c`. -/
def cmpRaw (c : Nat) (hi : Bool) : Fld := if hi then R.CMP_CH_STAT_RAW_HI c else R.CMP_CH_STAT_RAW_LO c
/-- The latch bit of a side. -/
def cmpLatch (c : Nat) (hi : Bool) : Fld := if hi then R.CMP_CH_STAT_LATCH_HI c else R.CMP_CH_STAT_LATCH_LO c
/-- The unresolved bit of a side. -/
def cmpUnres (c : Nat) (hi : Bool) : Fld := if hi then R.CMP_CH_STAT_UNRES_HI c else R.CMP_CH_STAT_UNRES_LO c

/-- Does the channel's assertion stand now: a selected comparator asserts? -/
def State.cmpAsserts (s : State) (c : Nat) : Bool :=
  (s.senses c true && s.is (cmpRaw c true)) || (s.senses c false && s.is (cmpRaw c false))

/-- Is channel `c` powered: it has EN, and in TOWPATH it watches (R312)? -/
def State.cmpLive (s : State) (c : Nat) : Bool :=
  s.is (R.CMP_CH_CFG_EN c) && (match s.cmp.watch with | none => true | some w => w.getLsbD c)

/-- Does channel `c` work as LATCH 1 now? (R310, R312) -/
def State.cmpPeriodic (s : State) (c : Nat) : Bool :=
  s.is (R.CMP_CH_CFG_LATCH c) && s.cmp.watch.isNone && s.pwmRuns (s.pwmGroup (s.rd (R.CMP_CH_BLANK_REF_CH c)))

/-- A channel's output: its latch, its unresolved level, or its held level (R310). -/
def State.cmpOut (s : State) (c : Nat) : Bool :=
  s.is (cmpLatch c true) || s.is (cmpLatch c false) || s.is (R.CMP_CH_STAT_ESCALATED c) || (s.cmpCh c).invalid
    || (s.cmpLive c && s.is (R.CMP_CH_CFG_PU_LEVEL c) &&
      ((s.senses c true && s.is (cmpUnres c true)) || (s.senses c false && s.is (cmpUnres c false))))

/-- Is trip line `k` driven? (R310) -/
def State.lineDriven (s : State) (k : Nat) : Bool :=
  cmpAll.any fun c => s.is (R.CMP_CH_CFG_LINE_EN c) && decide (s.rd (R.CMP_CH_CFG_LINE c) = k) && s.is (R.CMP_CH_STAT_OUT c)

/-- The trip lines re-evaluated: ASSERTED, "comparator trip", cuts (R302, R303, R310). -/
def State.showLines (s : State) : State :=
  let s := each (List.range 16) (fun s k =>
    let now := s.lineDriven k
    let was := s.bitOf R.CMP_LINE_STAT_ASSERTED k
    let s := s.wrBit R.CMP_LINE_STAT_ASSERTED k now
    if now && !was then (if s.quietLong k then s.raise 0x0E0 k else s)
    else if !now && was then s.noteOff k
    else s) s
  (s.setActive 0x0E0 (decide (s.rd R.CMP_LINE_STAT_ASSERTED ≠ 0))).cutAll

/-- A latch still set, on a channel with LINE_EN, sets LATCHED of its line again (R11). -/
def State.keepLatched (s : State) : State :=
  each (cmpAll.filter fun c => s.is (R.CMP_CH_CFG_LINE_EN c) && (s.is (cmpLatch c true) || s.is (cmpLatch c false)))
    (fun s c => s.wrBit R.CMP_LINE_STAT_LATCHED (s.rd (R.CMP_CH_CFG_LINE c)) true) s

/-- Channels `cs` shown: OUT, then the lines; the cause of "comparator trip persistent" (R311). -/
def State.showCmp (s : State) (cs : List Nat) : State :=
  let s := each cs (fun s c => s.wrB (R.CMP_CH_STAT_OUT c) (s.cmpOut c)) s
  let s := s.setActive 0x0E2 (cmpAll.any fun c => s.is (R.CMP_CH_STAT_ESCALATED c) && s.cmpAsserts c)
  s.showLines

/-- A watch crossing (R312). -/
def State.watchCross (s : State) (c : Nat) (hi lo : Bool) : State :=
  let s := if c < 32 then s.wrBit R.CMP_WATCH_STAT_LO c true else s.wrBit R.CMP_WATCH_STAT_HI (c - 32) true
  let s := (s.event 7 2 [(16, 1, c), (17, 1, (if hi then 1 else 0) + (if lo then 2 else 0))]).raise 0x0E1 c
  if s.is R.SYS_PWR_CTL_WAKE_CMP then { s with sys := { s.sys with follow := some .hold } } else s

/-- Set a latch of channel `c` (R310); in TOWPATH it is a watch crossing. -/
def State.setLatchOf (s : State) (c : Nat) (hi : Bool) : State :=
  if s.is (cmpLatch c hi) then s
  else
    let s := ((s.wrB (cmpLatch c hi) true).inc (R.CMP_CH_STAT_TRIP_CNT c)).modCmp c fun x => { x with tripped := true }
    let s := if s.is (R.CMP_CH_CFG_LINE_EN c) then s.wrBit R.CMP_LINE_STAT_LATCHED (s.rd (R.CMP_CH_CFG_LINE c)) true else s
    if s.cmp.watch.isSome then s.watchCross c hi (!hi) else s

/-- A side of channel `c` reports `on`: RAW, and the latch on an assertion that is not blanked (R310). In TOWPATH
blanking is suspended (R312); an escalated channel no longer follows its input (R311). -/
def State.cmpSide (s : State) (c : Nat) (hi on blanked : Bool) : State :=
  if s.is (cmpUnres c hi) then s
  else
    let s := s.wrB (cmpRaw c hi) on
    if on && s.senses c hi && !s.is (R.CMP_CH_STAT_ESCALATED c) && (!blanked || s.cmp.watch.isSome) then s.setLatchOf c hi else s

/-- The comparators of channel `c` change: what each asserts now, and whether a blanking window is open (R306 to
R310). -/
def State.cmpChange (s : State) (c : Nat) (hi lo blanked : Bool) : State :=
  if s.cmpLive c then ((s.cmpSide c true hi blanked).cmpSide c false lo blanked).showCmp [c] else s

/-- A comparator resolves (R308). -/
def State.cmpResolve (s : State) (c : Nat) (hi on blanked : Bool) : State :=
  if s.cmpLive c && s.is (cmpUnres c hi) then ((s.wrB (cmpUnres c hi) false).cmpSide c hi on blanked).showCmp [c] else s

/-- Is the setting of channel `c` invalid? (R306) -/
def State.cmpBad (s : State) (c : Nat) : Bool :=
  s.is (R.CMP_CH_CFG_EN c) &&
    (decide (s.rd (R.CMP_CH_CFG_SENSE c) = 0) || decide (47 < s.rd (R.CMP_CH_BLANK_REF_CH c)) ||
      (decide (s.rd (R.CMP_CH_CFG_SENSE c) = 3) &&
        !decide (s.rd (R.CMP_CH_THR_LO c) + 2 * s.rd (R.CMP_CH_CFG_HYST c) < s.rd (R.CMP_CH_THR_HI c))))

/-- The setting of channel `c` judged (R306). -/
def State.judgeCmp (s : State) (c : Nat) : State :=
  let bad := s.cmpBad c
  let was := (s.cmpCh c).invalid
  let s := s.modCmp c fun x => { x with invalid := bad }
  let s := if bad && !was then s.raise 0x0E3 c else s
  if bad ≠ was then s.setActive 0x0E3 (cmpAll.any fun c => (s.cmpCh c).invalid) else s

/-- The start-up rule: both comparators unresolved (R308). -/
def State.cmpStart (s : State) (c : Nat) : State :=
  each [true, false] (fun s hi => (s.wrB (cmpUnres c hi) true).wrB (cmpRaw c hi) false) s

/-- Every enabled channel judged and started, as at the application of the settings (R306, R308). -/
def State.cmpStartAll (s : State) : State :=
  let s := each cmpAll State.judgeCmp s
  (each (cmpAll.filter s.cmpLive) State.cmpStart s).showCmp cmpAll

/-- After a write of a setting of channel `c`: judged; started when EN became 1 (R308). -/
def State.cmpWritten (s : State) (before : State) (c : Nat) : State :=
  let s := s.judgeCmp c
  let s := if s.is (R.CMP_CH_CFG_EN c) && !before.is (R.CMP_CH_CFG_EN c) then s.cmpStart c else s
  s.showCmp [c]

/-- A write of CMP_REARM: escalated channels re-arm unless "comparator trip persistent" is set (R311). -/
def State.cmpRearm (s : State) (base : Nat) (v : Word) : State :=
  if s.latched 0x0E2 then s
  else
    let cs := (List.range 32).filter fun i => v.getLsbD i && s.is (R.CMP_CH_STAT_ESCALATED (base + i))
    let s := each cs (fun s i =>
      ((s.wrB (R.CMP_CH_STAT_ESCALATED (base + i)) false).wr (R.CMP_CH_STAT_PERSIST_CNT (base + i)) 0).cmpStart (base + i)) s
    if cs.isEmpty then s else s.showCmp (cs.map (base + ·))

/-- Release a latch if the comparator's assertion is absent or blanked (R310). -/
def State.releaseLatch (s : State) (c : Nat) (hi blanked : Bool) : State :=
  if s.is (cmpRaw c hi) && !blanked then s else s.wrB (cmpLatch c hi) false

/-- A host write of 1 to latch bits of channel `c`; every other bit of the register is read-only (R310). -/
def State.latchWrite (s : State) (c : Nat) (v : Word) (blanked : Bool) : State :=
  let b := blanked && s.cmp.watch.isNone
  let s := if v.getLsbD 1 then s.releaseLatch c true b else s
  let s := if v.getLsbD 2 then s.releaseLatch c false b else s
  s.showCmp [c]

/-- The end of a period for a LATCH 1 channel: persistence counted, escalation, then the release (R310, R311). A
channel that has escalated is disabled and counts no more. `blank` tells whether a window opened by an edge is open; a
boundary window opens at the boundary itself (R309). -/
def State.cmpPeriodEnd (s : State) (c : Nat) (blank : Bool) : State :=
  let b := blank || ((s.rd (R.CMP_CH_BLANK_EVENTS c)).testBit 4 && decide (s.rd (R.CMP_CH_BLANK_LEN c) ≠ 0))
  let s := if s.is (R.CMP_CH_STAT_ESCALATED c) then s
    else if (s.cmpCh c).tripped then s.inc (R.CMP_CH_STAT_PERSIST_CNT c) else s.wr (R.CMP_CH_STAT_PERSIST_CNT c) 0
  let n := s.rd R.CMP_CTL_PERSIST_N
  let s :=
    if decide (n ≠ 0) && decide (n ≤ s.rd (R.CMP_CH_STAT_PERSIST_CNT c)) && !s.is (R.CMP_CH_STAT_ESCALATED c) then
      ((s.wrB (R.CMP_CH_STAT_ESCALATED c) true).event 7 1 [(16, 1, c), (17, 1, s.rd (R.CMP_CH_CFG_LINE c))]).raise 0x0E2 c
    else s
  let s := (s.releaseLatch c true b).releaseLatch c false b
  s.modCmp c fun x => { x with tripped := s.is (cmpLatch c true) || s.is (cmpLatch c false) }

/-- The restart step of a channel at a boundary: CUT cleared when every selected input is deasserted, outputs resume
when nothing holds them (R302, R304). -/
def State.pwmRestart (s : State) (n : Nat) : State :=
  let s := if s.is (R.PWM_CH_STAT_CUT n) && !s.pwmTripped n then s.wrB (R.PWM_CH_STAT_CUT n) false else s
  if s.pwmHeld n || s.pwm.on.contains n then s else { s with pwm := { s.pwm with on := n :: s.pwm.on } }

/-- A period boundary of group `g`: the load where one is due, the latches that end here, then the restart (R302). -/
def State.pwmBoundary (s : State) (g : Nat) (load : Bool) (blank : BitVec 64) : State :=
  let s := if load && s.is (R.PWM_GRP_STAT_ARMED g) then s.loadGroup g else s
  let cs := cmpAll.filter fun c =>
    s.is (R.CMP_CH_CFG_EN c) && s.cmpPeriodic c && decide (s.pwmGroup (s.rd (R.CMP_CH_BLANK_REF_CH c)) = g)
  let s := each cs (fun s c => s.cmpPeriodEnd c (blank.getLsbD c)) s
  let s := if cs.isEmpty then s else s.showCmp cs
  each (s.pwmMembers g) State.pwmRestart s

/-- The counter of group `g` wraps at PERIOD (R292, R295). -/
def State.pwmWrap (s : State) (g : Nat) (blank : BitVec 64) : State :=
  if s.pwmRuns g then s.pwmBoundary g (!s.is (R.PWM_GRP_CTL_SYNC g)) blank else s

/-- Group `g` at an APPLY mark: a load armed from slots, the start of a group, the forced boundary of APPLY mode (R292,
R295, R298). -/
def State.groupApply (s : State) (g : Nat) : State :=
  let s := if s.pwm.armNext.contains g then s.armGroup g else s
  if !s.pwmRuns g then
    if s.is (R.PWM_GRP_CTL_EN g) then
      let s := s.wrB (R.PWM_GRP_STAT_RUNNING g) true
      each (s.pwmMembers g) State.pwmRestart (s.showGroup g)
    else s
  else if s.is (R.PWM_GRP_CTL_SYNC g) then
    let p := 2 * s.rd (R.PWM_GRP_STAT_PERIOD g)
    let s := if decide (p ≠ 0) && decide (s.periodNs % p ≠ 0) then s.wrB (R.PWM_GRP_STAT_TRUNC g) true else s
    s.pwmBoundary g true 0
  else s

/-- Every group at an APPLY mark. -/
def State.pwmApply (s : State) : State :=
  let s := each (List.range 8) State.groupApply s
  { s with pwm := { s.pwm with armNext := [] } }

/-- The comparators on entry to TOWPATH: the chosen channels watch, the others are powered down (R308, R312). -/
def State.cmpWatch (s : State) : State :=
  let w := BitVec.ofNat 64 (s.rd R.CMP_WATCH_LO + 2 ^ 32 * s.rd R.CMP_WATCH_HI)
  let s := { s with cmp := { s.cmp with watch := some w } }
  (each (cmpAll.filter s.cmpLive) State.cmpStart s).showCmp cmpAll

/-- The comparators on exit from TOWPATH (R308, R312). -/
def State.cmpUnwatch (s : State) : State :=
  let s := { s with cmp := { s.cmp with watch := none } }
  (each (cmpAll.filter s.cmpLive) State.cmpStart s).showCmp cmpAll

end Sys2Proof.Machine
end

