-- ==== Sys2Proof/Machine/AuxDrive.lean ====
section
/-! DEFINITION. The auxiliary machine drives (R316 to R332): set-up checks, states and commands, the decision
of a period, braking limits, catching, loss of the rotor. The values a drive keeps are formed from exact quantities;
where the spec states no rounding the value kept is free (log entry 12). -/

set_option Elab.async false

namespace Sys2Proof.Machine

open Sys2Proof

/-- Drive `d` beside its registers. -/
def State.drive (s : State) (d : Nat) : DriveSt := SMap.get (fun _ => {}) s.aux.drives d

/-- The state with drive `d` changed. -/
def State.modDrive (s : State) (d : Nat) (f : DriveSt → DriveSt) : State :=
  { s with aux := { s.aux with drives := SMap.put (fun _ => {}) s.aux.drives d (f (s.drive d)) } }

/-- Drive states (Table 12.4). -/
inductive Drive where
  | stopped | aligning | catching | running | stopping | coasting | fault
  deriving DecidableEq, Repr

/-- STATE encoding (Table 12.4). -/
def Drive.code : Drive → Nat
  | .stopped => 0 | .aligning => 1 | .catching => 2 | .running => 3 | .stopping => 4 | .coasting => 5 | .fault => 6

/-- State of an encoding. -/
def Drive.ofCode : Nat → Drive
  | 1 => .aligning | 2 => .catching | 3 => .running | 4 => .stopping | 5 => .coasting | 6 => .fault | _ => .stopped

/-- State of drive `d`. -/
def State.driveState (s : State) (d : Nat) : Drive := Drive.ofCode (s.rd (R.AUX_STAT_STATE d))

/-- Channels of drive `d` (R316). -/
def driveChannels (d : Nat) : List Nat := [36 + 3 * d, 37 + 3 * d, 38 + 3 * d]

/-- The value kept for an exact quantity (log entry 12). -/
def drv (q : Rat) : F32 := if fRat (fOfRat q) = q then fOfRat q else Config.driveVal q

/-- Square root, exact where it is a square of what binary32 holds. -/
def drvRoot (q : Rat) : F32 := if fRat (fSqrt q) * fRat (fSqrt q) = q then fSqrt q else Config.driveRoot q

/-- A time in s as whole units of `n` per second. -/
def drvUnits (q : Rat) (n : Nat) : Nat :=
  let x := q * (n : Rat)
  let k := x.floor.toNat
  if ((k : Nat) : Rat) = x then k else if Config.driveUp q then k + 1 else k

/-- The nearest whole number of units; of two equally near ones the model leaves open which. -/
def drvNearest (q : Rat) : Nat :=
  let k := q.floor.toNat
  let r := q - (k : Rat)
  if r < 1 / 2 then k else if 1 / 2 < r then k + 1 else if Config.driveUp q then k + 1 else k

/-- Mask of the three channels of drive `d`. -/
def State.driveMask (s : State) (d m : Nat) : State := each (driveChannels d) (fun s n => s.setMask n m) s

/-- A change of state: AUX_STATE with its cause, the mask of Table 12.4 (R325). -/
def State.setDrive (s : State) (d : Nat) (x : Drive) (cause : Nat) : State :=
  let old := s.driveState d
  if old = x then s
  else
    let s := s.wr (R.AUX_STAT_STATE d) x.code
    let s := s.modDrive d fun v => { v with since := s.tsn.local_ }
    let s := s.event 8 1 [(16, 1, d), (17, 1, old.code), (18, 1, x.code), (19, 1, cause)]
    let s := s.driveMask d (if x = .running || x = .stopping || x = .aligning then 0 else 3)
    if x = .stopped then
      (s.wr (R.AUX_STAT_RECATCH_CNT d) 0).modDrive d fun v => { since := v.since, ref := v.ref, ramp := v.ramp }
    else s

/-- Is the drive STOPPED or in FAULT? (Table 3.17) -/
def State.driveStill (s : State) (d : Nat) : Bool :=
  decide (s.driveState d = .stopped) || decide (s.driveState d = .fault)

/-- "No auxiliary drive turning" (R326). -/
def State.noDriveTurns (s : State) : Bool := [0, 1, 2, 3].all s.driveStill

/-! ### Commands (R317, R326) -/

/-- The set-up that AUX_RUN needs (R317). -/
def State.driveReady (s : State) (d : Nat) : Bool :=
  let cs := driveChannels d
  let g := s.pwmGroup (36 + 3 * d)
  let p := s.rd (R.PWM_GRP_STAT_PERIOD g)
  let sh := s.rd (R.AUX_SRC_SHUNT d)
  (cs.all fun n => s.is (R.PWM_CH_CFG_EN n) && decide (s.rd (R.PWM_CH_CFG_SRC n) = 2) && s.is (R.PWM_CH_CFG_ALIGN n)
      && s.is (R.PWM_CH_CFG_LO_EN n) && s.is (R.PWM_CH_CFG_MASK_EN n)
      && decide (s.rd (R.PWM_CH_DT_DT n) = s.rd (R.PWM_CH_DT_DT (36 + 3 * d))) && decide (s.pwmGroup n = g))
    && ((s.pwmMembers g).all fun n => cs.contains n)
    && s.pwmRuns g && !s.is (R.PWM_GRP_CTL_SYNC g)
    && decide (6250 ≤ p) && decide (p ≤ 25000)
    && isChannel sh && s.is (R.MTR_CH_CFG_EN sh) && !s.interleaved sh
    && s.regionSpans 7 (s.rd R.AUX_OUT_OUT_BASE + 8 * d) 8

/-- The state drive `d` will be in once the commands due at the next mark have acted. -/
def State.driveSoon (s : State) (d : Nat) : Drive :=
  (s.hst.due.filter fun x => x.desc.le 4 1 = d).foldl (fun st x =>
    if x.desc.opcode = 0x60#8 then (if st = .stopped then .catching else st)
    else if x.desc.opcode = 0x61#8 then
      (match st with
        | .running => if x.desc.le 5 1 = 0 then .stopping else .coasting
        | .stopping => if x.desc.le 5 1 = 0 then .stopping else .coasting
        | .aligning => .coasting
        | .catching => .coasting
        | st => st)
    else st) (s.driveState d)

/-- AUX_RUN (R317, R326, R436). -/
def ownAuxRun : Owner := fun c s =>
  let d := c.desc.le 4 1
  if !s.is (R.AUX_CTL_EN d) then (s, vMode 0x0801)
  else if s.rd (R.AUX_CTL_POLES d) = 0 then (s, vMode 0x0011)
  else if s.driveState d = .fault then (s, vMode 0x0804)
  else if !s.driveReady d then (s, vMode 0x0802)
  else
    let s := s.supersedeOlder c 0x60 fun x => x.le 4 1 = d
    if s.driveSoon d = .stopping || s.driveSoon d = .coasting then (s.wrB (R.AUX_STAT_PENDING d) true, vPend 0)
    else (s.queueDue c.desc 0, vOk)

/-- PENDING of the drives made to agree with the kept table. -/
def State.showAuxPending (s : State) : State :=
  each [0, 1, 2, 3] (fun s d => s.wrB (R.AUX_STAT_PENDING d) ((s.keptOf 0x60).any fun e => decide (e.desc.le 4 1 = d))) s

/-- AUX_STOP (R326). -/
def ownAuxStop : Owner := fun c s =>
  let d := c.desc.le 4 1
  if !s.is (R.AUX_CTL_EN d) then (s, vMode 0x0801)
  else
    let s := (s.supersedeOlder c 0x60 fun x => x.le 4 1 = d).showAuxPending
    (s.queueDue c.desc 0, vOk)

/-- AUX_RUN takes effect (Table 12.5). -/
def State.auxRun (s : State) (x : Desc) (kept : Bool) : State :=
  let d := x.le 4 1
  let s := s.modDrive d fun v => { v with ref := opF32 x 8, ramp := opF32 x 12 }
  match s.driveState d with
  | .stopped => s.setDrive d .catching (if kept then 6 else 1)
  | _ => s

/-- The drive coasts (R326). -/
def State.coast (s : State) (d cause : Nat) : State :=
  (s.setDrive d .coasting cause).modDrive d fun v => { v with recatch := false }

/-- AUX_STOP takes effect (Table 12.5). -/
def State.auxStop (s : State) (x : Desc) : State :=
  let d := x.le 4 1
  match s.driveState d with
  | .aligning => s.coast d 1
  | .catching => s.coast d 1
  | .running =>
    if x.le 5 1 = 0 then (s.setDrive d .stopping 1).modDrive d fun v => { v with ref := 0, slow := 0 } else s.coast d 1
  | .stopping => if x.le 5 1 = 0 then s else s.coast d 1
  | .coasting => s.coast d 1
  | _ => s

/-- Leaving RUN, or safety SAFE: every drive that turns coasts; a pending AUX_RUN resolves (R326). -/
def State.coastAll (s : State) (detail : Nat) : State :=
  let s := each [0, 1, 2, 3] (fun s d => if s.driveStill d then s else s.coast d 2) s
  (s.resolveWhere (fun e => e.op = 0x60 && !e.deferred) (vMode detail)).showAuxPending

/-- A drive that stopped executes a pending AUX_RUN as from STOPPED (R326). -/
def State.auxStopped (s : State) (d : Nat) : State :=
  (s.retryAll 0x60 (fun x => x.le 4 1 = d) ownAuxRun).showAuxPending

/-! ### Faults and losses (R318, R330) -/

/-- A drive enters FAULT for a source. -/
def State.driveFault (s : State) (d n cause : Nat) : State :=
  ((s.setDrive d .fault cause).modDrive d fun v => { v with fault := n, recatch := false }).raise n d

/-- `AUX_FLT_Nd` changes (R318). -/
def State.auxFaultIn (s : State) (d : Nat) (asserted : Bool) : State :=
  let s := { s with aux := { s.aux with pins := if asserted then s.aux.pins ||| BitVec.ofNat 4 (2 ^ d)
                                                else s.aux.pins &&& ~~~BitVec.ofNat 4 (2 ^ d) } }
  let s := s.wrB (R.AUX_STAT_FLT_IN d) asserted
  let s := s.setActive 0x100 ([0, 1, 2, 3].any fun e => s.is (R.AUX_STAT_FLT_IN e) && s.is (R.AUX_CTL_FLT_EN e))
  if asserted && s.is (R.AUX_CTL_FLT_EN d) then (s.event 8 5 [(16, 1, d)]).driveFault d 0x100 4 else s

/-- The fault inputs that are low, read as their settings go live (R43, R318). -/
def State.readAuxFlt (s : State) : State :=
  each ([0, 1, 2, 3].filter fun d => s.aux.pins.getLsbD d) (fun s d => s.auxFaultIn d true) s

/-- Drives whose fault source `n` has been cleared return to STOPPED (R326). -/
def State.auxCleared (s : State) (n : Nat) : State :=
  each [0, 1, 2, 3] (fun s d =>
    if decide (s.driveState d = .fault) && decide ((s.drive d).fault = n) then (s.setDrive d .stopped 1).auxStopped d else s) s

/-- A recatch attempt: coasting, or FAULT when RECATCH_N is exceeded (R330). `lost` is the cause of AUX_LOST, 0 for a
failed catch. -/
def State.recatch (s : State) (d lost : Nat) : State :=
  let n := min 15 (s.rd (R.AUX_STAT_RECATCH_CNT d) + 1)
  let spent := decide (s.rd (R.AUX_CTL_RECATCH_N d) < s.rd (R.AUX_STAT_RECATCH_CNT d) + 1)
  let s := s.wr (R.AUX_STAT_RECATCH_CNT d) n
  let s := if lost ≠ 0 then s.event 8 3 [(16, 1, d), (17, 1, lost), (18, 1, n)] else s
  if spent then s.driveFault d 0x101 3
  else (s.setDrive d .coasting 3).modDrive d fun v => { v with recatch := true, loss := 0 }

/-- COAST_T ends (R326, R330). -/
def State.coastEnd (s : State) (d : Nat) : State :=
  if s.driveState d = .coasting then
    let s := s.advanceByTicks ((s.drive d).since + 5000000 * s.rd (R.AUX_TIME_COAST_T d))
    if (s.drive d).recatch then
      (s.setDrive d .catching 3).modDrive d fun v =>
        { v with recatch := false, low := 0, prevSet := none, disagree := 0, rots := [], cur := [] }
    else (s.setDrive d .stopped 5).auxStopped d
  else s

/-- 1 s in RUNNING without loss (R330). -/
def State.recatchReset (s : State) (d : Nat) : State :=
  if s.driveState d = .running then
    (s.advanceByTicks ((s.drive d).since + 500000000)).wr (R.AUX_STAT_RECATCH_CNT d) 0
  else s

/-! ### Quantities of a decision (R319 to R324) -/

/-- sin 60° as the drive holds it. -/
def sin60 : Rat := fRat (fSin 0x3F860A92#32)

/-- α coordinate of vector k (Table 12.1). -/
def vecA (k : Nat) : Rat := if k = 0 then 0 else if k = 1 then 1 else if k = 4 then -1 else if k = 2 ∨ k = 6 then 1 / 2 else -1 / 2

/-- β coordinate of vector k (Table 12.1). -/
def vecB (k : Nat) : Rat := if k = 2 ∨ k = 3 then sin60 else if k = 5 ∨ k = 6 then -sin60 else 0

/-- Phase that vector k measures, 0 U, 1 V, 2 W, and its sign (Table 12.1). -/
def vecPhase (k : Nat) : Nat × Bool :=
  if k = 1 then (0, true) else if k = 2 then (2, false) else if k = 3 then (1, true)
  else if k = 4 then (0, false) else if k = 5 then (2, true) else (1, false)

/-- Is phase `i` high in vector k? (Table 12.1) -/
def vecHigh (k i : Nat) : Bool :=
  if i = 0 then k = 1 || k = 2 || k = 6 else if i = 1 then k = 2 || k = 3 || k = 4 else k = 4 || k = 5 || k = 6

/-- Index of a vector taken modulo 6 in the range 1 to 6 (R321). -/
def vecIx (k : Int) : Nat := ((k - 1) % 6).toNat + 1

/-- T_D in s (R317). -/
def State.driveT (s : State) (d : Nat) : Rat :=
  mkRat (2 * s.rd (R.PWM_GRP_STAT_PERIOD (s.pwmGroup (36 + 3 * d))) : Nat) 1000000000

/-- DT + SETTLE in s. -/
def State.driveDead (s : State) (d : Nat) : Rat :=
  mkRat (s.rd (R.PWM_CH_DT_DT (36 + 3 * d)) * 125 + s.rd (R.AUX_TIME_SETTLE d) * 10000 : Nat) 1000000000000

/-- W_S in s (R322). -/
def State.driveW (s : State) (d : Nat) : Rat := s.driveDead d + mkRat 47 10000000

/-- t_s less the start of the vector, in s (R322). -/
def State.driveTs (s : State) (d : Nat) : Rat := s.driveDead d + mkRat 235 100000000

/-- V_bus (Table 12.2). -/
def State.driveBus (s : State) (d : Nat) : F32 := s.slotValue (s.rd (R.AUX_SRC_VBUS_SLOT d))

/-- A register of the drive as an exact value. -/
def State.par (s : State) (f : Fld) : Rat := fRat (s.f32 f)

/-- The value of a shunt sample, as a MARK value is formed (R275, R322); none when it carries the invalid flag. -/
def State.shuntValue (s : State) (d : Nat) (x : MarkSample) : Option F32 :=
  let c := s.rd (R.AUX_SRC_SHUNT d)
  let f : Rat := mkRat (min x.frac 50000) 50000
  if x.channel = c && s.resultValid c (x.clean && !s.divided fastSpan) && fFinite x.y0 && fFinite x.y1 then
    some (s.scaled c (fOfRat ((1 - f) * fRat x.y0 + f * fRat x.y1)))
  else none

/-- Sector of the flux, 1 to 6 (Table 12.2). -/
def fluxSector (a b : Rat) : Nat :=
  if 3 * b * b ≤ a * a then (if 0 ≤ a then 1 else 4)
  else if 0 < b then (if 0 < a then 2 else 3)
  else if a < 0 then 5 else 6

/-- Magnitude comparison: is `|(a, b)|` below the limit? -/
def magBelow (a b lim : Rat) : Bool := decide (0 < lim) && decide (a * a + b * b < lim * lim)

/-- The samples available at a decision enter, and every sample ages (R322, R323). -/
def State.takeShunt (s : State) (d : Nat) (xs : List ShuntSample) : State :=
  let s := s.modDrive d fun v => { v with cur := v.cur.map fun (p, (x, a)) => (p, (x, a + 1)) }
  each xs (fun s x =>
    match s.shuntValue d x.mark with
    | some y =>
      let (p, pos) := vecPhase x.vec
      s.modDrive d fun v => { v with cur := SMap.ins v.cur p (if pos then y else fNeg y, 0) }
    | none => s) s

/-- Phase current samples no older than 2 periods. -/
def DriveSt.freshPhases (v : DriveSt) : List (Nat × F32) :=
  (v.cur.filter fun (_, (_, a)) => a ≤ 2).map fun (p, (x, _)) => (p, x)

/-- Currents of a decision: α, β, and whether they are measured (R323). -/
def State.driveCurrents (s : State) (d : Nat) (vA vB : Rat) : F32 × F32 × Bool :=
  let v := s.drive d
  let ph := v.freshPhases
  let get (p : Nat) : Option Rat := (ph.find? fun x => x.1 = p).map fun x => fRat x.2
  let ab (u w : Rat) (q : Rat) : F32 × F32 × Bool := (drv u, drv ((w - q) / (2 * sin60)), true)
  match get 0, get 1, get 2 with
  | some u, some w, _ => ab u w (-(u + w))
  | some u, none, some q => ab u (-(u + q)) q
  | none, some w, some q => ab (-(w + q)) w q
  | _, _, _ =>
    let args := [v.psiA, v.psiB, drv vA, drv vB, v.iA, v.iB]
    (Config.predictA args, Config.predictB args, false)

/-- Flux demand (Table 12.2). -/
def State.fluxDemand (s : State) (d : Nat) (a b : Rat) (was : Bool) : Bool :=
  let lo := s.par (R.AUX_FLUX_REF d) - s.par (R.AUX_FLUX_BAND d) / 2
  let hi := s.par (R.AUX_FLUX_REF d) + s.par (R.AUX_FLUX_BAND d) / 2
  if magBelow a b lo then true else if decide (hi * hi < a * a + b * b) then false else was

/-- Torque demand (Table 12.2). -/
def torqueDemand (err band : Rat) (was : Int) : Int :=
  if band < err then 1 else if err < -band then -1 else if (if err < 0 then -err else err) < band / 2 then 0 else was

/-- Vector of the switching table (Table 12.3). -/
def switching (dpsi : Bool) (dtq : Int) (k : Nat) : Nat :=
  if dtq = 0 then 0 else vecIx ((k : Int) + dtq * (if dpsi then 1 else 2))

/-- Limits on torque: the motoring limit, and the braking limit with its cause where torque brakes (R327). -/
def State.torqueLimit (s : State) (d : Nat) (w ask : Rat) : Rat × Nat :=
  let motor := 3 * (s.rd (R.AUX_CTL_POLES d) : Rat) * s.par (R.AUX_PSI_M d) * s.par (R.AUX_I_MAX d) / 2
  if ask * w < 0 then
    let slot := s.rd R.NRG_OUT_OUT_BASE + 16 + d
    let a := if s.slotGood slot then fRat (s.slotValue slot) else 0
    let aw := if w < 0 then -w else w
    let lim := a / (if aw < 1 then 1 else aw)
    if (s.drive d).busCut then (if motor ≤ 0 then motor else 0, 2)
    else if lim < motor then (lim, 1)
    else (motor, 0)
  else (motor, 0)

/-- The output slots of a decision (Table 12.8). -/
def State.driveOutputs (s : State) (d : Nat) (vals : List F32) : State :=
  each ((List.range 8).zip vals) (fun s (i, v) => s.writeSlot 7 (s.rd R.AUX_OUT_OUT_BASE + 8 * d + i) v true s.sys.k) s

/-- Stage the next period: vector, on-time in s, PHASE in ticks (R319). -/
def State.stageAt (s : State) (d k : Nat) (ton : Rat) (phase : Nat) : State :=
  let duty := drvUnits ton 8000000000
  let s := each [0, 1, 2] (fun s i =>
    let n := 36 + 3 * d + i
    if vecHigh k i && decide (k ≠ 0) then (s.wr (R.PWM_CH_DUTY_DUTY n) duty).wr (R.PWM_CH_PHASE_PHASE n) phase
    else s.wr (R.PWM_CH_DUTY_DUTY n) 0) s
  s.armGroup (s.pwmGroup (36 + 3 * d))

/-- Stage the next period: vector, on-time in s, centre of the pattern in s (R319). -/
def State.stageVector (s : State) (d k : Nat) (ton centre : Rat) : State := s.stageAt d k ton (drvUnits centre 500000000)

/-- Stage an opened window of `w` s whose leading edge lies at `edge` s: PHASE is the nearest tick that keeps it
(R324). -/
def State.stageOpened (s : State) (d k : Nat) (w edge : Rat) : State :=
  let half : Nat := drvUnits w 8000000000 / 2
  s.stageAt d k w (drvNearest ((edge * 8000000000 + (half : Rat)) / 16))

/-- The first vector of the probe pair of the next period, where a pair is due: fewer than two phases are fresh
(R323). -/
def DriveSt.probePair (v : DriveSt) : Option Nat :=
  if 2 ≤ v.freshPhases.length then none
  else if !(v.freshPhases.any fun x => x.1 = 0) then some 1
  else if !(v.freshPhases.any fun x => x.1 = 1) then some 3
  else some 5

/-- On-time of vector `k` after the compensation of an opened window, which another vector drops (R324). -/
def State.compensate (s : State) (d k : Nat) (ton : Rat) : Rat × State :=
  match (s.drive d).excess with
  | some (k', e) => if k' = k ∧ k ≠ 0 then (if ton < e then 0 else ton - e, s) else (ton, s.inc (R.AUX_CNT_COMP_DROP d))
  | none => (ton, s)

/-- Place a selected vector in the next period: the probe pair, the opened window, the compensation (R323, R324). -/
def State.placeVector (s : State) (d k : Nat) (ton : Rat) : State :=
  let td := s.driveT d
  let w := s.driveW d
  let probe := (s.drive d).probePair
  let room := if probe.isSome then (if td - 2 * w < 0 then 0 else td - 2 * w) else td
  let mid := if probe.isSome then td / 2 + w else td / 2
  let q := s.compensate d k ton
  let ton := if k = 0 then 0 else if room < q.1 then room else q.1
  if 0 < ton ∧ ton < w then
    ((q.2.inc (R.AUX_CNT_WIN_OPEN d)).stageOpened d k w (mid - ton / 2)).modDrive d fun x =>
      { x with vec := k, ton := w, probe := probe, excess := some (k, w - ton) }
  else
    (q.2.stageVector d k ton mid).modDrive d fun x => { x with vec := if ton = 0 then 0 else k, ton := ton, probe := probe, excess := none }

/-- The ramped reference of the next period, and whether it stands still for a braking limit (R327). -/
def driveRamp (now goal step : Rat) : Rat :=
  if now < goal then (if goal < now + step then goal else now + step)
  else (if now - step < goal then goal else now - step)

/-- A heartbeat's values are adopted at the first decision boundary after it (R367, R373); a FAULT of this seat's own
stands. -/
def State.adoptDrive (s : State) (d : Nat) : State :=
  match (s.drive d).adopt with
  | some (st, a, b, r, i) =>
    let s := s.modDrive d fun v => { v with adopt := none }
    if s.driveState d = .fault then s
    else (s.setDrive d (Drive.ofCode st) 1).modDrive d fun v => { v with psiA := a, psiB := b, ramped := r, integ := i }
  | none => s

/-- What the observer finds at a decision (R320 to R323): applied voltage, currents and whether they were measured,
flux, rotations, speed, torque, and the currents predicted. -/
structure Observed where
  vA : Rat
  vB : Rat
  iA : F32
  iB : F32
  measured : Bool
  psiA : F32
  psiB : F32
  rots : List F32
  w : Rat
  torque : Rat
  pA : Rat
  pB : Rat

/-- Square of the flux magnitude. -/
def Observed.flux2 (o : Observed) : Rat := fRat o.psiA * fRat o.psiA + fRat o.psiB * fRat o.psiB

/-- The observer of a decision (R320 to R323). -/
def State.observe (s : State) (d : Nat) : Observed :=
  let v := s.drive d
  let td := s.driveT d
  let poles : Rat := s.rd (R.AUX_CTL_POLES d)
  let scale := if td = 0 then 0 else 2 * fRat (s.driveBus d) * v.ton / (3 * td)
  let vA := scale * vecA v.vec
  let vB := scale * vecB v.vec
  let (iA, iB, measured) := s.driveCurrents d vA vB
  let args := [v.psiA, v.psiB, drv vA, drv vB, v.iA, v.iB]
  let rs := s.par (R.AUX_RS d)
  let psiA := drv (fRat v.psiA + (vA - rs * fRat iA) * td)
  let psiB := drv (fRat v.psiB + (vB - rs * fRat iB) * td)
  let rots := (Config.rotation v.psiA v.psiB psiA psiB :: v.rots).take 16
  let turn := rots.foldl (fun a x => a + fRat x) (0 : Rat)
  { vA := vA, vB := vB, iA := iA, iB := iB, measured := measured, psiA := psiA, psiB := psiB, rots := rots
    w := if poles = 0 ∨ td = 0 then 0 else turn / ((rots.length : Rat) * td * poles)
    torque := 3 * poles * (fRat psiA * fRat iB - fRat psiB * fRat iA) / 2
    pA := fRat (Config.predictA args), pB := fRat (Config.predictB args) }

/-- The V_bus cut-off with its hysteresis (R327). -/
def State.busCutNow (s : State) (d : Nat) : Bool :=
  let bus := fRat (s.driveBus d)
  if s.par (R.AUX_VBUS_HI d) ≤ bus then true
  else if bus < s.par (R.AUX_VBUS_HI d) - s.par (R.AUX_VBUS_HYST d) then false else (s.drive d).busCut

/-- What the speed control gives (R325, R327): ramped reference, integrator, whether a limit holds the ramp and which,
and the torque reference. -/
structure Control where
  ramped : Rat
  integ : F32
  held : Bool
  cause : Nat
  tref : Rat

/-- The ramp, the speed PI and the torque limit of a decision (R325, R327). -/
def State.speedControl (s : State) (d : Nat) (w : Rat) : Control :=
  let v := s.drive d
  let td := s.driveT d
  let pi (r : Rat) : Rat × Rat :=
    let i := fRat v.integ + s.par (R.AUX_KI_W d) * (r - w) * td
    (s.par (R.AUX_KP_W d) * (r - w) + i, i)
  let next := driveRamp (fRat v.ramped) (fRat v.ref) (fRat v.ramp * td)
  let u0 := (pi next).1
  let (l0, c0) := s.torqueLimit d w u0
  let held := decide (c0 ≠ 0) && decide (l0 < (if u0 < 0 then -u0 else u0))
  let ramped := if held then fRat v.ramped else next
  let (u, i) := pi ramped
  let lim := (s.torqueLimit d w u).1
  let tref := if lim < u then lim else if u < -lim then -lim else u
  { ramped := ramped, held := held, cause := c0, tref := tref
    integ := if tref = u then drv i else Config.backCalc (drv i) (drv (u - tref)) }

/-- The demands on flux and torque, and the vector with its time (R319, R324). -/
def State.chooseVector (s : State) (d : Nat) (o : Observed) (tref : Rat) : Bool × Int × Nat × Rat :=
  let v := s.drive d
  let a := fRat o.psiA
  let b := fRat o.psiB
  let dpsi := s.fluxDemand d a b v.dpsi
  let band := s.par (R.AUX_TQ_BAND d)
  let dtq := torqueDemand (tref - o.torque) band v.dtq
  let err := if tref - o.torque < 0 then o.torque - tref else tref - o.torque
  let td := s.driveT d
  (dpsi, dtq, switching dpsi dtq (fluxSector a b), if dtq = 0 then 0 else if band ≤ err then td else td * err / band)

/-- Does the flux lie outside half to one and a half of its reference? (R330) -/
def State.badFlux (s : State) (d : Nat) (o : Observed) : Bool :=
  let ref := s.par (R.AUX_FLUX_REF d)
  decide (o.flux2 < ref * ref / 4) || decide (9 * ref * ref / 4 < o.flux2)

/-- Do the measured currents differ from those predicted by more than I_INCON? (R330) -/
def State.badCurrent (s : State) (d : Nat) (o : Observed) : Bool :=
  let inc := s.par (R.AUX_I_INCON d)
  let dA := fRat o.iA - o.pA
  let dB := fRat o.iB - o.pB
  o.measured && decide (inc * inc < dA * dA + dB * dB)

/-- The limit that holds the ramp shown, and told once (R325). -/
def State.showLimit (s : State) (d : Nat) (c : Control) : State :=
  let told := (s.drive d).told
  let s := s.wrB (R.AUX_STAT_DEC_LIM d) c.held
  let s := s.when (c.held && !told) fun s => s.event 8 4 [(16, 1, d), (17, 1, c.cause)]
  s.modDrive d fun x => { x with told := if c.held then true else if c.ramped = fRat x.ref then false else x.told }

/-- The outputs of the observer (Table 12.5). -/
def State.observerOutputs (s : State) (d : Nat) (o : Observed) : State :=
  let iA := fRat o.iA
  let iB := fRat o.iB
  s.driveOutputs d [drv o.w, drv o.torque, drvRoot o.flux2, o.iA, drv (-iA / 2 + sin60 * iB), drv (-iA / 2 - sin60 * iB),
    s.driveBus d, drv (-(3 * (o.vA * iA + o.vB * iB) / 2))]

/-- The observer and the speed control of a decision, the loss test and the next vector (R319 to R330). -/
def State.decide_ (s : State) (d : Nat) : State :=
  let o := s.observe d
  let cut := s.busCutNow d
  let s := s.modDrive d fun x => { x with busCut := cut }
  let c := s.speedControl d o.w
  let q := s.chooseVector d o c.tref
  let bad := s.badFlux d o || s.badCurrent d o
  let still := decide ((if o.w < 0 then -o.w else o.w) ≤ s.par (R.AUX_STOP_SPEED d))
  let v := s.drive d
  let loss := if bad then v.loss + 1 else 0
  let slow := if still then v.slow + 1 else 0
  let s := s.showLimit d c
  let s := s.modDrive d fun x => { x with
    psiA := o.psiA, psiB := o.psiB, rots := o.rots, iA := o.iA, iB := o.iB, ramped := drv c.ramped, integ := c.integ
    dpsi := q.1, dtq := q.2.1, loss := loss, slow := slow }
  let s := s.observerOutputs d o
  if decide (s.rd (R.AUX_CTL_LOSS_N d) ≤ loss) && decide (loss ≠ 0) then s.recatch d (if s.badFlux d o then 1 else 2)
  else if decide (s.driveState d = .stopping) && decide (16 ≤ slow) then (s.setDrive d .stopped 5).auxStopped d
  else s.placeVector d q.2.2.1 q.2.2.2

/-- The decision of a period of drive `d` (R319). While ALIGNING the drive applies V1 at ALIGN_I; how it regulates that
current the spec does not say, so the on-time is free (log entry 12). -/
def State.auxDecision (s : State) (d : Nat) (xs : List ShuntSample) : State :=
  let s := s.adoptDrive d
  match s.driveState d with
  | .running => (s.takeShunt d xs).decide_ d
  | .stopping => (s.takeShunt d xs).decide_ d
  | .aligning =>
    let s := s.takeShunt d xs
    let n := 16 * s.rd (R.PWM_GRP_STAT_PERIOD (s.pwmGroup (36 + 3 * d))) + 1
    let (z, s) := s.fresh 32
    let ton : Rat := mkRat (z % n : Nat) 8000000000
    (s.stageVector d 1 ton (s.driveT d / 2)).modDrive d fun v => { v with vec := 1, ton := ton }
  | _ => s

/-! ### Catching (R328) -/

/-- Enter RUNNING with the ramp at `start` and the PI at zero torque. -/
def State.driveRuns (s : State) (d : Nat) (start psiA psiB : F32) (cause : Nat) : State :=
  (s.modDrive d fun v => { v with
    ramped := start, integ := 0, psiA := psiA, psiB := psiB, rots := [], vec := 0, ton := 0, excess := none
    cur := [], loss := 0, slow := 0, low := 0, prevSet := none, disagree := 0 }).setDrive d .running cause

/-- The current estimate of a probe set (R328). -/
structure Probe where
  iA : F32
  iB : F32
  /-- square of the current's magnitude -/
  m2 : Rat

/-- The estimate that the samples of V1, V3 and V5 give; none with a sample that is not valid (R328). -/
def State.probeOf (s : State) (d : Nat) (xs : List MarkSample) : Option Probe :=
  match xs.map (s.shuntValue d) with
  | [some xu, some xv, some xw] =>
    let ls := s.par (R.AUX_LS d)
    let own := if ls = 0 then 0 else 2 * fRat (s.driveBus d) * s.driveTs d / (3 * ls)
    let u := fRat xu - own
    let v := fRat xv - own
    let q := fRat xw - own
    let a := (2 * u - v - q) / 3
    some { iA := drv a, iB := drv ((v - q) / (2 * sin60)), m2 := a * a + (v - q) * (v - q) / 3 }
  | _ => none

/-- Too little current: a rotor at rest after two such sets, which is aligned (R328). -/
def State.probeLow (s : State) (d : Nat) (p : Probe) : State :=
  let low := (s.drive d).low + 1
  let s := s.modDrive d fun y => { y with low := low, prevSet := some (p.iA, p.iB) }
  if 2 ≤ low then
    let s := s.event 8 2 [(16, 1, d), (17, 1, 0)]
    let m := s.f32 (R.AUX_PSI_M d)
    (s.modDrive d fun y => { y with psiA := m, psiB := 0, low := 0, prevSet := none }).setDrive d .aligning 1
  else s

/-- The electrical speed that two sets tell (R328). -/
def State.probeSpeed (s : State) (d : Nat) (a b : F32) (p : Probe) : Rat :=
  let int : Rat := mkRat (s.rd (R.AUX_TIME_PROBE_INT d)) 10000
  if int = 0 then 0 else fRat (Config.rotation a b p.iA p.iB) / int

/-- Do the two estimates of the speed agree? (R328) -/
def State.probeAgrees (s : State) (d : Nat) (we : Rat) (p : Probe) : Bool :=
  let ls := s.par (R.AUX_LS d)
  let pm := s.par (R.AUX_PSI_M d)
  let pt : Rat := mkRat (s.rd (R.AUX_TIME_PROBE_T d)) 1000000
  let e2 := if pm * pt = 0 then 0 else p.m2 * ls * ls / (pm * pm * pt * pt)
  decide (9 * we * we / 16 ≤ e2) && decide (e2 ≤ 25 * we * we / 16)

/-- The rotor is caught: its flux follows from the probe current (R328). -/
def State.caught (s : State) (d : Nat) (we : Rat) (p : Probe) : State :=
  let pm := s.par (R.AUX_PSI_M d)
  let poles : Rat := s.rd (R.AUX_CTL_POLES d)
  let w := drv (if poles = 0 then 0 else we / poles)
  let r := fRat (drvRoot p.m2)
  let sg : Rat := if we < 0 then -1 else 1
  let pA := drv (if r = 0 then 0 else sg * pm * fRat p.iB / r)
  let pB := drv (if r = 0 then 0 else -(sg * pm * fRat p.iA / r))
  (s.event 8 2 [(16, 1, d), (17, 1, 1), (20, 4, w.toNat)]).driveRuns d w pA pB 1

/-- Two sets that disagree: the third time in a row the catch fails (R328). -/
def State.probeDiffers (s : State) (d : Nat) (p : Probe) : State :=
  let n := (s.drive d).disagree + 1
  let s := s.modDrive d fun y => { y with low := 0, prevSet := some (p.iA, p.iB), disagree := n }
  if 3 ≤ n then (s.raise 0x102 d).recatch d 0 else s

/-- A set of three probes has run; `xs` gives the samples of V1, V3 and V5 (R328). A set with a sample that is not
valid estimates nothing. -/
def State.probeSet (s : State) (d : Nat) (xs : List MarkSample) : State :=
  if s.driveState d ≠ .catching then s
  else match s.probeOf d xs with
  | none => s
  | some p =>
    let min := s.par (R.AUX_CATCH_I_MIN d)
    if p.m2 < min * min then s.probeLow d p
    else match (s.drive d).prevSet with
      | none => s.modDrive d fun y => { y with low := 0, prevSet := some (p.iA, p.iB) }
      | some (a, b) =>
        let we := s.probeSpeed d a b p
        if s.probeAgrees d we p then s.caught d we p else s.probeDiffers d p

/-- Alignment ends after ALIGN_T (R328). -/
def State.alignDone (s : State) (d : Nat) : State :=
  if s.driveState d = .aligning then
    let s := s.advanceByTicks ((s.drive d).since + 500000 * s.rd (R.AUX_CTL_ALIGN_T d))
    s.driveRuns d 0 (s.f32 (R.AUX_PSI_M d)) 0 1
  else s

/-- The eight fields of a drive in a heartbeat (Table 14.4). -/
def State.driveBeat (s : State) (d : Nat) : Bytes :=
  let v := s.drive d
  layBytes 20 [(0, 1, (s.driveState d).code), (4, 4, v.psiA.toNat), (8, 4, v.psiB.toNat), (12, 4, v.ramped.toNat),
    (16, 4, v.integ.toNat)]

end Sys2Proof.Machine
end

