-- ==== Sys2Proof/Machine/Redundancy.lean ====
section
/-! DEFINITION. Seat pairing: the claim, the gate, the keeper, the lock-link, the state copy and the shadow compare,
mirrored commands, and role swaps (R357 to R383). -/

set_option Elab.async false

namespace Sys2Proof.Machine

open Sys2Proof

/-- Is the seat one of a pair? -/
def State.paired (s : State) : Bool := s.is R.RED_CTL_PAIRED

/-- Is this seat B (R44)? -/
def State.seatB (s : State) : Bool := s.is R.SYS_STRAP_SEAT_SEL

/-- The claim state (Table 14.1): 0 RELEASED, 1 WAITING, 2 HOLDING, 3 CONTESTED. -/
def State.claim (s : State) : Nat := s.rd R.RED_STAT_CLAIM

/-! ### Health and the link (R368, R376) -/

/-- HEALTH changes: HEALTH_CHANGE on this seat (R376). -/
def State.setHealth (s : State) (h first : Nat) (dev : F32) : State :=
  let old := s.rd R.RED_STAT_HEALTH
  if old = h then s
  else (s.wr R.RED_STAT_HEALTH h).event 0xA 4 [(16, 1, old), (17, 1, h), (18, 2, first), (20, 4, dev.toNat)]

/-- A swap ends: ROLE_SWAP_DONE with a result (R380). One that the watchdog asked for and that succeeded takes the place
of the plan (R121). -/
def State.swapEnd (s : State) (result : Nat) : State :=
  match s.red.swap with
  | none => s
  | some x =>
    let s := ({ s with red := { s.red with swap := none } }).wrB R.RED_STAT_SWAP_PENDING false
    let s := if result = 0 && s.hst.watchSwap.isSome then
        { s with hst := { s.hst with watchSwap := none, armed := false, warned := false } } else s
    s.event 0xA 5 [(16, 1, result), (17, 1, if x.watchdog then 1 else 0), (18, 2, x.s % 65536)]

/-- A swap whose claim has not been released yet is aborted (R380). -/
def State.swapAbort (s : State) : State :=
  match s.red.swap with
  | some x => if x.released then s else s.swapEnd 2
  | none => s

/-- RUNNING lock-link lanes as `RED_STAT.LANES`. -/
def State.linkMap (s : State) : Nat := (s.linkLanes.map fun n => 2 ^ (n - 24)).foldl (· + ·) 0

/-- The link is UP: a lane RUNNING and a heartbeat at one of the last HB_MISS APPLY marks (R368). -/
def State.linkNow (s : State) : Bool :=
  s.paired && !s.linkLanes.isEmpty && !s.red.partner.isEmpty && decide (s.red.missed < s.rd R.RED_CTL_HB_MISS)

/-- The link judged; in TOWPATH it is kept (R368). -/
def State.judgeLink (s : State) : State :=
  let s := s.wr R.RED_STAT_LANES s.linkMap
  let was := s.is R.RED_STAT_LINK_UP
  let now := s.linkNow
  if decide (s.power = .towpath) || was = now then s
  else
    let s := s.wrB R.RED_STAT_LINK_UP now
    let s := s.event 0xA 2 [(16, 1, if now then 1 else 0), (17, 1, s.linkMap)]
    let s := s.level 0x140 0 (!was) (!now)
    if now then { s with red := { s.red with compared := 0 } }
    else
      let s := (s.inc R.RED_CNT_HB_LOST).wrB R.RED_STAT_TAKE_READY s.red.takeApply
      let s := s.wrB R.RED_PARTNER_VALID false
      let s := { s with red := { s.red with copyIn := none } }
      (s.setHealth 0 0xFFFF 0).swapAbort

/-- Does R358 find a mismatch in the partner's identity? -/
def State.identityBad (s : State) : Bool := s.red.partMismatch || s.red.strapConflict || s.red.settingsMismatch

/-- Do the last 8 copies, or heartbeats in HOLD, stand complete? The holder sends the copies and receives none. -/
def State.copiesGood (s : State) : Bool :=
  s.gateOpen || (decide (8 ≤ s.red.copies.length) && (s.red.copies.take 8).all id)

/-- The conditions of TAKE_READY (R362). -/
def State.takeReadyNow (s : State) : Bool :=
  s.paired && !s.isSafe && s.is R.RED_STAT_LINK_UP && !s.identityBad &&
    decide (s.rd R.LOOP_DIGEST_ACTIVE = leAt s.red.partner 12 4) && s.copiesGood && decide (s.rd R.RED_STAT_HEALTH ≠ 3)

/-- TAKE_READY while the link is UP; a swap is aborted when it falls (R362, R380). -/
def State.judgeTake (s : State) : State :=
  if s.is R.RED_STAT_LINK_UP then
    let was := s.is R.RED_STAT_TAKE_READY
    let now := s.takeReadyNow
    let s := s.wrB R.RED_STAT_TAKE_READY now
    if was && !now then s.swapAbort else s
  else s

/-- One more copy, or heartbeat in HOLD, judged. -/
def State.noteCopy (s : State) (ok : Bool) : State :=
  { s with red := { s.red with copies := (ok :: s.red.copies).take 8 } }

/-! ### The claim (R359 to R364) -/

/-- The claim state changes for a cause of Table 14.11; a gate that closes leaves the outputs off (R302). -/
def State.claimTo (s : State) (new cause : Nat) : State :=
  let old := s.claim
  if old = new then s
  else
    let s := s.wr R.RED_STAT_CLAIM new
    let s := if old = 2 then s.pwmOffAll else s
    let s := if new = 3 then s.inc R.RED_CNT_CONTEST else s
    let s := if s.paired then s.sendNotice new cause s.sys.k else s
    s.event 0xA 1 [(16, 1, old), (17, 1, new), (18, 1, cause)]

/-- The seat releases its claim (R364): gate, NOTICE, kept commands, CLAIM_STATE. -/
def State.releaseClaim (s : State) (cause : Nat) : State :=
  let old := s.claim
  if old = 0 then s
  else
    let s := s.wr R.RED_STAT_CLAIM 0
    let s := if old = 2 then s.pwmOffAll else s
    let s := if s.paired then s.sendNotice 0 cause s.sys.k else s
    let s := s.resolveWhere (fun _ => true) (vMode 4)
    let s := s.event 0xA 1 [(16, 1, old), (17, 1, 0), (18, 1, cause)]
    if cause = 5 then s else s.swapEnd 2

/-- The line fault of R357 and R361, counted with the contests. -/
def State.lineFault (s : State) : State :=
  if s.active 0x143 then s else ((s.inc R.RED_CNT_CONTEST).setActive 0x143 true).raise 0x143 0

/-- `PARTNER_CLAIM_N` is seen asserted (R357, R359, R360). -/
def State.partnerAsserted (s : State) : State :=
  if s.is R.RED_PARTNER_LINE then s
  else
    let s := s.wrB R.RED_PARTNER_LINE true
    let s := { s with red := { s.red with deassertedAt := none, everHeld := true } }
    if !s.paired then
      if s.claim = 0 then s
      else ((s.claimTo 3 0).setActive 0x143 true).raise 0x143 0
    else
      let s := s.setActive 0x143 false
      if s.claim = 0 then s
      else
        let s := s.claimTo 3 0
        if s.seatB then s.releaseClaim 8 else s

/-- `PARTNER_CLAIM_N` is seen deasserted (R360). -/
def State.partnerDeasserted (s : State) : State :=
  if !s.is R.RED_PARTNER_LINE then s
  else
    let s := s.wrB R.RED_PARTNER_LINE false
    let now := s.tsn.local_
    let s := { s with red := { s.red with deassertedAt := some now } }
    let s := if s.paired then s else s.setActive 0x143 false
    if s.claim = 3 then s.claimTo 1 0 else s

/-- Keeper interval at its shortest, ns (R363). -/
def State.keeperNs (s : State) : Nat := 2 * s.periodNs + 1000

/-- Seat A CONTESTED for 2 × (2 × P + 1 µs) (R360). -/
def State.contestedTimeout (s : State) : State :=
  if s.paired && !s.seatB && decide (s.claim = 3) then
    let s := (s.releaseClaim 8).raise 0x142 0
    { s with red := { s.red with onlyLinked := true } }
  else s

/-- Conditions 1, 2, 5 and 6 of R361, and what R360 and R406 add. -/
def State.mayClaim (s : State) : Bool :=
  s.paired && s.bootDone && s.is R.RED_CTL_CLAIM_EN && (decide (s.power = .run) || decide (s.power = .hold)) && !s.isSafe &&
    !s.red.partMismatch && !s.red.strapConflict && decide (s.rd R.SEC_LC_STATE ≠ 3) &&
    (!s.red.onlyLinked || s.is R.RED_STAT_LINK_UP) &&
    (s.is R.RED_STAT_TAKE_READY || s.is R.RED_CTL_COLD_TAKE || !s.red.everHeld) &&
    (!s.seatB || s.red.everHeld || s.red.startT)

/-- Condition 4: the link is LOST, or the partner's latest message shows RELEASED. -/
def State.partnerReleased (s : State) : Bool :=
  !s.is R.RED_STAT_LINK_UP || decide (s.rd R.RED_PARTNER_CLAIM = 0)

/-- A RELEASED seat claims once every condition of R361 holds, the line 1 µs deasserted among them. A line deasserted
for more than 2 µs while the partner's messages show a claim is a line fault. -/
def State.claimAssert (s : State) : State :=
  match s.red.deassertedAt with
  | none => s
  | some t =>
    if decide (s.claim ≠ 0) || !s.paired || !s.bootDone then s
    else if !s.partnerReleased then (if t + 1000 < s.tsn.local_ then s.lineFault else s)
    else if !s.mayClaim then s
    else
      let s := s.advanceByTicks (t + 500)
      let cold := !s.is R.RED_STAT_TAKE_READY && s.red.everHeld
      let s := { s with red := { s.red with coldTaken := cold } }
      let now := s.tsn.local_
      ({ s with red := { s.red with refreshedAt := now } }).claimTo 1 1

/-- The cycle in which corrected time `x`, in ns, lies (R17). -/
def State.cycleAt (s : State) (x : Int) : Int := (s.sys.epochK : Int) + (x - s.sys.epoch) / (s.periodNs : Int)

/-- The last cycle whose downlink window has opened at corrected time `x` (R19). -/
def State.windowsAt (s : State) (x : Int) : Int := s.cycleAt (x + 450 + s.windowLen rateD - s.periodNs)

/-- Corrected time in whole ns. -/
def State.nowNs (s : State) : Int := s.plantFrac / 65536

/-- The partner, as holder, has sent the downlink of cycle `c`. -/
def State.noteSent (s : State) (c : Nat) : State := { s with red := { s.red with sent := max s.red.sent c } }

/-- The switch-over gap as this seat sees it when its gate opens, its partner's line having gone at tick `t` (R374): the
downlink windows that have opened since the last that the partner is known to have sent. Its keeper vouches for it up to
the keeper's interval before the line went (log entry 119, DEDUCED). -/
def State.switchGap (s : State) (t : Nat) : Nat :=
  let gone := s.nowNs - 2 * ((s.tsn.local_ : Int) - t)
  let kept := s.cycleAt (gone - s.keeperNs + 200) - 1
  (s.windowsAt s.nowNs - max (s.red.sent : Int) kept).toNat

/-- The gate opens, 2 µs after the line was seen deasserted: TAKEOVER and what R373 lists. -/
def State.gateOpens (s : State) : State :=
  match s.red.deassertedAt with
  | none => s
  | some t =>
    if s.claim ≠ 1 then s
    else
      let s := (s.advanceByTicks (t + 1000)).claimTo 2 2
      if !s.paired then s
      else
        let cause := if !s.red.everHeld then 3 else if s.is R.RED_STAT_LINK_UP then 2 else 1
        let gap := if cause = 3 then 0 else s.switchGap t
        let s := { s with red := { s.red with everHeld := true }, tsn := { s.tsn with holderSel := none } }
        let s := s.inc R.RED_STAT_SWITCHES
        let s := s.judgeSelection s.anyLocked
        let s := if s.red.coldTaken then
            { s with red := { s.red with coldTaken := false }, sys := { s.sys with follow := some .hold } } else s
        s.event 0xA 3 [(16, 1, cause), (18, 2, min 65535 gap)]

/-- The keeper expires and releases the claim (R363). -/
def State.keeperExpired (s : State) : State :=
  if s.paired && decide (s.claim ≠ 0) && decide (s.power ≠ .towpath) then
    let s := s.advanceByTicks (s.red.refreshedAt + s.keeperNs / 2)
    ((s.inc R.RED_CNT_KEEPER).raise 0x141 0).releaseClaim 3
  else s

/-- START_T after boot (R361). -/
def State.startExpiry (s : State) : State :=
  if s.bootDone then { s with red := { s.red with startT := true } } else s

/-- SOLO asserts its claim at boot step 5 (R357). -/
def State.soloClaim (s : State) : State :=
  if s.paired || s.claim ≠ 0 then s
  else if s.is R.RED_PARTNER_LINE then ((s.claimTo 3 1).setActive 0x143 true).raise 0x143 0
  else s.claimTo 1 1

/-! ### The heartbeat (R367) -/

/-- HEARTBEAT payload (Table 14.4). -/
def State.heartbeatBytes (s : State) : Bytes :=
  let b (x : Bool) (i : Nat) : Nat := if x then 2 ^ i else 0
  let w := s.rd R.HST_WATCH_STAT_STATE
  layBytes 48 [(0, 2, s.rd R.SYS_ID_PART), (2, 1, (s.reg 0).toNat / 256 % 256),
    (3, 1, b s.seatB 0 + 2 * s.claim + b (s.is R.RED_STAT_TAKE_READY) 3 + b (decide (w = 2) || decide (w = 3)) 4
      + b (decide (w = 4)) 5),
    (4, 1, s.rd R.SYS_PWR_STAT_STATE + 8 * s.rd R.FLT_STAT_SAFETY + 32 * s.grid),
    (5, 1, s.rd R.RED_STAT_HEALTH + 4 * (s.selected % 2) + b s.tsn.stepAsked 3), (6, 2, s.cycleNum),
    (8, 4, (s.reg 0x3F010).toNat), (12, 4, s.rd R.LOOP_DIGEST_ACTIVE), (16, 4, s.rd R.LOOP_DIGEST_STAGED),
    (20, 2, s.rd R.SYS_CYCLE_NOW_PERIOD), (24, 8, ux 64 s.sys.epoch)] |>.take 32 |>.append
  ((List.range 12).map fun p => BitVec.ofNat 8
    (let n := 2 * p + (if s.seatB then 1 else 0); if s.runs n then s.rd (R.CNL_LANE_STAT_REACH n) else 0)) |>.append
  [0, 0, 0, 0] |>.append ((List.range 4).flatMap s.driveBeat)

/-- The full cycle count nearest the present one with this cycle number. -/
def State.fullCycle (s : State) (c : Nat) : Nat :=
  ((s.sys.k : Int) + (((c : Int) - s.sys.k + 32768) % 65536) - 32768).toNat

/-- The holder's period and epoch wait at the standby for its next SAMPLE mark, the first that they place (R27): the
mark at or before `now` whose APPLY has passed has cycle number `c`. -/
def State.takeGrid (s : State) (period c : Nat) (epoch : Int) : State :=
  if period < 500 ∨ 20000 < period then s
  else if s.rd R.SYS_CYCLE_NOW_PERIOD = period ∧ s.sys.epoch = epoch then s
  else
    let p : Int := 10 * period
    let now := s.plantFrac / 65536
    let j := (now - epoch - p + 200) / p
    let kc := s.fullCycle c
    let at0 : Int × Nat := if 0 ≤ (kc : Int) - j then (epoch, ((kc : Int) - j).toNat) else (epoch + j * p, kc)
    { s with sys := { s.sys with newGrid := some (period, at0.1, at0.2) } }

/-- One identity check of R358: the event and the fault when a mismatch is first seen. -/
def State.mismatch (s : State) (cause source : Nat) (was now : Bool) : State :=
  if now && !was then (s.event 0xA 6 [(16, 1, cause)]).level source 0 was now else s.level source 0 was now

/-- PART and REV checked (R358). -/
def State.checkPart (s : State) (b : Bytes) : State :=
  let bad := decide (leAt b 0 2 ≠ s.rd R.SYS_ID_PART) || decide (leAt b 2 1 ≠ (s.reg 0).toNat / 256 % 256)
  let s := s.mismatch 1 0x145 s.red.partMismatch bad
  { s with red := { s.red with partMismatch := bad } }

/-- SEAT checked (R358). -/
def State.checkSeat (s : State) (b : Bytes) : State :=
  if decide (leAt b 3 1 % 2 = (if s.seatB then 1 else 0)) && !s.red.strapConflict then
    let s := s.mismatch 2 0x144 false true
    let s := { s with red := { s.red with strapConflict := true } }
    if s.claim = 2 then s else s.releaseClaim 8
  else s

/-- SETTINGS checked (R358). -/
def State.checkSettings (s : State) (b : Bytes) : State :=
  let bad := decide (leAt b 8 4 ≠ (s.reg 0x3F010).toNat)
  let s := s.mismatch 3 0x146 s.red.settingsMismatch bad
  { s with red := { s.red with settingsMismatch := bad } }

/-- The identity checks of a heartbeat (R358). -/
def State.checkIdentity (s : State) (b : Bytes) : State := ((s.checkPart b).checkSeat b).checkSettings b

/-- The partner's claim state as its latest heartbeat or NOTICE shows it. -/
def State.partnerClaim (s : State) (c : Nat) : State :=
  let s := s.wr R.RED_PARTNER_CLAIM c
  let s := if c = 2 then { s with red := { s.red with everHeld := true } } else s
  if c = 0 && s.paired then s.setActive 0x143 false else s

/-- What a standby takes from the holder's heartbeat (R27, R348, R367, R426). -/
def State.followHolder (s : State) (b : Bytes) : State :=
  if decide (s.role = .standby) && decide (leAt b 3 1 / 2 % 4 = 2) then
    let s := s.takeGrid (leAt b 20 2) (leAt b 6 2) (sx 64 (leAt b 24 8))
    let sel := leAt b 5 1 / 4 % 2
    let s := { s with tsn := { s.tsn with holderSel := some sel, stepAsked := s.tsn.stepAsked || (leAt b 5 1).testBit 3 } }
    let s := s.judgeSelection s.anyLocked
    let s := each [0, 1, 2, 3] (fun s d =>
      let f (o : Nat) : F32 := BitVec.ofNat 32 (leAt b (48 + 20 * d + o) 4)
      s.modDrive d fun v => { v with adopt := some (leAt b (48 + 20 * d) 1, f 4, f 8, f 12, f 16) }) s
    match Power.ofReq (leAt b 4 1 % 8) with
    | some .off => s
    | some p => if p = s.power then s else { s with sys := { s.sys with follow := some p } }
    | none => s
  else s

/-- A partner's lane whose reach has fallen to 0 has left RUNNING: what answered its enumeration tells no more (R128,
R129). -/
def State.forgetFar (s : State) (b : Bytes) : State :=
  each ((List.range 24).filter fun n => !s.ownEnd n) (fun s n =>
    if leAt b (32 + poundOf n) 1 = 0 && decide (leAt s.red.partner (32 + poundOf n) 1 ≠ 0) then
      s.modLane n fun l => { l with answered := [] }
    else s) s

/-- A heartbeat of the partner, first copy of its SEQ (R358, R366 to R368). -/
def State.heartbeatIn (s : State) (b : Bytes) : State :=
  if !s.paired || s.linkLanes.isEmpty || b.length ≠ 128 then s
  else
    let x := leAt b 3 1
    let s := s.forgetFar b
    let s := { s with red := { s.red with partner := b, missed := 0 } }
    let s := (((s.wr R.RED_PARTNER_PART (leAt b 0 2)).wr R.RED_PARTNER_REV (leAt b 2 1)).wr R.RED_PARTNER_SEAT (x % 2)).wrB
      R.RED_PARTNER_VALID true
    let took := s.is R.RED_PARTNER_TAKE_READY
    let s := (s.wrB R.RED_PARTNER_TAKE_READY (x.testBit 3)).wr R.RED_PARTNER_HEALTH (leAt b 5 1 % 4)
    let s := s.judgeLink
    let s := (s.checkIdentity b).partnerClaim (x / 2 % 4)
    let s := s.when (decide (x / 2 % 4 = 2)) fun s => s.noteSent (s.fullCycle (leAt b 6 2))
    let s := s.followHolder b
    let s := if took && !x.testBit 3 then s.swapAbort else s
    s.judgeTake

/-- At an APPLY mark in RUN or HOLD: the heartbeat is sent and the partner's is missed until it arrives; the link is
judged (R367, R368). -/
def State.beat (s : State) : State :=
  if !s.paired then s
  else
    let s := s.sendAll 3 s.cycleNum s.heartbeatBytes
    let heard := decide (s.red.missed = 0)
    let s := if decide (s.power = .hold) && !s.gateOpen && s.is R.RED_STAT_LINK_UP then s.noteCopy heard else s
    let s := { s with red := { s.red with missed := s.red.missed + 1 } }
    let s := s.judgeLink.judgeTake
    if s.is R.RED_STAT_LINK_UP then
      let t := s.is R.RED_STAT_TAKE_READY
      { s with red := { s.red with takeApply := t } }
    else s

/-! ### The state copy and the shadow compare (R369, R370, R375 to R377) -/

/-- The status word of a loop's record: `LOOP_LSTAT`, and of a saturated hold in its reserved bits the side (bit 6,
upper) and the reference sign (bit 7, positive): R199 names the hold side and gives it no place (log entry 115, DESIGN
CHOICE). -/
def State.statusWord (s : State) (d : Nat) : Nat :=
  (s.reg (0x21000 + 4 * d)).toNat + match (s.loopAt d).hold with
    | some (_, u, p) => (if u then 64 else 0) + (if p then 128 else 0)
    | none => 0

/-- The record of a loop in a copy (Table 7.4). -/
def State.record (s : State) (b d : Nat) : Bytes :=
  let x := s.loopAt d
  let st := s.statusWord d
  let w (vs : List F32) : Bytes := vs.flatMap fun v => layBytes 4 [(0, 4, v.toNat)]
  match s.law b d with
  | 1 => w [x.out, x.integ, x.spEff, BitVec.ofNat 32 st]
  | 2 => w ([x.out, x.integ, x.spEff, BitVec.ofNat 32 st] ++
      ([x.y0, x.z0, x.y1, x.z1, x.y2, x.z2].take (2 * s.nres b d)))
  | 3 => w [x.out, x.integ, x.spEff, BitVec.ofNat 32 st, x.dterm, x.gPrev]
  | _ => w [x.out, x.lead, x.ePrev, x.spEff, BitVec.ofNat 32 st]

/-- The copy of the present cycle: header and records (R369). -/
def State.copyBytes (s : State) : Bytes :=
  let b := s.bank
  let ds := s.enabledLoops b
  let recs := ds.flatMap fun d => s.record b d
  layBytes 64 [(0, 2, s.cycleNum), (2, 2, ds.length), (4, 4, s.rd R.LOOP_DIGEST_ACTIVE), (8, 4, 64 + recs.length)] ++ recs

/-- The holder sends the copy in segments of 960 bytes after its last stage in RUN (R369). -/
def State.sendCopy (s : State) : State :=
  if s.paired && s.gateOpen && decide (s.power = .run) then
    let c := s.copyBytes
    let n := (c.length + 959) / 960
    let s := s.wr R.RED_COPY_SIZE (min 65535 c.length)
    each (List.range n) (fun s i =>
      let data := (c.drop (960 * i)).take 960
      s.sendOne 4 s.cycleNum (layBytes 8 [(0, 2, s.cycleNum), (2, 2, i), (4, 2, n)] ++ data)) s
  else s

/-- A COPY segment arrives at the standby (R370). -/
def State.copyIn (s : State) (b : Bytes) : State :=
  if !s.is R.RED_STAT_LINK_UP || decide (s.role ≠ .standby) || decide (b.length < 8) then s
  else
    let c := leAt b 0 2
    let i := leAt b 2 2
    let n := leAt b 4 2
    let data := b.drop 8
    let seg : CopyIn := match s.red.copyIn with
      | some x => if x.cycle = c && x.count = n then { x with segments := SMap.ins x.segments i data }
          else { cycle := c, count := n, segments := [(i, data)] }
      | none => { cycle := c, count := n, segments := [(i, data)] }
    { s with red := { s.red with copyIn := some seg } }

/-- The copy of cycle number `c`, when every segment of it has arrived and it names the bank in force (R369). -/
def State.wholeCopy (s : State) (c : Nat) : Option Bytes :=
  match s.red.copyIn with
  | none => none
  | some x =>
    if x.cycle = c && decide (x.segments.length = x.count) && (x.segments.all fun p => p.1 < x.count) then
      let b := x.segments.flatMap (·.2)
      if leAt b 0 2 = c ∧ leAt b 4 4 = s.rd R.LOOP_DIGEST_ACTIVE ∧ leAt b 8 4 = b.length then some b else none
    else none

/-- Offset of each enabled loop's record in a copy. -/
def State.recordPlaces (s : State) (b : Nat) : List (Nat × Nat) :=
  ((s.enabledLoops b).foldl (fun (acc, o) d => (acc ++ [(d, o)], o + s.recordBytes b d)) ([], 64)).1

/-- Word `i` of a record. -/
def recWord (b : Bytes) (o i : Nat) : F32 := BitVec.ofNat 32 (leAt b (o + 4 * i) 4)

/-- Status word of a record: the fourth word, the fifth of a LEADLAG. -/
def State.recStatus (s : State) (bank d : Nat) (b : Bytes) (o : Nat) : Word := recWord b o (if s.law bank d = 4 then 4 else 3)

/-- The law states of a loop as a record gives them (Table 7.4). -/
def recLaw (law nres : Nat) (x : LoopState) (w : Nat → F32) : LoopState :=
  match law with
  | 4 => { x with out := w 0, lead := w 1, ePrev := w 2, spEff := w 3 }
  | 3 => { x with out := w 0, integ := w 1, spEff := w 2, dterm := w 4, gPrev := w 5 }
  | 2 =>
    { x with out := w 0, integ := w 1, spEff := w 2, y0 := w 4, z0 := w 5
             y1 := if 1 < nres then w 6 else 0, z1 := if 1 < nres then w 7 else 0
             y2 := if 2 < nres then w 8 else 0, z2 := if 2 < nres then w 9 else 0 }
  | _ => { x with out := w 0, integ := w 1, spEff := w 2 }

/-- The policy behind a status word: its state code, and for RECOVERING the policy this seat has in progress or, with
none, the one that the descriptor's POLICY `pol` starts, fallen to RAMP_TO_SAFE where SUBSTITUTED is clear (Table
7.11). -/
def recPolicy (st : Word) (own pol : Nat) : Nat :=
  let code := st.toNat % 16
  if 2 ≤ code ∧ code ≤ 5 then code
  else if code ≠ 7 then 0
  else if own ≠ 0 then own
  else match pol with | 1 => 2 | 2 => (if st.getLsbD 9 then 4 else 3) | 3 => 5 | _ => 3

/-- What a status word says of a loop. -/
def recState (st : Word) (pol : Nat) (x : LoopState) : LoopState :=
  { x with live := x.live || [1, 4, 7].contains (st.toNat % 16), atLimit := st.getLsbD 8, hold := if st.getLsbD 5 then some (x.out, st.getLsbD 6, st.getLsbD 7) else none
           policy := recPolicy st x.policy pol
           clean := if st.toNat % 16 = 7 then max 1 x.clean else 0, suspended := decide (st.toNat % 16 = 6) }

/-- Loop `d` as the copy gives it (R370). What the record does not carry of a policy, and the values behind the stuck
detector, stay as this seat formed them. -/
def State.adoptLoop (s : State) (bank d : Nat) (b : Bytes) (o : Nat) : State :=
  let st := s.recStatus bank d b o
  let x := recLaw (s.law bank d) (s.nres bank d) (s.loopAt d) (recWord b o)
  (s.setLoop d (recState st (s.descByte bank d 3 % 4) x)).setReg (0x21000 + 4 * d) (st &&& 0xFFFFFF3F)

/-- Deviation of loop `d` against a record, as a fraction of its output span (R375). -/
def State.deviation (s : State) (bank d : Nat) (b : Bytes) (o : Nat) : Rat :=
  let span := fRat (s.coef bank d 80) - fRat (s.coef bank d 76)
  let dv := fRat (s.loopAt d).out - fRat (recWord b o 0)
  (if dv < 0 then -dv else dv) / span

/-- Does loop `d` mismatch its record (R375)? -/
def State.loopDiffers (s : State) (bank d : Nat) (b : Bytes) (o : Nat) : Bool :=
  let st := (s.recStatus bank d b o).toNat
  let own := (s.reg (0x21000 + 4 * d)).toNat
  decide (mkRat (s.rd R.RED_CMP_TOL) 65536 < s.deviation bank d b o) || decide (st % 16 ≠ own % 16) ||
    st.testBit 8 != own.testBit 8 || st.testBit 5 != own.testBit 5

/-- HEALTH by Table 14.7. -/
def State.healthNow (s : State) : Nat :=
  if decide (s.role = .solo) || !s.is R.RED_STAT_LINK_UP || decide (s.red.compared < 16) then 0
  else if !s.red.diverged.isEmpty then 3
  else if s.red.history.all (!·) && decide (8 ≤ s.red.copies.length) && (s.red.copies.take 8).all id then 1
  else 2

/-- The standby sends HEALTH (Table 14.8). -/
def State.sendHealth (s : State) (c loops bad first : Nat) (dev : F32) (whole late : Bool) : State :=
  s.sendOne 5 s.cycleNum (layBytes 16 [(0, 2, c), (2, 2, loops), (4, 2, bad), (6, 2, first), (8, 4, dev.toNat),
    (12, 2, s.red.diverged.length), (14, 1, s.rd R.RED_STAT_HEALTH), (15, 1, (if whole then 1 else 0) + (if late then 2 else 0))])

/-- The compare of one cycle: history, runs, DIVERGED and HEALTH (R375, R376). -/
def State.judgeCompare (s : State) (bad : List Nat) (all : List Nat) (dev : F32) : State :=
  let runs := all.foldl (fun m d =>
    SMap.put (fun _ => 0) m d (if bad.contains d then SMap.get (fun _ => 0) m d + 1 else 0)) s.red.runs
  let gone := bad.filter fun d => decide (s.rd R.RED_CTL_MIS_N ≤ SMap.get (fun _ => 0) runs d) && !s.red.diverged.contains d
  let clean := if bad.isEmpty then s.red.clean + 1 else 0
  let hist := ((!bad.isEmpty) :: s.red.history).take 1024
  let div := if 1024 ≤ clean then [] else s.red.diverged ++ gone
  let first := bad.headD 0xFFFF
  let s := { s with red := { s.red with runs := runs, clean := clean, history := hist, diverged := div, compared := s.red.compared + 1 } }
  let s := (s.wr R.RED_HEALTH_MISMATCH_CYC (hist.filter id).length).wr R.RED_HEALTH_FIRST_LOOP first
  let was := s.rd R.RED_STAT_HEALTH
  let now := s.healthNow
  let s := s.setHealth now first dev
  s.level 0x147 (div.headD 0) (decide (was = 3)) (decide (now = 3))

/-- Records of a copy taken over by every loop. -/
def State.adoptCopy (s : State) (b : Bytes) : State :=
  let bank := s.bank
  each (s.recordPlaces bank) (fun s (d, o) => s.adoptLoop bank d b o) s

/-- The records of a copy that are compared: loop and place (R371, R375). -/
def State.compared (s : State) (late : Bool) : List (Nat × Nat) :=
  if late then [] else (s.recordPlaces s.bank).filter fun (d, _) => decide ((s.loopAt d).last = s.sys.k)

/-- The loops of a copy that differ from this seat's. -/
def State.mismatched (s : State) (b : Bytes) (both : List (Nat × Nat)) : List Nat :=
  (both.filter fun (d, o) => s.loopDiffers s.bank d b o).map (·.1)

/-- The largest deviation of the loops compared. -/
def State.copyDeviation (s : State) (b : Bytes) (both : List (Nat × Nat)) : F32 :=
  fOfRat ((both.map fun (d, o) => s.deviation s.bank d b o).foldl max 0)

/-- A complete copy: compared unless its cycle is left out, adopted, and reported (R370, R371, R375, R377). -/
def State.takeCopy (s : State) (c : Nat) (b : Bytes) (late : Bool) : State :=
  let s := s.noteCopy true
  let s := { s with red := { s.red with lastCopy := some b } }
  let s := s.wr R.RED_COPY_SIZE (min 65535 b.length)
  let both := s.compared late
  let bad := s.mismatched b both
  let dev := s.copyDeviation b both
  let s := s.when (!late) fun s => s.judgeCompare bad (both.map (·.1)) dev
  let s := s.adoptCopy b
  (s.sendHealth c both.length bad.length (bad.headD 0xFFFF) dev true late).judgeTake

/-- A copy that is not complete (R370). -/
def State.missCopy (s : State) (c : Nat) (late : Bool) : State :=
  let s := (s.noteCopy false).inc R.RED_COPY_INCOMPLETE
  let s := s.setHealth s.healthNow 0xFFFF 0
  (s.sendHealth c 0 0 0xFFFF 0 false late).judgeTake

/-- The standby's compute window of cycle k + 1 opens on the copy of cycle k (R370, R375, R377). A halted engine only
keeps the copy (R417). -/
def State.judgeCopy (s : State) : State :=
  if decide (s.role ≠ .standby) || !s.is R.RED_STAT_LINK_UP || decide (s.power ≠ .run) then s
  else
    let c := (s.sys.k + 65535) % 65536
    let late := s.red.uncompared
    let whole := s.wholeCopy c
    let s := { s with red := { s.red with copyIn := none, uncompared := false } }
    if s.loop.halted.isSome then
      match whole with
      | some b => { s with red := { s.red with lastCopy := some b } }
      | none => s
    else match whole with
      | some b => s.takeCopy c b late
      | none => s.missCopy c late

/-- The first compute window after a halt: the engine resumes from the latest complete copy, or from rest (R417). -/
def State.resumeEngine (s : State) : State :=
  if s.loop.resume then
    let s := { s with loop := { s.loop with resume := false } }
    match s.red.lastCopy with
    | some b => s.adoptCopy b
    | none => s.restLoops
  else s

/-- The holder takes the standby's HEALTH message (R376). -/
def State.healthIn (s : State) (b : Bytes) : State :=
  if decide (s.role = .active) && s.is R.RED_STAT_LINK_UP && decide (b.length = 16) then
    s.setHealth (leAt b 14 1 % 4) (leAt b 6 2) (BitVec.ofNat 32 (leAt b 8 4))
  else s

/-! ### Mirrored commands (R371) -/

/-- A MIRROR arrives: descriptor, STATUS, EFFECT_CYCLE and admitted value. -/
def State.mirrorIn (s : State) (b : Bytes) : State :=
  if decide (s.role ≠ .standby) || decide (b.length ≠ 36) then s
  else
    let d : Desc := { opcode := BitVec.ofNat 8 (leAt b 0 1), flags := BitVec.ofNat 8 (leAt b 1 1), tag := BitVec.ofNat 16 (leAt b 2 2)
                      ops := (b.drop 4).take 20 }
    let m : Mirror := { desc := d, status := leAt b 24 1, effect := s.fullCycle (leAt b 28 2), value := BitVec.ofNat 32 (leAt b 32 4) }
    { s with red := { s.red with mirrors := s.red.mirrors ++ [m] } }

/-- One mirrored command carried out at its mark, the present one `k`. CELL_SERVICE and ENERGY_RECORD act on the seat
that received them. -/
def State.carryOut (s : State) (m : Mirror) : State :=
  let op := m.desc.opcode.toNat
  if op = 0x20 then s.stageSetpoint (m.desc.le 4 2) m.value
  else if op = 0x21 then
    { s with loop := { s.loop with staged := s.loop.staged ++ [(s.rd R.NRG_OUT_OUT_BASE + m.desc.le 4 1, m.value)] } }
  else if op = 0x30 then s.acceptCommit (m.desc.le 4 1)
  else if op = 0x02 then
    match Power.ofReq (m.desc.le 4 1) with
    | some .off => s
    | some p => { s with sys := { s.sys with follow := some p } }
    | none => s
  else if op = 0x43 || op = 0x51 then s
  else { s with hst := { s.hst with due := s.hst.due ++ [{ desc := m.desc, value := m.value, mark := s.sys.k }] } }

/-- Mirrored commands whose mark has come, in the order received; one that came after its mark is counted, and its
cycle is not compared (R371). -/
def State.runMirrors (s : State) : State :=
  let k := s.sys.k
  let now := s.red.mirrors.filter fun m => m.effect ≤ k
  let s := { s with red := { s.red with mirrors := s.red.mirrors.filter fun m => !(m.effect ≤ k) } }
  each now (fun s m =>
    let s := if m.effect < k then
        ({ s with red := { s.red with uncompared := true } }).inc R.RED_CNT_MIRROR_LATE else s
    s.carryOut m) s

/-! ### Role swaps (R378 to R380) -/

/-- First cycle whose mark lies at or after plant time `t` and that is at least 2 after the present one. -/
def State.swapCycle (s : State) (t : Nat) : Nat :=
  if t = 0 then s.sys.k + 2
  else
    let p : Int := s.periodNs
    let j := ((t : Int) - s.sys.epoch + p - 1) / p
    max (s.sys.k + 2) (j + s.sys.epochK).toNat

/-- The refusal of a swap beside its operands (Table 14.9). -/
def State.swapRefused (s : State) (healthy : Bool) : Option Nat :=
  if !s.paired then some 0x0A01
  else if !s.is R.RED_STAT_LINK_UP then some 0x0A02
  else if !s.is R.RED_PARTNER_TAKE_READY || !(leAt s.red.partner 3 1).testBit 4 then some 0x0A03
  else if !healthy then some 0x0A04
  else if s.red.swap.isSome || s.sys.newPeriod.isSome || s.loop.commit.isSome || !(s.keptOf 0x30).isEmpty then some 0x0A05
  else none

/-- A swap accepted: cycle s is announced to the partner (R379). -/
def State.swapStart (s : State) (t : Nat) (watchdog : Bool) : State :=
  let c := s.swapCycle t
  let x : Swap := { s := c, watchdog := watchdog, released := false, confirmed := false }
  let s := ({ s with red := { s.red with swap := some x } }).wrB R.RED_STAT_SWAP_PENDING true
  s.sendNotice s.claim 5 c

/-- ROLE_SWAP (R378, Table 14.9). -/
def ownSwap : Owner := fun c s =>
  let t := c.desc.le 8 8
  if decide (t ≠ 0) && (decide (t < c.fetchTime) || decide (c.fetchTime + 100000000 < t)) then (s, vBad 7)
  else match s.swapRefused (decide (s.rd R.RED_STAT_HEALTH = 1)) with
    | some det => (s, vMode det)
    | none => (s.swapStart t false, { status := .ok, effect := some ((s.swapCycle t + 1) % 65536) })

/-- A NOTICE of the partner: its claim state; with cause 5, the proposal or the confirmation of a swap (R365, R379). -/
def State.noticeIn (s : State) (b : Bytes) : State :=
  if !s.paired || decide (b.length ≠ 4) then s
  else
    let claim := leAt b 0 1 % 4
    let cause := leAt b 1 1
    let c := s.fullCycle (leAt b 2 2)
    let s := s.when (decide (s.rd R.RED_PARTNER_CLAIM = 2) && decide (claim = 0)) fun s => s.noteSent (s.windowsAt s.nowNs).toNat
    let s := s.partnerClaim claim
    if cause ≠ 5 then s
    else match s.red.swap with
      | some x =>
        if s.gateOpen && decide (x.s % 65536 = c % 65536) then { s with red := { s.red with swap := some { x with confirmed := true } } } else s
      | none =>
        if decide (s.role = .standby) && decide (claim = 2) && s.is R.RED_STAT_TAKE_READY then
          let x : Swap := { s := c, watchdog := false, released := false, confirmed := true }
          (({ s with red := { s.red with swap := some x } }).wrB R.RED_STAT_SWAP_PENDING true).sendNotice s.claim 5 c
        else s

/-- APPLY of cycle s: the holder releases its claim, or aborts an unconfirmed swap (R379, R380). -/
def State.swapRun (s : State) : State :=
  match s.red.swap with
  | some x =>
    if s.gateOpen && !x.released && decide (x.s ≤ s.sys.k) then
      if x.confirmed then ({ s with red := { s.red with swap := some { x with released := true } } }).releaseClaim 5
      else s.swapEnd 2
    else s
  | none => s

/-- The swap has ended, or the partner's gate is not open in time (R380). -/
def State.swapDone (s : State) : State :=
  match s.red.swap with
  | some x =>
    let ok := if x.released then decide (s.rd R.RED_PARTNER_CLAIM = 2) else s.gateOpen
    if !x.released && decide (s.role = .active) && !x.confirmed then s
    else if ok then (if x.released then s.inc R.RED_STAT_SWITCHES else s).swapEnd 0
    else (s.swapEnd 1).raise 0x148 0
  | none => s

end Sys2Proof.Machine
end

