-- ==== Sys2Proof/Machine/Sec.lean ====
section
/-! DEFINITION. Lifecycle fuses, the protected-settings image, signed records, debug levels and unlocking (R404 to R421,
R436, R265, R266). -/

set_option Elab.async false

namespace Sys2Proof.Machine

open Sys2Proof

/-! ### Fuses (R404, R405, R409) -/

/-- Is an 8-bit fuse row read as set: 5 or more bits, or marginal (R405)? -/
def rowSet (n : Nat) : Bool := 2 ≤ n

/-- Is an 8-bit fuse row marginal? -/
def rowMarginal (n : Nat) : Bool := 2 ≤ n && n ≤ 4

/-- Lifecycle that the fuses read (Table 16.1). -/
def State.lifecycle (s : State) : Nat :=
  if rowSet s.sec.rowRetired then 3 else if rowSet s.sec.rowLocked then 2 else if rowSet s.sec.rowOpen then 1 else 0

/-- Key hash of an owner slot, when programmed. -/
def State.keySlot (s : State) (k : Nat) : Option Bytes := (s.sec.slots.find? fun p => p.1 = k).map (·.2)

/-- Bits set in the revoke row of a slot. -/
def State.revokeRow (s : State) (k : Nat) : Nat := SMap.get (fun _ => 0) s.sec.revoke k

/-- Is an owner slot programmed and not revoked? -/
def State.slotLive (s : State) (k : Nat) : Bool := (s.keySlot k).isSome && !rowSet (s.revokeRow k)

/-- Bits of the slots that satisfy `p`. -/
def slotMask (p : Nat → Bool) : Nat := ([0, 1, 2, 3].map fun k => if p k then 2 ^ k else 0).foldl (· + ·) 0

/-- Programmed slots as a mask. -/
def State.programmed (s : State) : Nat := slotMask fun k => (s.keySlot k).isSome

/-- Revoked slots as a mask. -/
def State.revoked (s : State) : Nat := slotMask fun k => rowSet (s.revokeRow k)

/-- Default debug level by lifecycle (Table 16.7). -/
def debugDefault (lc : Nat) : Nat := if lc = 0 then 3 else if lc = 1 then 1 else 0

/-- Owner unlock ceiling by lifecycle, none where Table 16.7 gives none. -/
def ownerCeiling (lc : Nat) : Option Nat := if lc = 1 ∨ lc = 2 then some 2 else none

/-- Vendor unlock ceiling by lifecycle. -/
def vendorCeiling (lc : Nat) : Option Nat := if lc = 1 ∨ lc = 3 then some 3 else none

/-- Registers that show the fuses (R422). -/
def State.showFuses (s : State) : State :=
  let s := s.wr R.SEC_LC_STATE s.lifecycle
  let s := ((s.wr R.SEC_KEYS_PROGRAMMED s.programmed).wr R.SEC_KEYS_REVOKED s.revoked).wrB R.SEC_KEYS_VENDOR true
  s.wr R.SEC_ROLLBACK_COUNTER s.sec.counter

/-! ### Debug levels (R415, R420) -/

/-- The power bound of an interface, 0 PCIe and 1 JTAG (R415). -/
def State.debugBound (s : State) (i : Nat) : Nat :=
  match s.power with
  | .run => 2
  | .hold => 3
  | .boot => 3
  | .towpath => 1
  | .off => if i = 1 && decide (s.sys.railsOk = 0x3F) then 3 else 0

/-- Fields of the level granted and in force of an interface. -/
def grantFld (i : Nat) : Fld := if i = 0 then R.SEC_DBG_STAT_PCIE_GRANT else R.SEC_DBG_STAT_JTAG_GRANT
/-- Level in force. -/
def nowFld (i : Nat) : Fld := if i = 0 then R.SEC_DBG_STAT_PCIE_NOW else R.SEC_DBG_STAT_JTAG_NOW
/-- Lockout after three failed responses. -/
def lockFld (i : Nat) : Fld := if i = 0 then R.SEC_DBG_STAT_LOCKOUT_PCIE else R.SEC_DBG_STAT_LOCKOUT_JTAG

/-- Debug level in force on an interface. -/
def State.debugLevel (s : State) (i : Nat) : Nat := min (s.rd (grantFld i)) (s.debugBound i)

/-- The level shown made to agree with the level in force; DEBUG_LEVEL with a cause when it changes, or when `always`.
-/
def State.showLevel (s : State) (i cause : Nat) (always : Bool) : State :=
  let old := s.rd (nowFld i)
  let new := s.debugLevel i
  let s := s.wr (nowFld i) new
  if old ≠ new || always then s.event 0xC 4 [(16, 1, i), (17, 1, old), (18, 1, new), (19, 1, cause)] else s

/-- The levels after a change of the power bound (R420). -/
def State.showLevels (s : State) : State := (s.showLevel 0 3 false).showLevel 1 3 false

/-- The default levels at a main-domain reset (R415). -/
def State.resetLevels (s : State) : State :=
  let d := debugDefault s.lifecycle
  let s := s.wr R.SEC_DBG_STAT_DEFAULT d
  let s := each [0, 1] (fun s i => (s.wr (grantFld i) d).wr (nowFld i) (min d (s.debugBound i))) s
  { s with sec := { s.sec with challenges := [], fails := [], raised := false } }

/-- A debug access that its level or a condition does not allow (R416). -/
def State.debugRefused (s : State) (i : Nat) : State :=
  (s.inc R.SEC_DBG_STAT_REFUSED).raise 0x186 i

/-- The 64-byte challenge (R419). -/
def State.challengeBytes (s : State) (i level : Nat) (rand : Nat) : Bytes :=
  layBytes 64 [(0, 1, 1), (1, 1, level), (2, 1, i), (3, 1, s.rd R.SEC_LC_STATE), (8, 8, Config.deviceUid), (16, 32, rand),
    (48, 8, s.plantNs)]

/-- A challenge issued on interface `i`. -/
def State.issueChallenge (s : State) (i level : Nat) : Bytes × State :=
  let (rand, s) := s.fresh 256
  let b := s.challengeBytes i level rand
  let now := s.tsn.local_
  let c : Challenge := { bytes := b, level := level, since := now, fresh := true }
  (b, { s with sec := { s.sec with challenges := SMap.ins s.sec.challenges i c } })

/-- Does a key, by its hash, unlock a level (R420)? -/
def State.keyUnlocks (s : State) (key : Bytes) (level : Nat) : Bool :=
  let h := sha256 key
  let lc := s.rd R.SEC_LC_STATE
  let within (c : Option Nat) : Bool := match c with
    | some n => decide (level ≤ n)
    | none => false
  (within (ownerCeiling lc) && [0, 1, 2, 3].any fun k => s.slotLive k && s.keySlot k == some h) ||
    (within (vendorCeiling lc) && h == Config.vendorHash)

/-- A failed response: the fault, and the lockout at the third (R420). -/
def State.failResponse (s : State) (i : Nat) : State :=
  let n := SMap.get (fun _ => 0) s.sec.fails i + 1
  let s := { s with sec := { s.sec with fails := SMap.ins s.sec.fails i n } }
  (s.wrB (lockFld i) (s.is (lockFld i) || decide (3 ≤ n))).raise 0x184 i

/-- A level granted on interface `i` (R420). -/
def State.grant (s : State) (i level : Nat) : State :=
  let s := (s.wr (grantFld i) level).showLevel i 1 true
  let s := { s with sec := { s.sec with raised := s.sec.raised || decide (s.rd R.SEC_DBG_STAT_DEFAULT < level) } }
  s.raise 0x185 (16 * i + level)

/-- A response on interface `i`: granted, or the DETAIL of its refusal (R420). -/
def State.answer (s : State) (i : Nat) (resp : Bytes) : State × Option Nat :=
  match s.sec.challenges.find? fun p => p.1 = i with
  | none => (s.failResponse i, some 0x0C04)
  | some (_, c) =>
    if !c.fresh || decide (c.since + 30000000000 < s.tsn.local_) then (s.failResponse i, some 0x0C04)
    else
      let s := { s with sec := { s.sec with challenges := SMap.ins s.sec.challenges i { c with fresh := false } } }
      let key := resp.take 64
      if s.keyUnlocks key c.level && ecdsaOk key (sha256 c.bytes) ((resp.drop 64).take 64) then (s.grant i c.level, none)
      else (s.failResponse i, some 0x0C03)

/-- RELOCK: the default at once (R420). -/
def State.relock (s : State) (i : Nat) : State :=
  (s.wr (grantFld i) (s.rd R.SEC_DBG_STAT_DEFAULT)).showLevel i 2 false

/-- Refusal of a CHALLENGE: lockout, or a level above both ceilings (R420). -/
def State.challengeRefused (s : State) (i level : Nat) : Option Nat :=
  let lc := s.rd R.SEC_LC_STATE
  let top := max ((ownerCeiling lc).getD 0) ((vendorCeiling lc).getD 0)
  if s.is (lockFld i) then some 0x0C06
  else if ((ownerCeiling lc).isNone && (vendorCeiling lc).isNone) || decide (top < level) then some 0x0C05
  else none

/-- DEBUG_UNLOCK (R419, R420); `resp` is what the buffer of a RESPONSE holds. -/
def ownUnlock (resp : Bytes) : Owner := fun c s =>
  let op := c.desc.le 4 1
  let i := c.desc.le 6 1
  let level := c.desc.le 5 1
  if op = 0 then
    match s.challengeRefused i level with
    | some det => (s, { status := .auth, detail := det })
    | none =>
      let (b, s) := s.issueChallenge i level
      (s.emit (.record (c.desc.le 8 8) b), vOk)
  else if op = 1 then
    match s.answer i resp with
    | (s, some det) => (s, { status := .auth, detail := det })
    | (s, none) => (s, vOk)
  else (s.relock i, vOk)

/-- The same exchange through the JTAG DBG_UNLOCK register, whose bytes are those of the command (R419). A request
that the command would refuse has no effect beside what the refusal itself does. -/
def State.jtagUnlock (s : State) (ops : Bytes) (resp : Bytes) : State :=
  let d : Desc := { opcode := 0x91, flags := 0, tag := 0, ops := ops }
  let op := d.le 4 1
  let i := d.le 6 1
  if (firstOf [reservedOk d [(7, 1), (18, 6)], need (op = 0 || d.zero 5 1) 5, need (op < 3) 7, need (i < 2) 7,
      need (op ≠ 0 || d.le 5 1 < 4) 7]).isSome then s
  else if op = 0 then
    match s.challengeRefused i (d.le 5 1) with
    | some _ => s
    | none =>
      let (b, s) := s.issueChallenge i (d.le 5 1)
      { s with sec := { s.sec with jtagOut := b } }
  else if op = 1 then (s.answer i resp).1
  else s.relock i

/-! ### The Loop Engine under debug (R417) -/

/-- May the engine be halted: the claim RELEASED in a pair, the level 2 (R416, R417)? -/
def State.mayHalt (s : State) (i : Nat) : Bool := s.paired && decide (s.claim = 0) && decide (2 ≤ s.debugLevel i)

/-- Enabled loops in the order of their evaluation. -/
def State.loopOrder (s : State) : List Nat :=
  (List.range 32).flatMap fun x => s.stageLoops s.bank x

/-- The engine halts at a loop. -/
def State.haltAt (s : State) (i d : Nat) : State :=
  let s := { s with loop := { s.loop with halted := some d }, sec := { s.sec with haltBy := i } }
  s.wrB R.SEC_DBG_STAT_LE_HALTED true

/-- A halt request on interface `i`: at the end of the loop evaluation in progress, the last of the order (R417). -/
def State.leHalt (s : State) (i : Nat) : State :=
  if !s.mayHalt i then s.debugRefused i
  else if s.loop.halted.isSome then s
  else s.haltAt i (s.loopOrder.getLast?.getD 0)

/-- A halt ends, its breakpoints cleared (R417). -/
def State.leResume (s : State) : State :=
  let s := { s with sec := { s.sec with brk := none } }
  if s.loop.halted.isSome then
    ({ s with loop := { s.loop with halted := none, resume := true } }).wrB R.SEC_DBG_STAT_LE_HALTED false
  else s

/-- A halt ends when the claim leaves RELEASED or the level of its interface falls below 2 (R417). -/
def State.judgeHalt (s : State) : State :=
  if s.loop.halted.isSome || s.sec.brk.isSome then
    if s.mayHalt s.sec.haltBy then s else s.leResume
  else s

/-- A breakpoint set or cleared on interface `i`. -/
def State.setBreak (s : State) (i : Nat) (b : Option Nat) : State :=
  if s.mayHalt i then { s with sec := { s.sec with brk := b, haltBy := i } } else s.debugRefused i

/-- The loop after `d` in the order of evaluation, the first after the last. -/
def nextLoop (order : List Nat) (d : Nat) : Option Nat :=
  match order.dropWhile (· ≠ d) with
  | _ :: e :: _ => some e
  | _ => order.head?

/-- A single step evaluates one loop in both copies; `mismatch` is what their comparison finds (R214, R417). -/
def State.leStep (s : State) (i : Nat) (mismatch : Bool) : State :=
  match s.loop.halted with
  | none => s.debugRefused i
  | some d =>
    if !s.mayHalt i then s.debugRefused i
    else match nextLoop s.loopOrder d with
      | none => s
      | some e =>
        let s := if mismatch then s.lockstepMismatch e else s.runLoop s e
        { s with loop := { s.loop with halted := some e } }

/-- A pin-driving boundary-scan instruction (R416, R418): boot not DONE, or OFF with the main rails present, at level
2. -/
def State.boundaryScan (s : State) : State :=
  if decide (2 ≤ s.debugLevel 1) && (!s.bootDone || decide (s.power = .off)) then { s with sec := { s.sec with scan := true } }
  else s.debugRefused 1

/-- Test-Logic-Reset: every pin returns to its state of Table 2.4 (R418). -/
def State.testReset (s : State) : State := { s with sec := { s.sec with scan := false } }

/-! ### Signed records (R265, R266, R413, R414) -/

/-- Is a record being prepared? The signing engine prepares one at a time (R413). -/
def State.signing (s : State) : Bool := s.nrg.record.isSome || s.sec.attest.isSome

/-- A record asked for by a command. -/
def State.recordJob (s : State) (c : Cmd) : RecordJob :=
  { addr := c.desc.le 4 8, tag := c.desc.tag.toNat, nonce := layBytes 4 [(0, 4, c.desc.le 16 4)], mark := s.sys.k + 1, body := none }

/-- BOOT_ID: a random value drawn at power-on reset (Table 9.7). -/
def State.bootId (s : State) : Nat := Config.freeNat s.sec.bootTicket % 2 ^ 64

/-- SETTINGS: the low 32 bits of the image digest (R412). -/
def State.settingsId (s : State) : Nat := (s.reg 0x3F010).toNat

/-- The signature of a record's body: ECDSA P-256 with the device key over its SHA-256 digest, with a number from 1 to
n − 1 that the signing engine draws at random (R266, R413, R414, log entry 16). -/
def State.signature (s : State) (body : Bytes) : Bytes × State :=
  let (v, s) := s.fresh 256
  (ecdsaSign (Config.deviceKey % (p256N - 1) + 1) (v % (p256N - 1) + 1) (sha256 body), s)

/-- TIME_QUAL of a record. -/
def State.timeQual (s : State) : Nat :=
  (if s.domLocked s.selected then 1 else 0) + (if s.is R.CLK_REF_STAT_HOLDOVER then 2 else 0) + (if s.timeValid then 0 else 4)

/-- Bytes 0 to 463 of the energy record of the present mark (Table 9.7). -/
def State.energyBody (s : State) (j : RecordJob) : Bytes :=
  let en := (s.stringsOn.map fun i => 2 ^ i).foldl (· + ·) 0
  layBytes 464 ([(0, 1, 1), (2, 2, 528), (4, 4, s.nrg.recordSeq.toNat), (8, 8, s.bootId), (16, 2, s.rd R.SYS_RESET_CAUSE_COUNT),
    (18, 2, s.cycleNum), (20, 8, ux 64 (s.markTime s.sys.k)), (28, 1, s.timeQual),
    (29, 1, (if s.role = .standby then 1 else 0) + (if s.nrg.gapSeen then 2 else 0) + (if s.nrg.soeSeen then 4 else 0)),
    (30, 2, en), (32, 8, Config.deviceUid), (40, 4, leAt j.nonce 0 4), (44, 4, s.settingsId), (48, 8, s.nrg.pccIn),
    (56, 8, s.nrg.pccOut), (64, 8, ux 64 s.nrg.ledger.total), (72, 8, ux 64 s.nrg.ledger.relMax)] ++
    (List.range 16).flatMap fun i =>
      [(80 + 24 * i, 8, SMap.get (fun _ => 0) s.nrg.eIn i), (88 + 24 * i, 8, SMap.get (fun _ => 0) s.nrg.eOut i),
       (96 + 24 * i, 8, ux 64 (s.soeOf i))])

/-- ENERGY_RECORD (R265). -/
def ownRecord : Owner := fun c s =>
  if s.signing then (s, vBusy 0x040B)
  else
    let j := s.recordJob c
    ({ s with nrg := { s.nrg with record := some j } }, vOk)

/-- The energy record takes its content at its mark, once the ledger of the mark is known (R265). -/
def State.energyAtMark (s : State) : State :=
  match s.nrg.record with
  | some j =>
    if j.body.isNone && decide (j.mark ≤ s.sys.k) then
      let b := s.energyBody j
      { s with nrg := { s.nrg with record := some { j with body := some b }, gapSeen := false, soeSeen := false } }
    else s
  | none => s

/-- The signed energy record is written: RECORD_READY (R265, R266). -/
def State.recordReady (s : State) (ok : Bool) : State :=
  match s.nrg.record with
  | some j =>
    match j.body with
    | none => s
    | some b =>
      let (sig, s) := s.signature b
      let s := if ok then s.emit (.record j.addr (b ++ sig))
        else s.raiseWith 0x00B 0 { addr := j.addr, access := 4 }
      let q := leAt b 4 4
      let s := { s with nrg := { s.nrg with record := none, recordSeq := s.nrg.recordSeq + 1 } }
      s.event 4 8 [(16, 4, q), (20, 2, j.tag), (22, 1, if ok then 0 else 1)]
  | none => s

/-- The RWL bits of a register. -/
def RegDef.rwlMask (d : RegDef) : Word :=
  d.fields.foldl (fun m f => if f.access = .rwl then m ||| BitVec.ofNat 32 ((2 ^ f.width - 1) * 2 ^ f.lsb) else m) 0

/-- Has the register at `off` an RWL field? -/
def hasRwl (off : Nat) : Bool :=
  match regAt off with
  | some (d, _) => decide (off % 4 = 0) && decide (d.rwlMask ≠ 0)
  | none => false

/-- Offsets of every register with an RWL field, ascending. -/
def rwlRegs : List Nat := ((List.range 0x10000).map (4 * ·)).filter hasRwl

/-- Content that CONFIG_DIGEST is taken over (Table 16.6). -/
def State.configBytes (s : State) : Bytes :=
  rwlRegs.flatMap fun off =>
    let m := match regAt off with
      | some (d, _) => d.rwlMask
      | none => 0
    layBytes 8 [(0, 4, off), (4, 4, (fixedView off (s.reg off) &&& m).toNat)]

/-- Bytes 0 to 127 of the attestation record (Table 16.6). -/
def State.attestBody (s : State) (j : RecordJob) : Bytes :=
  let slot := s.rd R.SEC_IMG_STAT_SLOT
  let role := match s.role with | .solo => 0 | .active => 1 | .standby => 2
  layBytes 32 [(0, 1, 1), (1, 1, 1), (2, 2, 192), (4, 4, s.sec.attestSeq.toNat), (8, 8, s.bootId), (16, 8, Config.deviceUid),
    (24, 4, leAt j.nonce 0 4), (28, 1, s.rd R.SEC_LC_STATE), (29, 1, s.debugLevel 1 + 16 * s.debugLevel 0), (30, 1, role),
    (31, 1, (if s.is R.SEC_IMG_STAT_UNBOUND then 1 else 0) + (if s.is R.SEC_IMG_STAT_BACKUP then 2 else 0)
      + (if s.locked then 4 else 0) + (if s.sec.raised then 8 else 0))] ++
  ((List.range 8).flatMap fun w => layBytes 4 [(0, 4, s.rd (R.SEC_IMG_DIGEST w))]) ++
  layBytes 32 [(0, 1, s.sec.counter), (1, 1, s.rd R.SEC_ROLLBACK_IMAGE), (2, 1, if slot < 4 then slot else 0xFF),
    (3, 1, s.programmed + 16 * s.revoked), (4, 4, (s.reg 0).toNat), (8, 4, s.rd R.LOOP_DIGEST_ACTIVE),
    (12, 4, s.rd R.LOOP_DIGEST_STAGED), (16, 8, s.plantNs)] ++
  sha256 s.configBytes

/-- ATTEST (R413, R414). When no marks run the record holds the values at the completion. -/
def ownAttest : Owner := fun c s =>
  if s.signing then (s, vBusy 0x0C01)
  else
    let j := s.recordJob c
    let j := if s.marksRun then j else { j with body := some (s.attestBody j) }
    ({ s with sec := { s.sec with attest := some j } }, vOk)

/-- The attestation record takes its content at its mark, or at once when marks have stopped (R414). -/
def State.attestAtMark (s : State) : State :=
  match s.sec.attest with
  | some j =>
    if j.body.isNone && (decide (j.mark ≤ s.sys.k) || !s.marksRun) then
      let b := s.attestBody j
      { s with sec := { s.sec with attest := some { j with body := some b } } }
    else s
  | none => s

/-- The attestation record is written: ATTEST_READY (R414). -/
def State.attestReady (s : State) (ok : Bool) : State :=
  match s.attestAtMark.sec.attest with
  | some j =>
    match j.body with
    | none => s
    | some b =>
      let (sig, s) := s.signature b
      let s := if ok then s.emit (.record j.addr (b ++ sig))
        else s.raiseWith 0x00B 0 { addr := j.addr, access := 4 }
      let q := leAt b 4 4
      let s := { s with sec := { s.sec with attest := none, attestSeq := s.sec.attestSeq + 1 } }
      s.event 0xC 3 [(16, 4, q), (20, 2, j.tag), (22, 1, if ok then 0 else 1)]
  | none => s

/-! ### The image (R407, R408, R411) -/

/-- A section of an image: type and payload. -/
structure Section where
  typ : Nat
  data : Bytes
  deriving DecidableEq, Repr

/-- The sections of a run of bytes, at most `n`; none when the framing is invalid (Table 16.2). -/
def sectionsOf : Nat → Bytes → Option (List Section)
  | 0, b => if b.isEmpty then some [] else none
  | n + 1, b =>
    if b.isEmpty then some []
    else
      let len := leAt b 4 4
      if b.length < 8 ∨ leAt b 2 2 ≠ 0 ∨ len % 4 ≠ 0 ∨ b.length < 8 + len then none
      else (sectionsOf n (b.drop (8 + len))).map (⟨leAt b 0 2, (b.drop 8).take len⟩ :: ·)

/-- IMAGE_LEN. -/
def imageLen (b : Bytes) : Nat := leAt b 8 4

/-- Sections of an image. -/
def imageSections (b : Bytes) : Option (List Section) :=
  sectionsOf 8192 ((b.take (imageLen b - 64)).drop 128)

/-- The header's part of check 0x1: MAGIC, FORMAT, IMAGE_LEN, ACTION, fields that must be zero (Tables 16.2, 16.4). -/
def headerOk (b : Bytes) : Bool :=
  let len := imageLen b
  decide (leAt b 0 4 = 0x53504B5A) && decide (leAt b 4 1 = 1) && decide (leAt b 5 1 < 2) && decide (leAt b 6 2 = 0) &&
    decide (256 ≤ len ∧ len ≤ 65536 ∧ len % 4 = 0) && decide (leAt b 19 1 = 0) && decide (leAt b 20 1 < 3) &&
    decide (leAt b 21 1 < 16) && decide (leAt b 22 2 = 0) && (decide (leAt b 20 1 ≠ 0) || decide (leAt b 24 8 = 0)) &&
    decide (leAt b 32 32 = 0)

/-- Slot that verifies an image's key: 0 to 3 an owner slot, 8 vendor, 0xE UNBOUND (R404, Table 16.4). -/
def State.slotOf (s : State) (b : Bytes) : Option Nat :=
  let h := sha256 ((b.drop 64).take 64)
  if s.lifecycle = 0 then (if h = Config.vendorHash then some 8 else none)
  else if s.lifecycle = 1 ∧ s.programmed = 0 then some 0xE
  else [0, 1, 2, 3].find? fun k => s.slotLive k && s.keySlot k == some h

/-- First failed check of a copy, 0 none (Table 16.4). `read` is what the flash gave: none for no response. -/
def State.imageReason (s : State) (read : Option Bytes) : Nat :=
  match read with
  | none => 6
  | some b =>
    if b.length < 128 then 6
    else if !headerOk b then 1
    else if b.length < imageLen b then 6
    else if (imageSections b).isNone then 1
    else if leAt b 16 2 ≠ s.rd R.SYS_ID_PART ∨ leAt b 18 1 ≠ (s.reg 0).toNat / 256 % 256 then 2
    else if (s.slotOf b).isNone then 3
    else if !ecdsaOk ((b.drop 64).take 64) (sha256 (b.take (imageLen b - 64))) ((b.drop (imageLen b - 64)).take 64) then 4
    else if leAt b 12 4 < s.sec.counter then 5
    else 0

/-- `SYS_BOOT_STAT.CODE` of a REASON (Table 16.4). -/
def reasonCode (r : Nat) : Nat := if r = 6 then 2 else if r = 5 then 4 else 3

/-! ### Fuse actions (R405, R409) -/

/-- A fuse row as it reads after an operation that failed on every try: what it reads is open. -/
def State.badRow (s : State) (now : Nat) : Nat × State :=
  let (v, s) := s.fresh 4
  (now + v % (9 - min 8 now), s)

/-- Rows by number: 4 to 7 revoke rows, 9 to 11 the lifecycle rows (log entry 17). -/
def State.rowAt (s : State) (r : Nat) : Nat :=
  if r = 9 then s.sec.rowOpen else if r = 10 then s.sec.rowLocked else if r = 11 then s.sec.rowRetired else s.revokeRow (r - 4)

/-- The state with a row at `v` bits. -/
def State.setRow (s : State) (r v : Nat) : State :=
  if r = 9 then { s with sec := { s.sec with rowOpen := v } }
  else if r = 10 then { s with sec := { s.sec with rowLocked := v } }
  else if r = 11 then { s with sec := { s.sec with rowRetired := v } }
  else { s with sec := { s.sec with revoke := SMap.put (fun _ => 0) s.sec.revoke (r - 4) v } }

/-- Program a row to all ones; `fails` tells that it does not read back on any try. -/
def State.program (s : State) (r : Nat) (fails : Bool) : State :=
  if fails then
    let (v, s) := s.badRow (s.rowAt r)
    s.setRow r v
  else s.setRow r 8

/-- Marginal rows completed at the boot that finds them (R405). -/
def State.fixRows (s : State) (bad : List Nat) : State :=
  each [4, 5, 6, 7, 9, 10, 11] (fun s r =>
    if rowMarginal (s.rowAt r) then
      let s := s.program r (bad.contains r)
      if rowMarginal (s.rowAt r) then s.raise 0x188 r else s
    else s) s

/-- Key slot `k` programmed with a digest (Table 16.3). -/
def State.programKey (s : State) (k : Nat) (h : Bytes) : State :=
  { s with sec := { s.sec with slots := SMap.ins s.sec.slots k h } }

/-- An empty key slot programmed; a row that does not program holds nothing or a value that the spec does not give. -/
def State.programSlot (s : State) (bad : List Nat) (k : Nat) (h : Bytes) : State :=
  if (s.keySlot k).isSome then s
  else if bad.contains k then
    let (v, s) := s.fresh 257
    let s := s.when (v % 2 = 1) fun s => s.programKey k (beBytes 32 (v / 2))
    s.raise 0x182 s.lifecycle
  else s.programKey k h

/-- KEY_SLOTS sections: each selected slot that is empty is programmed. -/
def State.programSlots (s : State) (bad : List Nat) (p : Bytes) : State :=
  let sel := [0, 1, 2, 3].filter fun k => (leAt p 0 1).testBit k
  each sel.zipIdx (fun s x => s.programSlot bad x.1 ((p.drop (4 + 32 * x.2)).take 32)) s

/-- REVOKE: each named slot but the verifying one and the last unrevoked programmed one. -/
def State.revokeSlots (s : State) (bad : List Nat) (mask slot : Nat) : State :=
  each ([0, 1, 2, 3].filter fun k => mask.testBit k) (fun s k =>
    let last := s.slotLive k && [0, 1, 2, 3].all fun j => j = k || !s.slotLive j
    if k = slot || last then s.raise 0x183 k
    else if rowSet (s.revokeRow k) then s
    else
      let s := s.program (4 + k) (bad.contains (4 + k))
      if bad.contains (4 + k) then s.raise 0x182 s.lifecycle else s) s

/-- ADVANCE: the counter raised to ROLLBACK. -/
def State.advanceCounter (s : State) (bad : List Nat) (upTo : Nat) : State :=
  if s.sec.counter < upTo then
    if bad.contains 8 then
      let (v, s) := s.fresh 8
      let n := s.sec.counter + v % (upTo - s.sec.counter + 1)
      ({ s with sec := { s.sec with counter := n } }).raise 0x182 s.lifecycle
    else { s with sec := { s.sec with counter := min 128 upTo } }
  else s

/-- LIFECYCLE event. -/
def State.lifecycleEvent (s : State) (old new result : Nat) : State :=
  s.event 0xC 2 [(16, 1, old), (17, 1, new), (18, 1, result)]

/-- ACTION: 1 LOCK, 2 RETIRE, when every condition holds. -/
def State.imageAction (s : State) (bad : List Nat) (action uid slot : Nat) : State :=
  if action = 0 then s
  else
    let old := s.lifecycle
    let target := action + 1
    let live := [0, 1, 2, 3].any s.slotLive
    let ok := decide (uid = Config.deviceUid) &&
      (if action = 1 then decide (old = 1) && decide (slot < 4) && live else decide (old = 1 ∨ old = 2))
    if !ok then (s.raise 0x183 (0x10 + action)).lifecycleEvent old target 1
    else
      let row := if action = 1 then 10 else 11
      let fails := bad.contains row
      let s := s.program row fails
      let s := if s.lifecycle = 3 then { s with sec := { s.sec with keyGone := true } } else s
      if fails then (s.raise 0x182 target).lifecycleEvent old s.lifecycle 2 else s.lifecycleEvent old target 0

/-- The fuse actions of an image that has passed its checks, in the order of R409. -/
def State.fuseActions (s : State) (bad : List Nat) (b : Bytes) (secs : List Section) (slot : Nat) : State :=
  let was := (s.programmed, s.revoked)
  let s := each (secs.filter fun x => x.typ = 4) (fun s x => s.programSlots bad x.data) s
  let s := s.revokeSlots bad (leAt b 21 1) slot
  let s := if leAt b 5 1 = 1 then s.advanceCounter bad (leAt b 12 4) else s
  let s := s.imageAction bad (leAt b 20 1) (leAt b 24 8) slot
  if was = (s.programmed, s.revoked) then s
  else s.event 0xC 5 [(16, 1, s.programmed), (17, 1, s.revoked)]

/-! ### Applying the image (R408, R412) -/

/-- A skipped entry of section `i`. -/
def State.ignoreEntry (s : State) (i : Nat) : State := (s.inc R.SEC_IMG_STAT_IGNORED).raise 0x181 i

/-- The pairs of a REGISTERS section. -/
def pairsOf (b : Bytes) : List (Nat × Word) :=
  (List.range (b.length / 8)).map fun i => (leAt b (8 * i) 4, BitVec.ofNat 32 (leAt b (8 * i + 4) 4))

/-- CELL_POLICY: each value within Table 6.12. -/
def State.cellPolicy (s : State) (i : Nat) (b : Bytes) : State :=
  let h := leAt b 0 4
  let d := leAt b 4 4
  let a := leAt b 8 4
  let s := if 1 ≤ h ∧ h ≤ 255 then { s with cnl := { s.cnl with holdMax := h } } else s.ignoreEntry i
  let s := if d ≤ 10000 then { s with cnl := { s.cnl with bypassDelay := d } } else s.ignoreEntry i
  if a ≤ 1 then { s with cnl := { s.cnl with safeAction := a } } else s.ignoreEntry i

/-- The board tap table of this seat; an entry outside its ranges holds its lane OFF (R137). -/
def State.lockTaps (s : State) (b : Bytes) : State :=
  let o := if s.seatB then 16 else 0
  each [0, 1, 2, 3] (fun s i =>
    let e := leAt b (o + 4 * i) 4
    let bad := decide (8 ≤ e % 256) || decide (16 ≤ e / 256 % 256) || decide (16 ≤ e / 65536 % 256) || decide (4 ≤ e / 16777216)
    let s := { s with cnl := { s.cnl with tapTable := SMap.ins s.cnl.tapTable (24 + i) e } }
    if bad then (s.modLane (24 + i) fun l => { l with tapBad := true }).raise 0x024 (24 + i) else s) s

/-- One section applied (Table 16.3). -/
def State.applySection (s : State) (i : Nat) (x : Section) : State :=
  if x.typ = 1 then
    each (pairsOf x.data) (fun s (off, w) => if hasRwl off then s.writeFields byLoader off w else s.ignoreEntry i) s
  else if x.typ = 2 then s.cellPolicy i x.data
  else if x.typ = 3 then s.lockTaps x.data
  else if x.typ = 4 then s
  else s.ignoreEntry i

/-- The sections in image order. -/
def State.applyImage (s : State) (secs : List Section) : State :=
  each secs.zipIdx (fun s x => s.applySection x.2 x.1) s

/-- The RWL fields of a window of registers, reloaded from the retained store after a block reset (R77, R412). -/
def State.reload (s : State) (lo hi : Nat) : State :=
  match imageSections s.sec.image with
  | none => s
  | some secs =>
    each (secs.filter fun x => x.typ = 1) (fun s x =>
      each (pairsOf x.data) (fun s (off, w) =>
        if hasRwl off ∧ lo ≤ off ∧ off < hi then s.writeFields byLoader off w else s) s) s

/-- The digest of the applied image in its registers (R412). -/
def State.showDigest (s : State) (b : Bytes) : State :=
  let d := sha256 (b.take (imageLen b))
  each (List.range 8) (fun s w => s.wr (R.SEC_IMG_DIGEST w) (leAt d (4 * w) 4)) s

end Sys2Proof.Machine
end

