-- ==== Sys2Proof/Machine/Clocks.lean ====
section
/-! DEFINITION. References, loops, the backup clock, dividers and the alignment of seats (R63 to R76), but for the
effects of a loss of lock, which Machine/Power.lean holds beside the forced changes. -/

set_option Elab.async false

namespace Sys2Proof.Machine

open Sys2Proof

/-- A bit vector with bit `i` at `b`. -/
def setBit {w : Nat} (v : BitVec w) (i : Nat) (b : Bool) : BitVec w :=
  if b then v ||| BitVec.ofNat w (2 ^ i) else v &&& ~~~BitVec.ofNat w (2 ^ i)

/-- Is loop `n` locked? -/
def State.loopLocked (s : State) (n : Nat) : Bool := s.bitOf R.CLK_PLL_STAT_LOCKED n

/-- Loops of Table 3.1. -/
def clkLoops : List Nat := List.range 12

/-- A band search of loop `n` starts (R65). -/
def State.search (s : State) (n : Nat) : State :=
  (s.wrBit R.CLK_PLL_STAT_LOCKED n false).wrBit R.CLK_PLL_STAT_SEARCH n true

/-- Fault of a loss of lock of loop `n` (Table 3.4). -/
def lockSource (n : Nat) : Nat :=
  if n = 0 then 0x1A4 else if n = 1 then 0x1A5 else if n ≤ 8 then 0x1A6 else if n = 9 then 0x1A7
  else if n = 10 then 0x1A8 else 0x1A9

/-- The causes of the loop faults made to agree with the loops: a loss of lock stands until the loop locks again. -/
def State.judgeLoops (s : State) : State :=
  let s := each [0, 1, 2, 9, 10, 11] (fun s n =>
    s.setActive (lockSource n) (clkLoops.any fun m =>
      lockSource m = lockSource n && s.clk.lost.getLsbD m)) s
  s.setActive 0x1A0 (decide (s.clk.failed ≠ 0))

/-- Frequency of FAB in MHz: 500 from PLL_SYS, 100 on the backup clock (Table 3.1, R69). -/
def State.fabMhz (s : State) : Nat := if s.clk.fabBackup then 100 else 500

/-- Boot goes on from step 2 once both system loops are locked, and FAB takes its loop (Table 3.14). -/
def State.bootLoops (s : State) : State :=
  if s.sys.boot = .search ∧ s.loopLocked 0 ∧ s.loopLocked 1 then
    { s with sys := { s.sys with boot := .sram }, clk := { s.clk with fabBackup := false } }
  else s

/-- Step 6: lane, Ethernet and metering loops search; the lanes train as their loops lock (Table 3.14). -/
def State.startUp (s : State) : State :=
  let s := each ((List.range 8).map (· + 2) ++ [11]) State.search s
  let s := { s with sys := { s.sys with boot := .applied } }
  s.restartLanes

/-- Step 6 follows step 5 before anything of it ends (Table 3.14, log entry 106). -/
def State.stepSix (s : State) : State := if s.sys.boot = .settings then s.startUp else s

/-- The lanes of a quad whose loop has locked start, where its domain runs (R65, R71, R79, R84). -/
def State.quadStarts (s : State) (n : Nat) : State :=
  if decide (2 ≤ n) && decide (n ≤ 8) && !s.onBackup n && (s.sys.boot = .applied || s.sys.boot = .done) && decide (s.power ≠ .towpath)
  then s.startQuad (n - 2) else s

/-! ### References (R66, R72, R73) -/

/-- Qualified and allowed bits of reference `r`. -/
def State.refGood (s : State) (r : Nat) : Bool :=
  if r = 0 then s.is R.CLK_REF_STAT_REFA_OK && s.is R.CLK_REF_CTL_REFA_EN
  else s.is R.CLK_REF_STAT_REFB_OK && s.is R.CLK_REF_CTL_REFB_EN

/-- Reference OK bit. -/
def refOk (r : Nat) : Fld := if r = 0 then R.CLK_REF_STAT_REFA_OK else R.CLK_REF_STAT_REFB_OK

/-- Reference LOST bit. -/
def refLostFld (r : Nat) : Fld := if r = 0 then R.CLK_REF_STAT_REFA_LOST else R.CLK_REF_STAT_REFB_LOST

/-- Reference in use. -/
def State.refSel (s : State) : Nat := s.rd R.CLK_REF_STAT_SEL

/-- "Reference lost" stands while a reference that failed has not qualified again. -/
def State.judgeRefLost (s : State) : State := s.setActive 0x1A1 (decide (s.clk.refLost ≠ 0))

/-- The time domain is told the rate at which PLL_TB slews, in ns/s, at the start and at the end (R73). -/
def State.tellSlew (s : State) (rate : Int) : State := { s with tsn := { s.tsn with tbSlew := rate } }

/-- Holdover is entered; a slew in progress is abandoned (R72, R73). -/
def State.holdover (s : State) : State :=
  if s.is R.CLK_REF_STAT_HOLDOVER && !s.is R.CLK_REF_STAT_SLEWING then s
  else
    let s := ((s.wrB R.CLK_REF_STAT_HOLDOVER true).wrB R.CLK_REF_STAT_SLEWING false).wr R.CLK_REF_STAT_PHASE_ERR 0
    ((s.tellSlew 0).setActive 0x1A2 true).raise 0x1A2 0

/-- A reference that has failed and not qualified again sets its LOST bit again (R11). -/
def State.keepRefLost (s : State) : State :=
  each ([0, 1].filter fun r => s.clk.refLost.getLsbD r) (fun s r => s.wrB (refLostFld r) true) s

/-- A slew in progress is abandoned, with its remaining error, because the selector goes to the other reference, which
phase build-out takes up without a step; a qualified reference ends the holdover (R66, R73, log entry 113). -/
def State.dropSlew (s : State) : State :=
  if s.is R.CLK_REF_STAT_SLEWING then
    let s := ((s.wrB R.CLK_REF_STAT_SLEWING false).wrB R.CLK_REF_STAT_HOLDOVER false).wr R.CLK_REF_STAT_PHASE_ERR 0
    (s.tellSlew 0).setActive 0x1A2 false
  else s

/-- A reference fails (R66, R73). One that is neither qualified nor in use was not there to lose. -/
def State.refFails (s : State) (r : Nat) : State :=
  let inUse := decide (s.refSel = r) && s.sys.refFound
  if 1 < r ∨ (!s.is (refOk r) ∧ (!inUse ∨ s.clk.refLost.getLsbD r)) then s
  else
    let s := (s.wrB (refOk r) false).wrB (refLostFld r) true
    let s := { s with clk := { s.clk with refLost := setBit s.clk.refLost r true } }
    let s := s.judgeRefLost.raise 0x1A1 r
    if !inUse then s
    else if s.refGood (1 - r) then
      ({ s with clk := { s.clk with failedOver := true } }).dropSlew.wr R.CLK_REF_STAT_SEL (1 - r)
    else s.holdover

/-- The selector after a change of qualification or of `CLK_REF_CTL`, outside holdover: the preferred reference
whenever it is qualified, but after a failure only with REVERT (R66). A reference in use that `CLK_REF_CTL` disables
while no other is good stays in use, and a write of the enables in holdover changes nothing until a reference
qualifies: the rule says neither (log entry 113, DESIGN CHOICE). -/
def State.judgeRef (s : State) : State :=
  let p := s.rd R.CLK_REF_CTL_PREF
  if s.is R.CLK_REF_STAT_HOLDOVER || !s.sys.refFound then s
  else if !s.refGood s.refSel && s.refGood (1 - s.refSel) then s.wr R.CLK_REF_STAT_SEL (1 - s.refSel)
  else if s.refSel = p then { s with clk := { s.clk with failedOver := false } }
  else if s.refGood p && (s.is R.CLK_REF_CTL_REVERT || !s.clk.failedOver) then
    ({ s with clk := { s.clk with failedOver := false } }).wr R.CLK_REF_STAT_SEL p
  else s

/-- A reference qualifies; `err` is the phase error that PLL_TB finds on leaving holdover, in 10 ps (R66, R73). -/
def State.refQualifies (s : State) (r : Nat) (err : Int) : State :=
  if 1 < r then s
  else
    let s := s.wrB (refOk r) true
    let s := ({ s with clk := { s.clk with refLost := setBit s.clk.refLost r false } }).judgeRefLost
    if s.is R.CLK_REF_STAT_HOLDOVER && !s.is R.CLK_REF_STAT_SLEWING && s.refGood r then
      let rate : Int := s.rd R.CLK_SLEW_MAX_RATE
      (((s.wr R.CLK_REF_STAT_SEL r).wr R.CLK_REF_STAT_PHASE_ERR (ux 16 err)).wrB R.CLK_REF_STAT_SLEWING true).tellSlew
        (if err < 0 then -rate else rate)
    else s.judgeRef

/-- PLL_TB has slewed its error out and leaves holdover (R73). -/
def State.slewComplete (s : State) : State :=
  if s.is R.CLK_REF_STAT_SLEWING then
    let s := ((s.wrB R.CLK_REF_STAT_SLEWING false).wrB R.CLK_REF_STAT_HOLDOVER false).wr R.CLK_REF_STAT_PHASE_ERR 0
    ((s.tellSlew 0).setActive 0x1A2 false).judgeRef
  else s

/-! ### The return from the backup clock (R71) -/

/-- The domains of loop `n` return to their own loop. -/
def State.returnDomain (s : State) (n : Nat) : State :=
  let s := { s with clk := { s.clk with away := setBit s.clk.away n false } }
  let s := (s.wrBit R.CLK_FB_STAT_DOMAIN n false).judgeLoops
  if n = 0 then ({ s with clk := { s.clk with fabBackup := false } }).restLoops
  else if 2 ≤ n ∧ n ≤ 8 then
    each ((List.range 4).map (4 * (n - 2) + ·)) (fun s l => (s.modLane l fun x => { x with quadOff := false }).restartLane l) s
  else s

/-- A band search finds a band (R65). A loop whose search had failed without its having lost lock takes its domains
now, for which R71 asks no return (log entry 113). During boot step 2 both system loops locked lead to step 3 (Table
3.14). -/
def State.searchDone (s : State) (n : Nat) : State :=
  let s := s.stepSix
  if decide (n < 12) && s.bitOf R.CLK_PLL_STAT_SEARCH n then
    let late := s.clk.failed.getLsbD n && !s.clk.lost.getLsbD n && !s.clk.away.getLsbD n
    let s := (s.wrBit R.CLK_PLL_STAT_SEARCH n false).wrBit R.CLK_PLL_STAT_LOCKED n true
    let s := { s with clk := { s.clk with failed := setBit s.clk.failed n false, lost := setBit s.clk.lost n false } }
    let s := if late then s.returnDomain n else s
    (s.judgeLoops.quadStarts n).bootLoops
  else s

/-- Accepted returns take effect (R71). -/
def State.takeReturns (s : State) : State :=
  let rs := clkLoops.filter fun n => s.clk.returning.getLsbD n
  each rs State.returnDomain { s with clk := { s.clk with returning := 0 } }

/-- One bit written in `CLK_RETURN` (R71). -/
def State.askReturn (s : State) (n : Nat) : State :=
  if !s.onBackup n then s
  else if s.loopLocked n then { s with clk := { s.clk with returning := setBit s.clk.returning n true } }
  else s.inc R.CLK_FB_STAT_RET_REFUSED

/-- A write of `CLK_RETURN`. -/
def State.clkReturn (s : State) (v : Word) : State := each (clkLoops.filter fun n => v.getLsbD n) State.askReturn s

/-! ### Dividers (R74, R75) -/

/-- A write of `CLK_UPDATE` with GO: the staged dividers are frozen, or the update is refused as a whole. -/
def State.clkUpdate (s : State) (v : Word) : State :=
  if !v.getLsbD 0 || s.is R.CLK_UPDATE_BUSY then s
  else
    let stage := (s.reg 0x4020).toNat % 256
    let now := (s.reg 0x4024).toNat % 256
    let tb := s.onBackup 1 || s.clk.stopped.getLsbD 1
    let eth := s.onBackup 9 || s.clk.stopped.getLsbD 9
    if (decide (stage / 16 ≠ now / 16) && tb) || (decide (stage % 4 ≠ now % 4) && eth) then s.wrB R.CLK_UPDATE_REFUSED true
    else ({ s with clk := { s.clk with update := some (BitVec.ofNat 8 stage) } }).wrB R.CLK_UPDATE_BUSY true

/-- The update is applied: `CLK_DIV_NOW`; a port whose rate changes goes down, and shows its new rate when it comes up
again (R74, R75). A domain that has lost its loop since GO does not undo it: the rule refuses an update and gives the
refusal no moment, which the model takes at GO alone (log entry 113, DESIGN CHOICE). -/
def State.takeUpdate (s : State) : State :=
  match s.clk.update with
  | none => s
  | some v =>
    let old := s.reg 0x4024
    let s := { s with clk := { s.clk with update := none } }
    let s := ((s.wr R.CLK_DIV_NOW_SYNC_DIV (v.toNat / 16)).wr R.CLK_DIV_NOW_ETH0_RATE (v.toNat % 2)).wr
      R.CLK_DIV_NOW_ETH1_RATE (v.toNat / 2 % 2)
    let s := s.wrB R.CLK_UPDATE_BUSY false
    each [0, 1] (fun s p => if old.getLsbD p = v.getLsbD p then s else s.portDown p 5) s

/-- After a write of `CLK_DIV_STAGE` while BUSY (R75). -/
def State.stageWritten (s : State) : State := if s.is R.CLK_UPDATE_BUSY then s.wrB R.CLK_UPDATE_LATE true else s

/-! ### Alignment (R76) -/

/-- A pulse on `SYNC_IN`; `tbOff` and `mtrOff` tell that the divider differs by more than 1 TB clock. The instant of a
reset of the metering divider is kept: results whose span holds it are invalid. -/
def State.syncIn (s : State) (tbOff mtrOff : Bool) : State :=
  if s.role ≠ .standby ∨ !s.is R.CLK_SYNC_ALIGN_EN then s
  else if s.is R.CLK_UPDATE_BUSY || s.onBackup 1 || s.onBackup 11 then s.inc R.CLK_SYNC_IGNORED
  else
    let s := s.wrB R.CLK_SYNC_IN_PHASE (!tbOff && !mtrOff)
    let now := s.tsn.local_
    let s := if mtrOff then { s with mtr := { s.mtr with dividerAt := some now } } else s
    if tbOff || mtrOff then (s.inc R.CLK_SYNC_ALIGNED_CNT).wrB R.CLK_SYNC_MOVED true else s

/-- A `SYNC_OUT` pulse of the claim holder at a SAMPLE mark (R74, R76). -/
def State.syncOut (s : State) : State :=
  if s.gateOpen && s.is R.CLK_SYNC_OUT_EN && decide (s.cycleNum % 2 ^ s.rd R.CLK_DIV_NOW_SYNC_DIV = 0) then
    s.emit (.syncOut s.sys.k)
  else s

end Sys2Proof.Machine
end

