-- ==== Sys2Proof/Machine/Power.lean ====
section
/-! DEFINITION. Power states, their requests and transitions, what forced changes do, and the loss of lock of a loop
(R70, R81 to R85, R425, R426). -/

set_option Elab.async false

namespace Sys2Proof.Machine

open Sys2Proof

/-- STATE of `SYS_PWR_STAT` changes: POWER_STATE (Table 4.15). -/
def State.setPower (s : State) (p : Power) (forced : Bool) : State :=
  let s := s.wr R.SYS_PWR_STAT_STATE p.code
  let s := if forced then s.wrB R.SYS_PWR_STAT_FORCED true else s
  s.event 0 8 [(16, 1, p.code), (17, 1, if forced then 1 else 0)]

/-- A transition in progress, or none. -/
def State.setMove (s : State) (m : Option PowerMove) : State :=
  ({ s with sys := { s.sys with move := m } }).wrB R.SYS_PWR_STAT_MOVING m.isSome

/-- STATE of the host watchdog (Table 4.23). -/
def State.watchState (s : State) : Nat :=
  if !s.is R.HST_WATCH_ENABLE || decide (s.rd R.HST_WATCH_TIMEOUT = 0) then 0
  else match s.hst.plan with
    | some p => if p.waiting then 3 else if p.complete then 5 else 4
    | none => if !s.hst.armed then 1 else if s.hst.warned then 3 else 2

/-- STATE of `HST_WATCH_STAT` made to agree. -/
def State.showWatch (s : State) : State := s.wr R.HST_WATCH_STAT_STATE s.watchState

/-- The watchdog restarts; the first time arms it (R118). -/
def State.restartWatch (s : State) : State :=
  ({ s with hst := { s.hst with armed := true, warned := false } }).showWatch

/-- The watchdog is armed at an entry to RUN (R118). -/
def State.armAtRun (s : State) : State :=
  if s.is R.HST_WATCH_ENABLE && !s.hst.armed then s.restartWatch else s

/-! ### Leaving and entering RUN (Table 17.2) -/

/-- What leaving RUN for HOLD does below the power axis; `det` is the DETAIL of what it resolves. -/
def State.leaveRun (s : State) (det : Nat) : State := ((s.dropGrid det).coastAll det).pwmOffAll

/-- HOLD is entered from RUN. -/
def State.enterHold (s : State) (forced : Bool) (det : Nat) : State :=
  ((s.leaveRun det).setPower .hold forced).setMove (if forced then none else some (.completing .hold))

/-- RUN is entered: CANAL_LOOPBACK ends, loops start from rest, the watchdog is armed (R118, R200, Table 17.2). -/
def State.enterRun (s : State) : State :=
  let s := (s.setPower .run false).setMove (some (.completing .run))
  let s := s.endOverlays 4 2
  let s := { s.restLoops with cell := { s.cell with legs := s.cell.legs.map fun (p : Nat × LegSt) => (p.1, { p.2 with evalK := 0, mPrev := 0 }) } }
  s.armAtRun

/-! ### Requests (R83) -/

/-- The pending request gets its outcome. -/
def State.resolvePending (s : State) (v : Verdict) : State :=
  if s.rd R.SYS_PWR_STAT_PENDING = 0 then s
  else
    let s := (s.wr R.SYS_PWR_STAT_PENDING 0).wr R.SYS_PWR_STAT_LAST_STATUS v.status.code
    s.resolveWhere (fun e => e.op = 0x02) v

/-- Does Table 3.17 list the transition? -/
def powerListed (a b : Power) : Bool :=
  match a, b with
  | .hold, .run | .run, .hold | .hold, .towpath | .towpath, .hold | .hold, .off | .towpath, .off => true
  | _, _ => false

/-- Does the power axis itself refuse: not listed, a condition other than safety, a seat held in HOLD by a strap
mismatch, which refuses every target (R45, R83)? -/
def State.powerRefuses (s : State) (t : Power) : Bool :=
  !powerListed s.power t || s.sys.strapHold || (decide (t = .run) && !s.bootDone) ||
    (decide (t = .towpath) &&
      (decide (s.grid ≠ 0) || decide (s.rd R.NRG_STAT_SLUICE ≠ 0) || !s.noDriveTurns))

/-- Does a domain on the backup clock forbid the target (R428)? -/
def State.clockRefuses (s : State) (t : Power) : Bool :=
  (s.onBackup 0 && !(decide (t = .hold) || decide (t = .off))) ||
    (decide (t = .run) && (s.onBackup 1 || s.onBackup 11)) ||
    (decide (t = .towpath) && s.onBackup 1)

/-- Is the target refused by safety, power, clock or lifecycle? -/
def State.powerFails (s : State) (t : Power) : Bool :=
  s.powerRefuses t || s.clockRefuses t || (decide (t = .run) && (s.isSafe || decide (s.rd R.SEC_LC_STATE = 3)))

/-- DETAIL of a refused request, first axis first (R83, R427); `axis` tells whether the power axis itself is judged,
which for a request made during a transition waits until it executes. -/
def State.powerDetail (s : State) (t : Power) (axis : Bool) : Option Nat :=
  let stand := decide (s.role = .standby) && decide (t ≠ .off)
  let own := axis && s.powerRefuses t
  let fails := own || s.clockRefuses t || (decide (t = .run) && (s.isSafe || decide (s.rd R.SEC_LC_STATE = 3)))
  if !(fails || stand || s.planActive) then none
  else if s.isSafe && (fails || stand) then some 3
  else if s.clockRefuses t then some 0xF
  else if own then some 0xD
  else if t = .run ∧ s.rd R.SEC_LC_STATE = 3 then some 0xE
  else if stand then some 4
  else some 2

/-- TOWPATH is left for HOLD: the steps of R84 in reverse order, from PCIe back in L0 to the loops, which search; each
quad's lanes start as its loop locks, and FAB leaves the backup clock as the transition ends. The cycle count is that
of the grid (R22). -/
def State.exitTowpath (s : State) : State :=
  let loops := clkLoops.filter fun n => s.clk.stopped.getLsbD n
  let s := { s with clk := { s.clk with stopped := 0 }, sys := { s.sys with k := s.cycleNow } }
  let s := (s.setPower .hold false).setMove (some (.completing .hold))
  let s := ({ s with hst := { s.hst with l1 := false } }).cmpUnwatch
  ((each loops State.search s).restartLanes.wakeAll).startTrackers

/-- A granted request starts (Table 3.17). -/
def State.startMove (s : State) (t : Power) : State :=
  if t = .off then { s with sys := { s.sys with offAsked := true } }
  else if s.power = .towpath then s.exitTowpath
  else s.setMove (some (.waitMark t))

/-- A power-state request: refused by a mode, else granted, or kept behind a transition (R83, R102, R120). -/
def State.powerRequest (s : State) (t : Power) : State × Verdict :=
  match s.powerDetail t s.sys.move.isNone with
  | some det => (s, vMode det)
  | none =>
    if s.sys.move.isNone then (s.startMove t, vOk)
    else if s.rd R.SYS_PWR_STAT_PENDING ≠ 0 then (s, vBusy 0)
    else (s.wr R.SYS_PWR_STAT_PENDING t.code, vPend 0)

/-- The request with its completion code in LAST_STATUS (Table 3.19). -/
def State.powerAsked (s : State) (t : Power) : State × Verdict :=
  let (s, v) := s.powerRequest t
  (s.wr R.SYS_PWR_STAT_LAST_STATUS v.status.code, v)

/-- POWER_STATE (R83). -/
def ownPower : Owner := fun c s =>
  match Power.ofReq (c.desc.le 4 1) with
  | some t => s.powerAsked t
  | none => (s, vBad 7)

/-- A write of `SYS_PWR_CTL.REQ`; 0 asks for nothing (R83, Table 3.18). -/
def State.powerReg (s : State) (v : Word) (q : Requester := byHost) : State :=
  match Power.ofReq (v.toNat % 8) with
  | some t => (s.powerAsked t).1
  | none => if v.toNat % 8 = 0 then s else s.reservedWrite q 0x40

/-! ### Forced changes (R83, Table 17.2) -/

/-- DETAIL of what a forced change resolves. -/
def ForceCause.detail : ForceCause → Nat
  | .safe => 3 | .pllTb => 0xF | .reaction => 0xD

/-- A forced change to HOLD at once: RUN ends, and a change to RUN that waits for its mark is dropped where its cause
forbids RUN. -/
def State.forceHold (s : State) (why : ForceCause) : State :=
  let waits := decide (s.sys.move = some (.waitMark .run)) && decide (why ≠ .reaction)
  let s := if why = .safe ∨ s.power = .run ∨ waits then s.resolvePending (vMode why.detail) else s
  if s.power = .run then s.enterHold true why.detail
  else if waits then s.setMove none
  else s

/-! ### Transitions -/

/-- The pending request executes when the transition completes (R83). -/
def State.runPending (s : State) : State :=
  match Power.ofReq (s.rd R.SYS_PWR_STAT_PENDING) with
  | none => s
  | some t =>
    let es := s.keptOf 0x02
    let (s, v) := (s.wr R.SYS_PWR_STAT_PENDING 0).powerAsked t
    each es (fun s e => s.resolve e v) s

/-- Do the searches of an exit from TOWPATH still run: of loops that neither have failed nor were lost (R65, R84)? -/
def State.stillSearching (s : State) : Bool :=
  clkLoops.any fun n => s.bitOf R.CLK_PLL_STAT_SEARCH n && !s.clk.failed.getLsbD n && !s.clk.away.getLsbD n

/-- A transition completes (R83); one that leaves TOWPATH when every loop runs again, and then FAB leaves the backup
clock (R84). -/
def State.transitionDone (s : State) : State :=
  match s.sys.move with
  | some (.completing .hold) =>
    if s.stillSearching then s
    else
      let back := s.clk.fabBackup && (!s.loopLocked 0 || s.onBackup 0)
      (({ s with clk := { s.clk with fabBackup := back } }).setMove none).runPending
  | some (.completing _) => (s.setMove none).runPending
  | _ => s

/-- The HOLD barges of TOWPATH entry start; every overlay ends (R84, Table 17.2). -/
def State.startTowpath (s : State) : State := (s.endOverlays 7 2).setMove (some (.holdBarges 16))

/-- Power transitions at a SAMPLE mark (Table 3.17). -/
def State.powerAtMark (s : State) : State :=
  match s.sys.move with
  | some (.waitMark .run) => s.enterRun
  | some (.waitMark .hold) => s.enterHold false 0xD
  | some (.waitMark .towpath) => s.startTowpath
  | some (.holdBarges (n + 1)) => s.setMove (some (.holdBarges n))
  | _ => s

/-- Loop `n` stops: neither locked nor searching, and not lost (R84). -/
def State.stopLoop (s : State) (n : Nat) : State :=
  let t := { s with clk := { s.clk with stopped := setBit s.clk.stopped n true } }
  (t.wrBit R.CLK_PLL_STAT_LOCKED n false).wrBit R.CLK_PLL_STAT_SEARCH n false

/-- Steps 2 to 9 of R84, after the 16 cycles: FAB on the backup clock and PCIe in L1 among them. A loop stopped here
has not lost lock. -/
def State.towpathSteps (s : State) : State :=
  match s.sys.move with
  | some (.holdBarges 0) =>
    let s := (s.calAbandon.accsIdle.portsDown 6).allLanesOff
    let s := { s with clk := { s.clk with fabBackup := true }, hst := { s.hst with l1 := true } }
    let loops := clkLoops.filter fun n => n ≠ 1 ∧ n ≠ 10 ∧ (s.loopLocked n || s.bitOf R.CLK_PLL_STAT_SEARCH n)
    let s := each loops State.stopLoop s
    (((s.judgeLoops.cmpWatch).setPower .towpath false).setMove (some (.completing .towpath)))
  | _ => s

/-- The state of the holder, or the HOLD of a watch crossing, is taken (R84, R426). It waits while a transition runs. -/
def State.takeFollow (s : State) : State :=
  match s.sys.follow with
  | none => s
  | some t =>
    if s.sys.move.isSome then s
    else
      let s := { s with sys := { s.sys with follow := none } }
      if s.power = t || s.powerFails t then s
      else match t with
        | .run => s.enterRun
        | .hold => if s.power = .run then s.enterHold false 0xD else s.exitTowpath
        | .towpath => s.startTowpath
        | _ => s

/-! ### Loss of lock (R69, R70) -/

/-- No channel's last result is valid while PLL_MTR has lost lock (R272). -/
def State.channelsInvalid (s : State) : State :=
  each ((List.range 64).filter isChannel) (fun s c => s.wrB (R.MTR_CH_STAT_VALID c) false) s

/-- Metering's slots and channels carry the invalid flag (Table 3.4, R272). -/
def State.meteringLost (s : State) : State :=
  let s := s.channelsInvalid
  let slots := ((List.range 128).filter fun r => s.rd (R.MTR_ROUTE_KIND r) ≠ 0).map fun r => s.rd (R.MTR_ROUTE_SLOT r)
  each slots (fun s i =>
    let last := (s.loop.metered.reverse.find? fun x => x.1 = i).map (fun x => (x.2.1, x.2.2.1)) |>.orElse fun _ => (s.slot? i).map fun x => (x.value, x.qual)
    match last with
    | some (v, q) => if s.slotKind i = 3 then s.meterSlot i v (q ||| qFault) else s
    | none => s) s.calAbandon

/-- Outputs and behaviour of Table 3.4 for loop `n`. -/
def State.lockEffect (s : State) (n : Nat) : State :=
  if n = 0 then s.pwmOffAll
  else if n = 1 then
    (s.pwmOffAll.forceHold .pllTb).timeInvalid
  else if n ≤ 8 then each ((List.range 4).map (4 * (n - 2) + ·)) (fun s l => s.laneLost l 4 []) s
  else if n = 9 then (s.portsDown 4).trackersHold
  else if n = 10 then { s with hst := { s.hst with linkUp := false } }
  else s.meteringLost

/-- A running, locked loop loses lock: its domains go to the backup clock or stop, a return not yet in effect is
abandoned, and the search starts again (R69 to R71). -/
def State.lockLost (s : State) (n : Nat) : State :=
  if decide (n < 12) && s.loopLocked n then
    let back := s.clk.returning.getLsbD n
    let s := (s.search n).wrBit R.CLK_FB_STAT_DOMAIN n true
    let s := { s with clk := { s.clk with returning := setBit s.clk.returning n false, lost := setBit s.clk.lost n true
                                          away := setBit s.clk.away n true, fabBackup := s.clk.fabBackup || decide (n = 0) } }
    let s := if back then s.inc R.CLK_FB_STAT_RET_REFUSED else s
    ((s.raise (lockSource n) n).lockEffect n).judgeLoops
  else s

/-- No band locks within 1 ms: the fault, and the domain in the state of Table 3.4; the search repeats every 100 ms
(R65). -/
def State.searchFailed (s : State) (n : Nat) : State :=
  let s := s.stepSix
  if decide (n < 12) && s.bitOf R.CLK_PLL_STAT_SEARCH n then
    let was := s.onBackup n
    let s := { s with clk := { s.clk with failed := setBit s.clk.failed n true } }
    let s := (s.wrBit R.CLK_FB_STAT_DOMAIN n true).judgeLoops.raise 0x1A0 n
    if was then s else s.lockEffect n
  else s

/-- The backup clock fails (R67): FATAL, through the always-on domain. -/
def State.backupLost (s : State) : State :=
  if s.sys.boot = .off ∨ s.sys.boot = .reset then s else (s.setActive 0x1A3 true).raise 0x1A3 0

end Sys2Proof.Machine
end

