-- ==== Sys2Proof/Machine/Boot.lean ====
section
/-! DEFINITION. Resets of the whole part, of the main domains and of one block; supplies; the boot sequence
(R44 to R53, R77 to R82, R408, R411, R412). -/

set_option Elab.async false

namespace Sys2Proof.Machine

open Sys2Proof

/-! ### Main-domain resets (Table 3.11) -/

/-- Registers that a main-domain reset keeps: those of the always-on domain, and the part number. -/
def aonRegs : List Nat := [0x0, 0x20, 0x24, 0x30, 0x36010, 0x36014]

/-- The bits of `SYS_RESET_CAUSE` that name the last reset, and COUNT (Table 3.13). -/
def State.setCause (s : State) (mon sys off : Bool) : State :=
  let s := ((s.wrB R.SYS_RESET_CAUSE_POR false).wrB R.SYS_RESET_CAUSE_MON mon).wrB R.SYS_RESET_CAUSE_SYS sys
  (s.wrB R.SYS_RESET_CAUSE_OFF_EXIT off).inc R.SYS_RESET_CAUSE_COUNT

/-- Fuses, and what the always-on domain and the free-running counters keep across a main-domain reset. -/
def SecSt.kept (x : SecSt) : SecSt :=
  { rowOpen := x.rowOpen, rowLocked := x.rowLocked, rowRetired := x.rowRetired, slots := x.slots, revoke := x.revoke
    counter := x.counter, keyGone := x.keyGone, bootTicket := x.bootTicket, attestSeq := x.attestSeq }

/-- The main domains at their reset values, held in reset: registers of the always-on domain, fuses, pins and the
local counter are kept, and so is what has left the part. -/
def State.clearMain (s : State) : State :=
  { State.reset with
    regs := s.regs.filter fun p => aonRegs.contains p.1
    sys := { boot := .reset, railsOk := s.sys.railsOk, feeds := s.sys.feeds, cutShort := s.sys.cutShort }
    hst := { perstHigh := s.hst.perstHigh }
    aux := { pins := s.aux.pins }
    tsn := { local_ := s.tsn.local_ }
    red := { strapConflict := s.red.strapConflict, deassertedAt := s.red.deassertedAt, everHeld := s.red.deassertedAt.isNone }
    nrg := { recordSeq := s.nrg.recordSeq }
    pwm := { pins := s.pwm.pins }
    sec := s.sec.kept
    out := s.out
    free := s.free
    pending := s.pending }

/-- A main-domain reset: the claim is released, then everything but the always-on domain is cleared (R77). -/
def State.resetMain (s : State) : State :=
  let line := s.is R.RED_PARTNER_LINE
  let s := (s.releaseClaim 6).clearMain
  (s.wrB R.RED_PARTNER_LINE line).showFuses.resetLevels

/-- OFF: the overlays end, the claim is released, and the main domains are held in reset (R82, Table 17.2). -/
def State.enterOff (s : State) : State :=
  let s := ((s.endOverlays 7 2).releaseClaim 7).resetMain
  { s with sys := { s.sys with boot := .off } }

/-- A system reset (R77). -/
def State.systemReset (s : State) : State := s.resetMain.setCause false true false

/-- The straps sampled: bit 0 SEAT_SEL, 1 BOOT_SRC, 2 LANE_POL (Table 2.5). -/
def State.sampleStraps (s : State) (straps : BitVec 3) : State := s.setReg 0x20 (straps.setWidth 32)

/-- A power-on reset: everything, the always-on domain included; the straps are sampled at its release (R44, R77). -/
def State.powerOn (s : State) (straps : BitVec 3) (feeds : BitVec 2) : State :=
  let line := s.is R.RED_PARTNER_LINE
  let t := { State.reset with
    regs := s.regs.filter fun p => p.1 = 0
    sys := { boot := .reset, feeds := feeds, railsOk := s.sys.railsOk }
    hst := { perstHigh := s.hst.perstHigh }
    aux := { pins := s.aux.pins }
    red := { deassertedAt := if line then none else some 0, everHeld := line }
    pwm := { pins := s.pwm.pins }
    sec := { s.sec.kept with bootTicket := s.free, attestSeq := 0 }
    out := s.out
    free := s.free + 1
    pending := s.pending }
  ((t.sampleStraps straps).wrB R.RED_PARTNER_LINE line).showFuses.resetLevels

/-! ### Supplies (R50, R51, R53) -/

/-- A rail monitor trips; `rails` as MON_RAIL. A trip while the main domains are already held in reset is recorded as
a main-domain reset of its own, with COUNT and the cause bits: the rule says only that the wait of 1 ms starts again
(log entry 113, DESIGN CHOICE). In TOWPATH only those of `VCORE`, `VIO33` and `VANA` are active. In OFF the rails fall
as awaited, and nothing is recorded. `sys` tells that a system reset was asked in the same clock (R50, R77). -/
def State.monitorTrip (s : State) (rails : BitVec 6) (sys : Bool) : State :=
  let rails := if s.power = .towpath then rails &&& 0x31 else rails
  let ok := s.sys.railsOk &&& ~~~rails
  if rails = 0 then s
  else if s.sys.boot = .off then { s with sys := { s.sys with railsOk := ok } }
  else
    let cut := s.sys.cutShort || s.sys.move.isSome
    let s := s.resetMain.setCause true sys false
    let s := s.wr R.SYS_RESET_CAUSE_MON_RAIL (s.rd R.SYS_RESET_CAUSE_MON_RAIL ||| rails.toNat)
    { s with sys := { s.sys with railsOk := ok, cutShort := cut } }

/-- Feeds shown (Table 2.7): `VAON_B` carries the load only without `VAON_A`. -/
def State.showFeeds (s : State) : State :=
  let a := s.sys.feeds.getLsbD 0
  let b := s.sys.feeds.getLsbD 1
  ((s.wrB R.SYS_AON_STAT_A_OK a).wrB R.SYS_AON_STAT_B_OK b).wrB R.SYS_AON_STAT_CARRYING (!a && b)

/-- A feed still out of range sets its LOST bit again (R11). -/
def State.keepLost (s : State) : State :=
  let s := if s.sys.feeds.getLsbD 0 then s else s.wrB R.SYS_AON_STAT_A_LOST true
  if s.sys.feeds.getLsbD 1 then s else s.wrB R.SYS_AON_STAT_B_LOST true

/-- Feed `f` is out of its range, and recorded as lost (R51). -/
def State.dropFeed (s : State) (f : Nat) : State :=
  (({ s with sys := { s.sys with feeds := setBit s.sys.feeds f false } }).showFeeds).wrB
    (if f = 0 then R.SYS_AON_STAT_A_LOST else R.SYS_AON_STAT_B_LOST) true

/-- "Always-on feed lost" stands while one feed is out of its range (R51). -/
def State.judgeFeeds (s : State) : State :=
  if s.sys.feeds = 3 then s.setActive 0x006 false
  else (s.setActive 0x006 true).raise 0x006 (if s.sys.feeds.getLsbD 0 then 1 else 0)

/-- An always-on feed leaves its range; the loss of both is a power-on reset (R51). -/
def State.feedLost (s : State) (f : Nat) : State :=
  if 1 < f ∨ !s.sys.feeds.getLsbD f then s
  else
    let s := s.dropFeed f
    if s.sys.feeds = 0 then s.powerOn ((s.reg 0x20).setWidth 3) 0 else s.judgeFeeds

/-- An always-on feed is back in its range; after the loss of both this is the release of the power-on reset, at which
the straps are sampled again (R44, R51). -/
def State.feedBack (s : State) (f : Nat) : State :=
  if 1 < f ∨ s.sys.feeds.getLsbD f then s
  else if s.sys.feeds = 0 then (s.powerOn ((s.reg 0x20).setWidth 3) (BitVec.ofNat 2 (2 ^ f))).showFeeds
  else (({ s with sys := { s.sys with feeds := setBit s.sys.feeds f true } }).showFeeds).judgeFeeds

/-- The die temperature, 0.125 °C, as the sensor finds it on passing 115 °C or 130 °C: each fault whose limit it exceeds
stands, and is raised on passing it or where row `n` tells of it (R53). -/
def State.hotDie (s : State) (temp : BitVec 12) (n : Nat) : State :=
  let v := sx 12 temp.toNat
  each [(0x007, (920 : Int)), (0x008, 1040)] (fun s (m, limit) =>
    let was := s.active m
    let hot := decide (limit < v)
    let s := s.setActive m hot
    if hot && (!was || decide (m = n)) then s.raise m 0 else s) (s.wr R.SYS_TEMP_TEMP temp.toNat)

/-! ### Block resets (Table 3.12) -/

/-- The window of a block (Table 18.1). -/
def blockWindow (b : Nat) : Nat × Nat :=
  match b with
  | 1 => (0x10000, 0x20000) | 2 => (0x20000, 0x28000) | 3 => (0x28000, 0x2C000) | 4 => (0x2C000, 0x30000)
  | 5 => (0x30000, 0x34000) | 6 => (0x34000, 0x36000) | 7 => (0x36000, 0x38000) | 8 => (0x38000, 0x3A000)
  | 9 => (0x3A000, 0x3C000) | _ => (0x3C000, 0x3E000)

/-- The registers of a window at their reset values but for some, then RWL fields from the retained store. -/
def State.clearWindow (s : State) (b : Nat) (keep : Nat → Bool) : State :=
  let (lo, hi) := blockWindow b
  let s := { s with regs := s.regs.filter fun p => !(lo ≤ p.1 && p.1 < hi) || keep p.1 }
  s.reload lo hi

/-- `CNL_`: every lane goes OFF and starts again, with no loss recorded; the towpath resumes with WAKE (R140, R147). A
lane kept OFF by the loss of its quad's loop stays OFF until its domain returns, as R71 and R139 have it, where R140
names each enabled lane (log entry 113, DESIGN CHOICE); nor does a lane start while its quad's loop is stopped, in
TOWPATH. -/
def State.resetCanal (s : State) : State :=
  let c := s.cnl
  let lanes := (c.lanes.filter fun p => p.2.tapBad || p.2.quadOff).map fun p =>
    (p.1, { ({} : LaneSt) with tapBad := p.2.tapBad, quadOff := p.2.quadOff })
  let s := { s with cnl := { holdMax := c.holdMax, bypassDelay := c.bypassDelay, safeAction := c.safeAction
                             tapTable := c.tapTable, lanes := lanes } }
  ((s.clearWindow 1 fun _ => false).restartLanes).loopAgain.wakeAll

/-- `LOOP_`: loops from rest; banks, their verification results and policies are kept, and with them what shows them:
the bank status and verdict whole, and STATE, LOSS_CNT and SUBSTITUTED of every loop (R200, R214). -/
def State.resetLoop (s : State) : State :=
  let names := ["LOOP_BANK_STAT", "LOOP_VERIFY", "LOOP_LSTAT"]
  let s := s.clearWindow 2 fun o => (regAt o).any fun x => names.contains x.1.name
  let shown := (s.regs.map (·.1)).filter fun o => 0x21000 ≤ o ∧ o < 0x22000
  let s := each shown (fun s o => s.setReg o (s.reg o &&& 0x00FF020F)) s
  s.restLoops.showBanks.showStages.showWindow.judgeRegions

/-- `CELL_`: the grid mode falls to IDLE with no ramp and every fitted cell is DISABLED; what the Basin and the Canal
know of the cells is theirs. -/
def State.resetCells (s : State) : State :=
  let s := (s.dropGrid 0xD).clearWindow 3 fun _ => false
  let cells := s.cell.cells.map fun p => (p.1, { ({} : CellSt) with vUsed := p.2.vUsed, sent := p.2.sent, eSluice := p.2.eSluice })
  { s with cell := { cells := cells } }.initRoles.showKept

/-- `NRG_`: a running sluice ends; ledger voltages and string counters are kept. -/
def State.resetBasin (s : State) : State :=
  let s := (s.sluiceAbort 1).clearWindow 4 fun _ => false
  let s := { s with nrg := { s.nrg with sluice := [], sluiceAuto := false, soeSet := [], overMarks := 0 } }
  s.showKept

/-- `PWM_`: groups stopped, outputs low; the drives' masks stand. -/
def State.resetPwm (s : State) : State :=
  let s := s.pwmOffAll.clearWindow 6 fun _ => false
  ({ s with pwm := { pins := s.pwm.pins, mask := s.pwm.mask } }).readTripIn

/-- `CMP_`: the settings apply afresh and every channel starts up (R308). -/
def State.resetCmp (s : State) : State :=
  let s := s.clearWindow 7 fun o => o = 0x36010 || o = 0x36014
  ({ s with cmp := { watch := s.cmp.watch } }).cmpStartAll

/-- `AUX_`: every drive STOPPED, its mask OFF. -/
def State.resetAux (s : State) : State :=
  let s := s.coastAll 0xD
  let s := each [0, 1, 2, 3] (fun s d => s.driveMask d 3) s
  (({ s with aux := { pins := s.aux.pins } }).clearWindow 8 fun _ => false).readAuxFlt

/-- `TSN_`: ports down, plant time INVALID or in free-run, trackers from LISTENING. The local counter runs on (R340). -/
def State.resetTsn (s : State) : State :=
  let s := s.clearWindow 9 fun _ => false
  (({ s with tsn := { local_ := s.tsn.local_ } }).timeFree).startTrackers

/-- `RED_`: the claim is released, and the lock-link state starts afresh (R364). -/
def State.resetRed (s : State) : State :=
  let line := s.is R.RED_PARTNER_LINE
  let s := (s.releaseClaim 6).clearWindow 10 fun _ => false
  let r := s.red
  ({ s with red := { strapConflict := r.strapConflict, deassertedAt := r.deassertedAt, everHeld := r.everHeld
                     startT := r.startT } }).wrB R.RED_PARTNER_LINE line

/-- A block's logic and registers reset. -/
def State.clearBlock (s : State) (b : Nat) : State :=
  match b with
  | 1 => s.resetCanal | 2 => s.resetLoop | 3 => s.resetCells | 4 => s.resetBasin
  | 5 => s.mtrReset.clearWindow 5 fun _ => false
  | 6 => s.resetPwm | 7 => s.resetCmp | 8 => s.resetAux | 9 => s.resetTsn | _ => s.resetRed

/-- The shadow window of a block reset; a reset within its own window extends it (R391). -/
def State.openShadow (s : State) (b : Nat) : State :=
  if s.flt.shadows.any fun w => w.block = b then s
  else
    let off := 0x3E180 + 4 * b
    let m := (fixedView off (s.reg off)).toNat % 65536
    { s with flt := { s.flt with shadows := s.flt.shadows ++ [{ block := b, blocks := BitVec.ofNat 16 m, hits := [] }] } }

/-- A block reset (R77, R78, R391). The sources of the block leave their pairs clear until it asserts them again. -/
def State.blockReset (s : State) (b : Nat) : State :=
  if resettable b then
    let s := (s.openShadow b).clearBlock b
    s.setReg (R.FLT_ACTIVE b).off 0
  else s

/-- The end of the shadow window of block `b`: what is still asserted latches now (R391). The event of Table 15.9
counts this window's assertions; the counters run on over all windows. -/
def State.shadowEnd (s : State) (b : Nat) : State :=
  match s.flt.shadows.find? fun w => w.block = b with
  | none => s
  | some w =>
    let s := { s with flt := { s.flt with shadows := s.flt.shadows.filter fun x => x.block ≠ b } }
    let late := (w.hits.filter fun (n, _, _) => s.active n).foldl
      (fun (acc : List (Nat × Nat)) h => if acc.any (fun p => p.1 = h.1) then acc else acc ++ [(h.1, h.2.1)]) []
    let s := each late (fun s (n, i) => (s.inc (R.FLT_SHADOW_CNT_LATE b)).raiseWith n i { flags := 0x10 }) s
    s.event 0xB 5 [(16, 1, b), (18, 2, min 0xFFFF w.hits.length), (20, 2, min 0xFFFF late.length)]

/-- A write of `SYS_RST_CTL` (R78, Table 3.12). -/
def State.rstWrite (s : State) (v : Word) (q : Requester := byHost) : State :=
  let b := v.toNat / 256 % 16
  let sys := v.getLsbD 0
  let blk := v.getLsbD 1
  if v.toNat / 65536 ≠ 0xC1A5 ∨ (sys && blk) then s.reservedWrite q 0x34
  else if sys then s.systemReset
  else if blk then
    if !resettable b then s.reservedWrite q 0x34
    else if s.power = .run then s.wrB R.SYS_RESET_CAUSE_BLK_REFUSED true
    else s.blockReset b
  else s

/-! ### Boot (R79, R80) -/

/-- The main-domain reset is released at TR, with every rail in range and the always-on domain fed. -/
def State.release (s : State) : State :=
  if s.sys.boot = .reset ∧ s.sys.railsOk = 0x3F ∧ s.sys.feeds ≠ 0 then
    (({ s with sys := { s.sys with boot := .search, tr := s.tsn.local_ } }).timeReset)
  else s

/-- The rails have been back in range for 1 ms; after OFF this is the OFF_EXIT reset (R50, R82). -/
def State.mainRelease (s : State) : State :=
  if s.sys.boot = .off ∧ s.sys.railsOk ≠ 0x3F then
    let s := s.resetMain.setCause false false true
    ({ s with sys := { s.sys with railsOk := 0x3F } }).release
  else if s.sys.boot = .reset then ({ s with sys := { s.sys with railsOk := 0x3F } }).release
  else s

/-- Boot begins at TR: FAB on the backup clock, PLL_PCIE searches, a reference is looked for (R65, R79). A feed that
is out shows its fault (R51). -/
def State.bootStart (s : State) : State :=
  let s := s.release
  if s.sys.boot = .search ∧ !s.sys.refFound then
    ((({ s with sys := { s.sys with tr := s.tsn.local_ } }).showFeeds).judgeFeeds).search 10
  else s

/-- A reference without stop and within ±200 ppm over 100 µs: the system loops search (R79). -/
def State.refFound (s : State) (r : Nat) : State :=
  if s.sys.boot = .search ∧ !s.sys.refFound ∧ r < 2 then
    (((({ s with sys := { s.sys with refFound := true } }).wr R.CLK_REF_STAT_SEL r).search 0).search 1)
  else s

/-- The boot fails with a CODE: HOLD, SAFE (R80, Table 15.7). TIME, from TR to the end of boot, stays 0: the rule does
not say that a failure ends the boot for it (log entry 113, DESIGN CHOICE). -/
def State.bootFail (s : State) (code : Nat) : State :=
  let s := { s with sys := { s.sys with boot := .failed } }
  let s := (s.wr R.SYS_BOOT_STAT_CODE code).wrB R.SYS_BOOT_STAT_FAILED true
  (s.wr R.SYS_PWR_STAT_STATE 2).wrBit R.FLT_SAFE_CAUSE_CAUSE 4 true

/-- A boot step does not succeed in time: the CODE follows from the step (R80, Table 3.15). -/
def State.bootTimeout (s : State) : State :=
  match s.sys.boot with
  | .search => s.bootFail (if s.sys.refFound then 7 else 1)
  | .sram => s.bootFail 5
  | .image => s.bootFail 2
  | _ => s

/-- Step 3 ends; the boot source decides step 4 (R46, R79). -/
def State.sramDone (s : State) (ok : Bool) : State :=
  if s.sys.boot = .sram then
    if !ok then s.bootFail 5
    else if s.is R.SYS_STRAP_BOOT_SRC && decide (s.lifecycle = 0) then
      let s := { s with sys := { s.sys with boot := .jtagWait } }
      (s.wr R.SYS_BOOT_STAT_CODE 6).wrB R.SYS_BOOT_STAT_FAILED true
    else
      let s := { s with sys := { s.sys with boot := .image } }
      if s.is R.SYS_STRAP_BOOT_SRC then (s.wrB R.SYS_STRAP_BOOT_IGNORED true).raise 0x005 0 else s
  else s

/-- The strap mismatch of R45: set for SOLO, SEAT_SEL sampled 1. -/
def State.judgeStrap (s : State) : State :=
  if !s.paired && s.seatB then
    (({ s with sys := { s.sys with strapHold := true } }).setActive 0x004 true).raise 0x004 0
  else s

/-- The image goes into the retained store (R412). -/
def State.holdImage (s : State) (b : Bytes) : State := { s with sec := { s.sec with image := b.take (imageLen b) } }

/-- The lock is set, and thresholds, regions, roles, comparators, trip inputs and the claim go live (Table 3.14, step
5). A trip or fault input that its settings enable and that is low already acts now (R43). -/
def State.settingsLive (s : State) (b : Bytes) : State :=
  let s := (s.showDigest b).wr R.SEC_ROLLBACK_IMAGE (leAt b 12 4)
  let s := s.wrB R.SEC_IMG_STAT_LOCKED true
  let s := ((s.judgeRegions.initRoles).showBanks).cmpStartAll
  let s := (((s.timeFree.showWatch).judgeStrap).wakeAll).readTripIn.readAuxFlt
  if s.sys.strapHold || decide (s.rd R.SEC_LC_STATE = 3) then s else s.soloClaim

/-- Step 5: the settings are applied and what they configure goes live (R408, R412, Table 3.14). -/
def State.goLive (s : State) (b : Bytes) (secs : List Section) : State :=
  let lv := s.showFuses
  let s := if lv.lifecycle = s.rd R.SEC_LC_STATE then lv else lv.resetLevels
  ((s.holdImage b).applyImage secs).settingsLive b

/-- One copy has passed its checks: fuse actions, then step 5. `bad` names fuse rows that do not program. -/
def State.useImage (s : State) (b : Bytes) (copy : Nat) (bad : List Nat) : State :=
  match s.slotOf b, imageSections b with
  | some slot, some secs =>
    let s := (s.wr R.SEC_IMG_STAT_SLOT slot).wrB R.SEC_IMG_STAT_UNBOUND (decide (slot = 0xE))
    let s := s.fuseActions bad b secs slot
    let s := s.goLive b secs
    let s := { s with sys := { s.sys with boot := .settings } }
    s.event 0xC 1 [(16, 1, copy), (17, 1, slot), (18, 1, s.sec.counter), (20, 4, s.settingsId)]
  | _, _ => s

/-- The flash copies have been read and judged (R405, R411). -/
def State.settingsLoaded (s : State) (primary backup : Option Bytes) (bad : List Nat) : State :=
  if s.sys.boot = .image then
    let s := (s.fixRows bad).showFuses
    let p := s.imageReason primary
    let s := s.wr R.SEC_IMG_STAT_REASON_P p
    if p = 0 then (s.wr R.SEC_IMG_STAT_REASON_B 7).useImage (primary.getD []) 0 bad
    else
      let q := s.imageReason backup
      let s := s.wr R.SEC_IMG_STAT_REASON_B q
      if q = 0 then
        ((s.wrB R.SEC_IMG_STAT_BACKUP true).raise 0x180 p).useImage (backup.getD []) 1 bad
      else s.bootFail (reasonCode p)
  else s

/-- An image arrives over JTAG while the boot waits for it (R46); it is judged as a copy of the flash is. -/
def State.jtagImage (s : State) (b : Bytes) (bad : List Nat) : State :=
  if s.sys.boot = .jtagWait then
    let s := (s.fixRows bad).showFuses
    let p := s.imageReason (some b)
    let s := (s.wr R.SEC_IMG_STAT_REASON_P p).wr R.SEC_IMG_STAT_REASON_B 7
    if p = 0 then ((s.wr R.SYS_BOOT_STAT_CODE 0).wrB R.SYS_BOOT_STAT_FAILED false).useImage b 0 bad
    else s.bootFail (reasonCode p)
  else s

/-- Step 7: HOLD, READY, DONE, BOOT_DONE; a request that a monitor trip cut short ends REJECTED_MODE (R79, R85). -/
def State.bootDone_ (s : State) : State :=
  let s := s.stepSix
  if s.sys.boot = .applied then
    let t := min 65535 ((s.tsn.local_ - s.sys.tr) * 2 / 10000)
    let s := if s.sys.cutShort then s.wr R.SYS_PWR_STAT_LAST_STATUS 4 else s
    let s := { s with sys := { s.sys with boot := .done, cutShort := false } }
    let s := (s.wrB R.SYS_BOOT_STAT_DONE true).wr R.SYS_BOOT_STAT_TIME t
    ((s.wr R.SYS_PWR_STAT_STATE 2).startTrackers).event 0 1 [(16, 2, t)]
  else s

end Sys2Proof.Machine
end

