-- ==== Sys2Proof/Machine/FaultCmds.lean ====
section
/-! DEFINITION. Clearing faults, the capture's end, the collector's own failures, the safety axis and the safe state
(R385, R392, R393, R397 to R401). -/

set_option Elab.async false

namespace Sys2Proof.Machine

open Sys2Proof

/-! ### Sources that stand -/

/-- Sources whose LATCH is set, in order. -/
def State.latchedList (s : State) : List Nat :=
  (List.range 16).flatMap fun b =>
    let w := s.reg (R.FLT_LATCH b).off
    if w = 0 then [] else ((List.range 32).filter fun j => w.getLsbD j).map (32 * b + ·)

/-- Is the cause of a source still present, or its pair broken? (R400) -/
def State.causeStands (s : State) (n : Nat) : Bool := s.active n || s.flt.broken.contains n

/-! ### The safety axis (R397) -/

/-- Causes of Table 15.7 that stand if the sources in `gone` are cleared. -/
def State.safeCauses (s : State) (gone : List Nat) : Nat :=
  let ls := s.latchedList.filter fun n => !gone.contains n
  let b (x : Bool) (i : Nat) : Nat := if x then 2 ^ i else 0
  let kept := s.rd R.FLT_SAFE_CAUSE_CAUSE
  b (ls.any fun n => decide (sourceClass n = some 2)) 0 +
    b (ls.any fun n => s.is (R.FLT_REACT_SAFE n) || decide (sourceClass n = some 2)) 1 +
    b (kept.testBit 2) 2 + b (kept.testBit 3 && !gone.contains 0x064) 3 + b (kept.testBit 4) 4 + b (kept.testBit 5) 5

/-- Is safety DEGRADED when it is not SAFE? -/
def State.degraded (s : State) : Bool :=
  decide (s.rd R.CLK_FB_STAT_DOMAIN ≠ 0) || s.latchedList.any fun n => s.is (R.FLT_REACT_DEGRADE n)

/-- Entry to SAFE (Table 15.8): RUN is forced to HOLD, outputs low, drives coast, the sluice ends, kept commands are
resolved. -/
def State.enterSafe (s : State) : State :=
  let s := ((s.forceHold .safe).pwmOffAll).coastAll 3
  (s.sluiceAbort 2).resolveWhere (fun _ => true) (vMode 3)

/-- The axis made to agree with its causes; `leave` tells that EXIT_SAFE has been granted (R397, R400). -/
def State.judgeSafety (s : State) (leave : Bool) : State :=
  let c := s.safeCauses []
  let old := s.rd R.FLT_STAT_SAFETY
  let new := if c ≠ 0 ∨ (old = 2 ∧ !leave) then 2 else if s.degraded then 1 else 0
  let s := s.wr R.FLT_SAFE_CAUSE_CAUSE c
  if new = old then s
  else
    let s := (s.wr R.FLT_STAT_SAFETY new).event 0xB 4 [(16, 1, old), (17, 1, new), (18, 1, c)]
    if new = 2 then s.enterSafe else s

/-! ### The capture (R392) -/

/-- The window ends: the capture is final, and its entry carries FIRST. -/
def State.captureFinal (s : State) : State :=
  if s.is R.FLT_FIRST0_VALID && s.is R.FLT_FIRST0_PROVISIONAL then
    (s.wrB R.FLT_FIRST0_PROVISIONAL false).modLog (s.rd R.FLT_FIRST6_ENTRY) fun e => { e with flags := e.flags ||| 1 }
  else s

/-- A window of plant time ends while no marks run. -/
def State.captureWindowEnd (s : State) : State := if s.marksRun then s else s.captureFinal

/-- The capture is emptied and re-armed. -/
def State.rearm (s : State) : State :=
  each [R.FLT_FIRST0_VALID.off, R.FLT_FIRST1.off, R.FLT_FIRST2.off, R.FLT_FIRST3_CYCLE.off, R.FLT_FIRST4.off,
    R.FLT_FIRST5.off, R.FLT_FIRST6_ENTRY.off] (fun s o => s.setReg o 0) s

/-- The 64 bytes of a log entry (Table 15.5). -/
def LogEntry.bytes (e : LogEntry) : Bytes :=
  layBytes 64 [(0, 2, e.source), (2, 1, e.cls), (3, 1, e.flags.toNat), (4, 2, e.inst), (6, 2, e.cycle), (8, 8, e.time),
    (16, 8, e.addr), (24, 1, e.master), (25, 1, e.access), (26, 1, e.reaction.toNat), (28, 2, e.count), (30, 2, e.cause),
    (32, 24, e.bitmap.toNat), (56, 2, e.lastCycle), (58, 2, e.seq), (60, 4, e.value.toNat)]

/-- After a write of `FLT_LOG_IDX`: the entry is copied whole; one never used reads zero (R393). -/
def State.logCopy (s : State) : State :=
  let b := match s.logAt (s.rd R.FLT_LOG_IDX_INDEX) with | some e => e.bytes | none => []
  each (List.range 16) (fun s w => s.wr (R.FLT_LOG_DATA w) (leAt b (4 * w) 4)) s

/-! ### Clearing (R400, R401) -/

/-- Sources that a FAULT_CLEAR names. -/
def clearScope (d : Desc) : List Nat :=
  match d.le 4 1 with
  | 0 => [d.le 6 2]
  | 1 => (List.range 32).map (32 * d.le 6 1 + ·)
  | _ => allSources

/-- FAULT_CLEAR (R400). -/
def ownClear : Owner := fun c s =>
  let scope := clearScope c.desc
  let exit_ := (c.desc.le 5 1).testBit 0
  let ls := s.latchedList.filter fun n => scope.contains n
  let here := ls.filter s.causeStands
  let fatal := ls.any fun n => decide (sourceClass n = some 2)
  let gone := ls.filter fun n => !s.causeStands n && decide (sourceClass n ≠ some 2)
  let granted := exit_ && decide (s.safeCauses gone = 0)
  let s := s.incBy R.FLT_CNT_CLEAR_REFUSED here.length
  let x : Clearing := { scope := c.desc.le 4 1, sources := gone, refused := here.length, exitSafe := granted }
  let s := { s with flt := { s.flt with clearing := s.flt.clearing ++ [x] } }
  (s, if fatal then vMode 0x0B02 else if !here.isEmpty then vMode 0x0B01 else if exit_ && !granted then vMode 0x0B03 else vOk)

/-- One source cleared: latch, count, entries, and what its block holds on it (R401). -/
def State.clearSource (s : State) (n : Nat) : State :=
  let s := s.setLatch n false
  let mark (p : Nat × LogEntry) : Nat × LogEntry :=
    if p.2.source = n then (p.1, { p.2 with flags := p.2.flags ||| 8 }) else p
  let f := s.flt
  let s := { s with flt := { f with
      log := f.log.map mark
      logged := SMap.put (fun _ => 0) f.logged n 0
      lastInst := SMap.put (fun _ => 0) f.lastInst n 0 } }
  let free (p : Nat × LoopState) : Nat × LoopState := if p.2.policy = 0 then p else (p.1, { p.2 with cleared := true })
  let s := if n = 0x044 then { s with loop := { s.loop with loops := s.loop.loops.map free } } else s
  let s := if 0x100 ≤ n ∧ n ≤ 0x102 then s.auxCleared n else s
  if n = 0x064 then s.wrBit R.FLT_SAFE_CAUSE_CAUSE 3 false else s

/-- A granted clear takes effect: sources are tested again, and SAFE may be left (R401). -/
def State.runClearing (s : State) (x : Clearing) : State :=
  let was := s.isSafe
  let lasts := x.sources.map fun n => (n, SMap.get (fun _ => 0) s.flt.lastInst n - 1)
  let s := (each x.sources State.clearSource s).showLog
  let s := if s.latchedList.isEmpty then s.rearm else s
  let s := each (lasts.filter fun p => s.causeStands p.1) (fun s p =>
    (s.inc R.FLT_CNT_CLEAR_REFUSED).raise p.1 p.2) s
  let s := s.judgeSafety x.exitSafe
  s.event 0xB 3 [(16, 1, x.scope), (17, 1, if was && !s.isSafe then 1 else 0), (18, 2, x.sources.length), (20, 2, x.refused)]

/-- Every granted clear takes effect, in the order of the grants. -/
def State.runClears (s : State) : State :=
  each s.flt.clearing State.runClearing { s with flt := { s.flt with clearing := [] } }

/-! ### Sources and the collector itself -/

/-- The collector works: the main domains are out of reset. -/
def State.collects (s : State) : Bool := !(decide (s.sys.boot = .off) || decide (s.sys.boot = .reset))

/-- A source's pair as it is seen: 0 asserted for one clock, 1 asserted, 2 clear (R385, R387). A pair that stays
asserted with the instance last logged is no new assertion. -/
def State.sourceSeen (s : State) (n inst pair : Nat) (i : FaultInfo) : State :=
  if !s.collects || (sourceClass n).isNone then s
  else if pair = 2 then
    ({ s with flt := { s.flt with broken := s.flt.broken.filter (· ≠ n) } }).setActive n false
  else if pair = 1 ∧ s.active n ∧ SMap.get (fun _ => 0) s.flt.lastInst n = inst + 1 then s
  else (if pair = 1 then s.setActive n true else s).raiseWith n inst i

/-- A pair is read invalid twice in a row: the source is taken as asserted, and the pair is reported (R385). -/
def State.pairBroken (s : State) (n : Nat) : State :=
  if !s.collects || (sourceClass n).isNone || s.flt.broken.contains n then s
  else
    let s := ({ s with flt := { s.flt with broken := s.flt.broken ++ [n] } }).setActive n true
    (s.raise n 0).raise 0x160 n

/-- An integrity fault: the hardwired safe state; the holder gives up its claim (R399). -/
def State.integrity (s : State) : State :=
  if !s.collects then s
  else
    let s := (s.wrB R.FLT_STAT_HW_SAFE true).wrBit R.FLT_SAFE_CAUSE_CAUSE 5 true
    let s := s.pwmOffAll.raise 0x161 0
    if s.role = .active then s.releaseClaim 4 else s

/-- "Fault log overflow" is logged in the first entry that frees (R393). -/
def State.logOverflow (s : State) : State :=
  if s.flt.overflow && s.freeLog.isSome then ({ s with flt := { s.flt with overflow := false } }).raise 0x162 0 else s

end Sys2Proof.Machine
end

