-- ==== Sys2Proof/Machine/HostLink.lean ====
section
/-! DEFINITION. The host side: ring set-up and doorbells, what stops and returns DMA, held records and write-backs,
MSI-X, the host watchdog and its plans (R87 to R95, R114 to R121). -/

set_option Elab.async false

namespace Sys2Proof.Machine

open Sys2Proof

/-! ### Ring errors and doorbells -/

/-- RING_ERROR (Table 4.15). -/
def State.ringError (s : State) (r code : Nat) : State :=
  ((s.wr (R.HST_RING_STATE_ERR_CODE r) code).wrB (R.HST_RING_STATE_ERR r) true).event 0 4 [(16, 1, r), (17, 1, code)]

/-- Ring `r` halts on a doorbell that is not accepted (R93). -/
def State.doorbellBad (s : State) (r : Nat) : State :=
  (((s.wrB (R.HST_RING_STATE_HALTED r) true).raise 0x00C r).ringError r 1)

/-- A DMA error of ring `r` at a host address: the ring halts (R88), also where the access was issued before DMA became
impossible. A ring that is disabled and quiesced has none under way. -/
def State.dmaError (s : State) (r addr : Nat) (write : Bool) : State :=
  if 23 ≤ r || (!s.is (R.HST_RING_CTL_ENABLE r) && s.is (R.HST_RING_STATE_QUIESCED r)) then s
  else
    ((s.wrB (R.HST_RING_STATE_HALTED r) true).raiseWith 0x00B r
      { addr := addr, master := 0, access := if write then 4 else 3 }).ringError r 2

/-- A set-up field written while its ring or stream is fixed (R90). -/
def State.setupBad (s : State) (r : Nat) : State :=
  (s.wr (R.HST_RING_STATE_ERR_CODE r) 3).wrB (R.HST_RING_STATE_ERR r) true

/-- Index words that waited, held write-backs, then held records, go out while they can (R87, R99, R114). -/
def State.flushHost (s : State) : State :=
  let s := s.flushIndex.flushWb
  (s.drainStore s.hst.store.length).showHeld

/-- A write of `HST_RING_DB` on a posted ring (R93). -/
def State.doorbell (s : State) (r idx : Nat) : State :=
  if !s.ringRuns r then s
  else
    let prod := s.rd (R.HST_RING_STAT_PROD r)
    let cons := s.rd (R.HST_RING_STAT_CONS r)
    if (idx + 65536 - cons) % 65536 ≤ s.ringSize r ∧ (idx + 65536 - prod) % 65536 ≤ s.ringSize r then
      let s := (s.wr (R.HST_RING_STAT_PROD r) idx).modRing r fun g => { g with fetched := idx }
      if idx ≠ prod ∧ r < 4 then s.restartWatch else s
    else s.doorbellBad r

/-- A write of `HST_RING_DB` on the event ring: consumed records are freed (R94). -/
def State.consumed (s : State) (idx : Nat) : State :=
  if !s.ringRuns evtq then s
  else
    let prod := s.rd (R.HST_RING_STAT_PROD evtq)
    let cons := s.rd (R.HST_RING_STAT_CONS evtq)
    if (idx + 65536 - prod) % 65536 ≤ (cons + 65536 - prod) % 65536 then
      (s.wr (R.HST_RING_STAT_PROD evtq) idx).flushHost
    else s.doorbellBad evtq

/-- A write of a doorbell register of ring `r`. -/
def State.doorbellWrite (s : State) (r : Nat) (v : Word) (q : Requester := byHost) : State :=
  if 23 ≤ r then s
  else s.hostWrite (q := q) (0x8118 + 0x20 * r) v fun s =>
    if r = evtq then s.consumed (v.toNat % 65536) else s.doorbell r (v.toNat % 65536)

/-! ### Enable and disable (R90, R95) -/

/-- Are base and size of ring `r` fixed? (R90) -/
def State.ringFixed (s : State) (r : Nat) : Bool :=
  s.is (R.HST_RING_CTL_ENABLE r) || !s.is (R.HST_RING_STATE_QUIESCED r)

/-- Ring `r` starts from index 0 (R92, R95). -/
def State.enableRing (s : State) (r : Nat) : State :=
  let s := (s.wrB (R.HST_RING_CTL_ENABLE r) true).wrB (R.HST_RING_STATE_QUIESCED r) false
  let s := (s.wrB (R.HST_RING_STATE_HALTED r) false).wrB (R.HST_RING_STATE_ENABLE_PENDING r) false
  let s := (s.wr (R.HST_RING_STAT_PROD r) 0).wr (R.HST_RING_STAT_CONS r) 0
  let s := (s.modRing r fun _ => {}).indexWord r
  if r = evtq then s.flushHost else s

/-- Is `i` an index at or before `hi`, counted from `lo`? -/
def idxWithin (lo i hi : Nat) : Bool := decide ((i + 65536 - lo) % 65536 ≤ (hi + 65536 - lo) % 65536)

/-- Ring `r` is disabled: fetching stops at `fetched`, which lies between what has been taken up and the last
doorbell (R95). A halted ring has nothing left to fetch. -/
def State.disableRing (s : State) (r fetched : Nat) : State :=
  let s := s.wrB (R.HST_RING_STATE_ENABLE_PENDING r) false
  if s.is (R.HST_RING_CTL_ENABLE r) then
    let g := s.ring r
    let upTo := if s.is (R.HST_RING_STATE_HALTED r) then g.fetch
      else if idxWithin g.fetch fetched g.fetched then fetched else g.fetched
    (s.wrB (R.HST_RING_CTL_ENABLE r) false).modRing r fun g => { g with fetched := upTo }
  else s

/-- A write of `HST_RING_CTL` of ring `r`; `fetched` is where fetching stood if it disables the ring. A fixed size is
discarded (R90), a reserved one is refused by its field as in any write (R12). -/
def State.ringCtl (s : State) (r : Nat) (v : Word) (fetched : Nat) (q : Requester := byHost) : State :=
  if 23 ≤ r then s
  else
    let fixed := s.ringFixed r
    let size := R.HST_RING_CTL_SIZE_LOG2 r
    let bad := fixed && decide (size.get v ≠ s.rd size)
    let legal := decide (4 ≤ size.get v) && decide (size.get v ≤ 12)
    let w := if bad && legal then size.put v (s.rd size) else v
    let w := (R.HST_RING_CTL_ENABLE r).put w (s.rd (R.HST_RING_CTL_ENABLE r))
    s.hostWrite (q := q) (0x8108 + 0x20 * r) w fun s =>
      let s := if bad then s.setupBad r else s
      if v.getLsbD 31 then
        if s.is (R.HST_RING_CTL_ENABLE r) then s
        else if s.is (R.HST_RING_STATE_QUIESCED r) then s.enableRing r
        else s.wrB (R.HST_RING_STATE_ENABLE_PENDING r) true
      else s.disableRing r fetched

/-- A write of a register whose value is fixed while `fixed` holds; a change is discarded (R90). -/
def State.fixedWrite (s : State) (fixed : Bool) (r off : Nat) (v : Word) (q : Requester := byHost) : State :=
  let keep := match regAt off with
    | some (d, _) => d.fields.all fun f => decide ((Fld.mk off f.lsb f.width).get v = (Fld.mk off f.lsb f.width).get (s.reg off))
    | none => true
  if fixed && !keep && s.decodes off then s.setupBad r else s.hostWrite off v id q

/-- A disabled ring has finished what it had fetched (R95). Buffers and frames it leaves complete REJECTED_MODE. -/
def State.ringQuiesced (s : State) (r : Nat) : State :=
  let g := s.ring r
  if 23 ≤ r || s.is (R.HST_RING_CTL_ENABLE r) || s.is (R.HST_RING_STATE_QUIESCED r) || decide (g.fetch ≠ g.fetched) ||
      s.hst.held.any (fun h => decide (h.ring = r)) || s.hst.heldWb.any (fun w => decide (w.ring = r)) then s
  else
    let s := each (s.postedOf r) (fun s p => s.wbPosted r p.idx p.desc 0 Status.mode.code 0 0 0) s
    let s := { s with hst := { s.hst with posted := s.hst.posted.filter fun p => p.ring ≠ r } }
    let s := s.wrB (R.HST_RING_STATE_QUIESCED r) true
    if s.is (R.HST_RING_STATE_ENABLE_PENDING r) then s.enableRing r else s

/-! ### What stops and returns DMA (R87) -/

/-- Every ring, in order. -/
def allRings : List Nat := List.range 23

/-- The write-backs of ring `r` are dropped from now on, those held among them (R87). -/
def State.dropWriteBacks (s : State) (r : Nat) : State :=
  ({ s with hst := { s.hst with heldWb := s.hst.heldWb.filter fun w => w.ring ≠ r } }).modRing r fun g => { g with dropWb := true }

/-- Every ring disabled by a cause of R87: what it has fetched is checked and takes effect, its write-backs are
dropped. -/
def State.dropRings (s : State) : State :=
  each allRings (fun s r =>
    let on := s.is (R.HST_RING_CTL_ENABLE r)
    let s := s.disableRing r (s.ring r).fetched
    if on then s.dropWriteBacks r else s) s

/-- The MSI-X table, the pending bits, MSI-X Enable and Function Mask as after reset (R87). -/
def State.msixClear (s : State) : State :=
  { s with hst := { s.hst with msixTable := [], msixPending := 0, msixEnable := false, msixMask := false } }

/-- `PERST_N` falls (R77, R87). -/
def State.perst (s : State) : State :=
  let s := { s with hst := { s.hst with perstHigh := false, linkUp := false, inD0 := true, busMaster := false
                                        l1 := false, bar := 4 } }
  s.dropRings.msixClear

/-- `PERST_N` rises. -/
def State.perstRelease (s : State) : State := { s with hst := { s.hst with perstHigh := true } }

/-- A Function Level Reset. -/
def State.flr (s : State) : State :=
  if !s.hst.perstHigh then s
  else
    let s := { s with hst := { s.hst with inD0 := true, busMaster := false, bar := 4 } }
    s.dropRings.msixClear

/-- Bus Master Enable cleared. -/
def State.bmeClear (s : State) : State :=
  if !s.hst.perstHigh then s
  else ({ s with hst := { s.hst with busMaster := false } }).dropRings

/-- Bus Master Enable set, over a link that is up. -/
def State.bmeSet (s : State) : State :=
  if s.hst.perstHigh && s.hst.linkUp then ({ s with hst := { s.hst with busMaster := true } }).flushHost else s

/-- The link goes down without a reset. -/
def State.linkDown (s : State) : State := { s with hst := { s.hst with linkUp := false } }

/-- The link comes up, on a running PCIe clock (Table 3.4). -/
def State.linkUps (s : State) : State :=
  if s.hst.perstHigh && !s.onBackup 10 && !(decide (s.sys.boot = .off) || decide (s.sys.boot = .reset)) then
    ({ s with hst := { s.hst with linkUp := true } }).flushHost
  else s

/-- The function enters D3hot. -/
def State.d3hot (s : State) : State := if s.hst.perstHigh then { s with hst := { s.hst with inD0 := false } } else s

/-- The function returns to D0. -/
def State.d0 (s : State) : State :=
  if s.hst.perstHigh then ({ s with hst := { s.hst with inD0 := true } }).flushHost else s

/-! ### MSI-X (R116) -/

/-- Messages left pending go out where nothing masks them. -/
def State.sendPending (s : State) : State :=
  each (List.range 32) (fun s v =>
    if s.hst.msixPending.getLsbD v && s.maySend v then
      ({ s with hst := { s.hst with msixPending := setBit s.hst.msixPending v false } }).emit (.msix v)
    else s) s

/-- COUNT or HOLDOFF of ring `r` is reached: what has gathered is signalled. -/
def State.holdoff (s : State) (r : Nat) : State :=
  if decide (r < 23) && decide (0 < (s.ring r).gathered) then s.ringMessage r else s

/-- A vector unmasked, with MSI-X Enable and Function Mask as configuration space has them. -/
def State.unmask (s : State) (v : Nat) (enable mask : Bool) : State :=
  if 32 ≤ v then s
  else
    let o := 0x80000 + 16 * v + 12
    let w := SMap.get msixReset s.hst.msixTable o &&& ~~~1#32
    let t := SMap.put msixReset s.hst.msixTable o w
    let s := { s with hst := { s.hst with msixTable := t, msixEnable := enable, msixMask := mask } }
    s.sendPending

/-- A write of one word of the MSI-X table; the pending bits are read-only (R89). -/
def State.msixWrite (s : State) (off : Nat) (v : Word) : State :=
  if 0x81000 ≤ off then s
  else
    let w := if off % 16 = 12 then v &&& 1#32 else if off % 16 = 0 then v &&& ~~~3#32 else v
    ({ s with hst := { s.hst with msixTable := SMap.put msixReset s.hst.msixTable off w } }).sendPending

/-! ### Watchdog and plans (R118 to R121) -/

/-- HEARTBEAT (R118). -/
def ownHeartbeat : Owner := fun _ s => (s.restartWatch, vOk)

/-- HOST_RESUME (R120): on `CMDQ0` it ends a plan; on another ring a plan refuses it. -/
def ownResume : Owner := fun c s =>
  if !s.planActive then (s, vOk)
  else if c.ring ≠ 0 then (s, vMode 2)
  else
    let was := s.rd R.HST_WATCH_STAT_STATE
    let s := ({ s with hst := { s.hst with plan := none, warned := false } }).wrBit R.FLT_SAFE_CAUSE_CAUSE 2 false
    (s.showWatch.event 0 7 [(16, 1, was)], vOk)

/-- Does the watchdog count? -/
def State.watching (s : State) : Bool :=
  s.is R.HST_WATCH_ENABLE && s.hst.armed && s.hst.plan.isNone && s.hst.watchSwap.isNone && s.bootDone

/-- Half of TIMEOUT has passed without a restart. -/
def State.watchWarn (s : State) : State :=
  if s.watching && !s.hst.warned then
    ((({ s with hst := { s.hst with warned := true } }).showWatch).event 0 5 []).sendVec 24
  else s

/-- A ramp plan has brought the set-points to zero, or found nothing to ramp; the power state HOLD of RAMP_HOLD
follows at the next SAMPLE mark (Table 3.17). -/
def State.planIdle (s : State) (p : Plan) : State :=
  let s := if s.grid ≠ 0 ∨ s.shutting then s.reachIdle else s
  let s := { s with hst := { s.hst with plan := some { p with waiting := false, complete := true } } }
  let s := if decide (p.plan = 2) && decide (s.power = .run) && s.sys.move.isNone then s.startMove .hold else s
  s.showWatch

/-- The plan is entered. -/
def State.planStart (s : State) (p : Plan) : State :=
  let p := { p with waiting := false, since := s.sys.k }
  if p.plan = 0 ∨ p.plan = 3 then
    let s := { s with hst := { s.hst with plan := some { p with complete := true } } }
    (if p.plan = 3 then s.wrBit R.FLT_SAFE_CAUSE_CAUSE 2 true else s).showWatch
  else if s.grid = 0 then s.planIdle p
  else ({ s with hst := { s.hst with plan := some { p with start := s.powerSetpoints } } }).showWatch

/-- The plan of `HST_WATCH.PLAN`, to be entered at the next SAMPLE mark in RUN, at once elsewhere (R118). -/
def State.planDue (s : State) : State :=
  let p : Plan := { plan := s.rd R.HST_WATCH_PLAN, waiting := true, since := 0, start := [] }
  if s.power = .run then ({ s with hst := { s.hst with plan := some p } }).showWatch else s.planStart p

/-- May the watchdog ask for a swap in place of its plan? The partner's heartbeat shows its health and its watchdog
(R121, Table 14.4). -/
def State.watchSwaps (s : State) : Bool :=
  decide (s.role = .active) && s.is R.HST_WATCH_SWAP_FIRST && (s.swapRefused (decide (leAt s.red.partner 5 1 % 4 = 1))).isNone

/-- What an expiry leads to in a role: nothing more at a standby, a role swap, or the host-loss plan (R118, R119,
R121). -/
def State.expiredIn (s : State) (r : Role) (swap : Bool) : State :=
  if r = .standby then ({ s with hst := { s.hst with armed := false, warned := false } }).showWatch
  else if swap then ({ s with hst := { s.hst with watchSwap := some s.sys.k } }).swapStart 0 true
  else s.planDue

/-- The watchdog reaches TIMEOUT: every kept command is resolved (R103, R118, R121). -/
def State.watchExpired (s : State) : State :=
  if !s.watching then s
  else
    let swap := s.watchSwaps
    let plan := s.rd R.HST_WATCH_PLAN
    let s := (s.wrB R.HST_WATCH_STAT_EXPIRED true).inc R.HST_WATCH_STAT_EXPIRIES
    let s := { s with hst := { s.hst with warned := true } }
    let s := s.raise 0x00D plan
    let s := (s.event 0 6 [(16, 1, plan), (17, 1, if swap then 1 else 0)]).sendVec 24
    (s.resolveWhere (fun _ => true) (vMode 2)).expiredIn s.role swap

/-- A swap that the watchdog asked for has failed, been aborted, or taken too long: the plan runs (R121). -/
def State.watchSwapAtMark (s : State) : State :=
  match s.hst.watchSwap with
  | none => s
  | some c =>
    if s.red.swap.isNone || decide (c + 5 ≤ s.sys.k) then ({ s with hst := { s.hst with watchSwap := none } }).planDue else s

/-- ns of a plan's ramp. -/
def State.planRamp (s : State) : Nat := s.rd R.HST_WATCH_RAMP * 100000000

/-- The plan at a SAMPLE mark: entered where it waits, its ramp one step on, or over. -/
def State.planAtMark (s : State) : State :=
  let s := s.watchSwapAtMark
  match s.hst.plan with
  | none => s
  | some p =>
    let elapsed := (s.sys.k - p.since) * s.periodNs
    if p.waiting then s.planStart p
    else if p.complete then s
    else if p.ended || decide (s.planRamp ≤ elapsed) then (s.rampStep p.start 1 1).planIdle p
    else s.rampStep p.start elapsed s.planRamp

/-- The ramp of a plan ends; the set-points and the grid mode follow at the next SAMPLE mark (R23, R119). -/
def State.planRampEnd (s : State) : State :=
  match s.hst.plan with
  | none => s
  | some p =>
    if p.waiting || p.complete then s
    else
      let s := s.advanceTo (s.markTime p.since + (s.planRamp : Int))
      if s.marksRun then { s with hst := { s.hst with plan := some { p with ended := true } } }
      else (s.rampStep p.start 1 1).planIdle p

/-! ### Overlays (R429) -/

/-- The first condition of Table 17.5 that refuses overlay `i`; `loops` is LOOP_POUNDS as written. -/
def State.overlayRefused (s : State) (i loops : Nat) : Option Nat :=
  let calm := decide (s.power = .hold) || (decide (i ≠ 2) && decide (s.power = .run))
  if s.isSafe then some 1
  else if !calm then some 2
  else if s.grid ≠ 0 then some 3
  else if i = 2 then
    if loops = 0 then some 5
    else if s.poundList.any fun p => loops.testBit p && decide (s.poundState p ≠ 0) then some 4
    else none
  else if i = 0 && !s.noDriveTurns then some 6
  else none

/-- The overlays of `ask` judged in ascending order against `now`: those granted, and the first refusal. -/
def State.overlayJudge (s : State) (ask now loops : Nat) : Nat × Option Nat :=
  [0, 1, 2].foldl (fun (g, e) i =>
    if ask.testBit i && !now.testBit i then
      match s.overlayRefused i loops with
      | none => (g + 2 ^ i, e)
      | some c => (g, some (e.getD c))
    else (g, e)) (0, none)

/-- A write of `SYS_OVERLAY` (R429). -/
def State.overlayWrite (s : State) (v : Word) (q : Requester := byHost) : State :=
  let now := (s.reg 0x50).toNat % 8
  let fused := 2 ^ s.poundCount - 1
  let loops := (v.toNat / 2 ^ 16) % 4096 &&& fused
  let held := decide (4 ≤ now) && v.getLsbD 2
  let changed := held && decide (loops ≠ s.rd R.SYS_OVERLAY_LOOP_POUNDS)
  let ask := v.toNat % 8
  let (granted, bad) := s.overlayJudge ask now loops
  let bad := if changed then some (bad.getD 5) else bad
  let ends := now - (now &&& ask)
  -- an overlay that ends is let go of with the pounds it had
  let ps := if ends.testBit 2 then s.loopPounds else []
  let w : Word := BitVec.ofNat 32 ((if held then s.rd R.SYS_OVERLAY_LOOP_POUNDS else loops) * 2 ^ 16
    + (s.reg 0x50).toNat % 2048 / 128 * 128 + (now - ends + granted))
  s.hostWrite (q := q) 0x50 (v &&& 0x80#32) fun s =>
    let s := s.setReg 0x50 (w &&& ~~~(v &&& 0x80#32))
    let s := match bad with
      | none => s
      | some c => (s.wrB R.SYS_OVERLAY_REFUSED true).wr R.SYS_OVERLAY_REFUSE_CODE c
    let s := each ps State.unloopPound s
    let s := if granted.testBit 0 then s.pwmOffAll else s
    let s := if granted.testBit 2 then each s.loopPounds State.loopPound s else s
    if granted ≠ 0 ∨ ends ≠ 0 ∨ bad.isSome then s.overlayEvent 1 (bad.getD 0) else s

/-! ### Cycle period (R26) -/

/-- The first refusal of a commit of PERIOD `p` (R26, R204, Table 1.5). DESIGN CHOICE: which REFUSE_CODE is shown when
several cases of R26 hold at once is that of the first in this order of tests; the spec gives no precedence (log entry
111). -/
def State.cycleRefused (s : State) (p : Nat) : Option Nat :=
  if p < 500 ∨ 20000 < p then some 2
  else if p * 10 < rateMin s.lowestTarget ∨ p < s.minPeriod then some 1
  else if s.grid ≠ 0 then some 3
  else if s.role = .standby then some 4
  else if s.red.swap.isSome then some 5
  else none

/-- A write of `SYS_CYCLE`. -/
def State.cycleWrite (s : State) (v : Word) (q : Requester := byHost) : State :=
  s.hostWrite (q := q) 0x10 v fun s =>
    if v.getLsbD 31 then
      let p := s.rd R.SYS_CYCLE_PERIOD
      match s.cycleRefused p with
      | some c => (s.wrB R.SYS_CYCLE_STAT_REFUSED true).wr R.SYS_CYCLE_STAT_REFUSE_CODE c
      | none => { s with sys := { s.sys with newPeriod := some p } }
    else s

/-! ### Telemetry (R106 to R109) -/

/-- Bytes of an item in a block (Table 4.11). -/
def itemBytes (w : Word) : Nat :=
  match w.toNat / 2 ^ 28 with
  | 2 => 104
  | 3 => 32
  | _ => 8

/-- May a ledger quantity be selected? (Table 9.1, R2) -/
def State.ledgerMember (s : State) (g m : Nat) : Bool :=
  match g with
  | 0 => (s.cellFused m).isNone
  | 1 => (s.poundFused m).isNone
  | 2 => decide (m < 3)
  | 3 | 4 | 5 | 0xB => decide (m = 0)
  | 6 => decide (m < 5)
  | 7 | 8 | 9 => decide (m < 16)
  | 0xA => decide (m < 2)
  | _ => false

/-- Is a selector's kind and index valid? (Table 4.11) -/
def State.selectorOk (s : State) (w : Word) : Bool :=
  let i := w.toNat % 2 ^ 28
  match w.toNat / 2 ^ 28 with
  | 1 => decide (i < 4096)
  | 2 => (s.cellFused i).isNone
  | 3 => decide (i < 64)
  | 4 => decide (i / 2 ^ 20 = 0) && decide (i / 256 % 256 = 0) && s.ledgerMember (i / 2 ^ 16) (i % 256)
  | _ => false

/-- Bytes of a block with these items. -/
def blockBytes (items : List Word) : Nat := 32 + (items.map itemBytes).foldl (· + ·) 0

/-- Stream `i`. -/
def State.stream (s : State) (i : Nat) : Stream := SMap.get (fun _ => {}) s.hst.streams i

/-- The state with stream `i` set. -/
def State.setStream (s : State) (i : Nat) (x : Stream) : State :=
  { s with hst := { s.hst with streams := SMap.put (fun _ => {}) s.hst.streams i x } }

/-- Bytes per cycle that enabled streams ask of host memory, with one more of `b` bytes at decimation `d` (R109). -/
def State.tlmRate (s : State) (i b d : Nat) : Rat :=
  (List.range 8).foldl (fun q j =>
    if j ≠ i ∧ s.is (R.HST_TLM_CTL_ENABLE j) then q + mkRat (blockBytes (s.stream j).items) (s.rd (R.HST_TLM_CTL_DECIM j)) else q)
    (mkRat b d)

/-- Refusal of an enable of stream `i`; `list` is what the read of the item list gave (Table 4.13). -/
def State.tlmRefused (s : State) (i : Nat) (list : Option (List Word)) : Option Nat :=
  let n := s.rd (R.HST_TLM_CTL_ITEMS i)
  let d := s.rd (R.HST_TLM_CTL_DECIM i)
  if n = 0 ∨ 1024 < n ∨ d = 0 then some 5
  else match list with
    | none => some 1
    | some xs =>
      let xs := xs.take n
      if !s.canDma || decide (xs.length < n) then some 1
      else if !xs.all s.selectorOk then some 2
      else if 65536 < blockBytes xs then some 3
      else if 10000 < s.tlmRate i (blockBytes xs) d then some 4
      else none

/-- A write of `HST_TLM_CTL` of stream `i` (R90, R106). -/
def State.tlmCtl (s : State) (i : Nat) (v : Word) (list : Option (List Word)) (q : Requester := byHost) : State :=
  if 8 ≤ i then s
  else
    let on := s.is (R.HST_TLM_CTL_ENABLE i)
    let old := s.reg (0x8400 + 0x10 * i)
    let fs := [R.HST_TLM_CTL_ITEMS i, R.HST_TLM_CTL_DECIM i]
    let bad := on && fs.any fun f => decide (f.get v ≠ f.get old)
    let w := if bad then fs.foldl (fun w f =>
        if f.get v = 0 ∨ (f = R.HST_TLM_CTL_ITEMS i ∧ 1024 < f.get v) then w else f.put w (f.get old)) v
      else v
    s.hostWrite (q := q) (0x8400 + 0x10 * i) w fun s =>
      let s := if bad then s.setupBad (4 + i) else s
      if on || !v.getLsbD 31 then s
      else match s.tlmRefused i list with
        | some c =>
          ((s.wrB (R.HST_TLM_CTL_ENABLE i) false).wrB (R.HST_TLM_STAT_REFUSED i) true).wr (R.HST_TLM_STAT_REFUSE_CODE i) c
        | none =>
          (s.wr (R.HST_TLM_STAT_DROPPED i) 0).setStream i
            { items := (list.getD []).take (s.rd (R.HST_TLM_CTL_ITEMS i)), gap := 0, last := 0 }

/-- Age of the last state of a cell in cycles, saturating; 0xFF before any (Table 4.11). -/
def State.stateAge (s : State) (g : Nat) : Nat :=
  let x := (s.link g).sample
  if x = 0 then 255 else min 255 (s.sys.k + 1 - x)

/-- A ledger quantity as a signed or unsigned 64-bit number (Table 9.1). -/
def State.ledgerValue (s : State) (g m : Nat) : Int :=
  let x := s.nrg.ledger
  match g with
  | 0 => x.cell m
  | 1 => x.pound m
  | 2 => s.legEnergy x m
  | 3 => x.total
  | 4 => x.lv
  | 5 => x.aux
  | 6 => x.rel.getD m 0
  | 7 => s.soeOf m
  | 8 => (SMap.get (fun _ => (0 : Nat)) s.nrg.eIn m : Nat)
  | 9 => (SMap.get (fun _ => (0 : Nat)) s.nrg.eOut m : Nat)
  | 0xA => if m = 0 then (s.nrg.pccIn : Int) else (s.nrg.pccOut : Int)
  | _ => x.relMax

/-- The bytes of an item (Table 4.11). -/
def State.itemOf (s : State) (w : Word) : Bytes :=
  let i := w.toNat % 2 ^ 28
  match w.toNat / 2 ^ 28 with
  | 1 => s.slotBytes i
  | 2 =>
    let l := s.link i
    layBytes 8 [(0, 2, l.cycle), (2, 1, l.typ), (3, 1, s.stateAge i)] ++ (List.range 96).map fun j => l.payload.getD j 0
  | 3 => s.accItem i
  | _ => layBytes 8 [(0, 8, ux 64 (s.ledgerValue (i / 2 ^ 16) (i % 256)))]

/-- The header and items of a block of stream `i` (R107). -/
def State.blockOf (s : State) (i : Nat) (x : Stream) : Bytes :=
  layBytes 32 [(0, 1, i), (1, 1, 1), (2, 2, x.items.length), (4, 2, s.cycleNum), (6, 2, min x.gap 0xFFFF),
    (8, 8, ux 64 (s.markTime s.sys.k)), (16, 4, blockBytes x.items)] ++ x.items.flatMap s.itemOf

/-- A due block is dropped and counted. -/
def State.dropBlock (s : State) (i : Nat) (x : Stream) : State :=
  (s.setStream i { x with gap := x.gap + 1, last := s.sys.k + 1 }).inc (R.HST_TLM_STAT_DROPPED i)

/-- The due block of stream `i` is written, or dropped (R87, R107, R108). -/
def State.blockWrite (s : State) (i : Nat) : State :=
  let x := s.stream i
  let r := 4 + i
  let due := decide (i < 8) && s.is (R.HST_TLM_CTL_ENABLE i) && (decide (s.power = .run) || decide (s.power = .hold)) &&
    decide (s.sys.k % s.rd (R.HST_TLM_CTL_DECIM i) = 0) && decide (x.last ≠ s.sys.k + 1)
  if !due then s
  else match s.postedOf r with
    | [] => s.dropBlock i x
    | p :: _ =>
      if !s.canDma || s.is (R.HST_RING_STATE_HALTED r) then s.dropBlock i x
      else if p.desc.le 12 4 < blockBytes x.items then (s.dropBlock i x).completePosted r 0 6 0 0xC 0
      else
        let s := s.emit (.telemetry (p.desc.le 4 8) (s.blockOf i x))
        let s := s.setStream i { x with gap := 0, last := s.sys.k + 1 }
        s.completePosted r (blockBytes x.items) 0 (if x.gap = 0 then 0 else 8) 0 s.cycleNum

/-! ### Configuration space (R86, Table 4.1): what identifies the function -/

/-- Word at `off` of the type 0 header: identity, Bus Master Enable, class code, the one 64-bit BAR; BAR2 to BAR5,
expansion ROM and Interrupt Pin read 0. -/
def State.configWord (s : State) (off : Nat) : Word :=
  if off = 0x00 then BitVec.ofNat 32 (s.rd R.SYS_ID_PART * 65536 + Config.vendorId.toNat)
  else if off = 0x04 then BitVec.ofNat 32 ((if s.hst.busMaster then 4 else 0) + 0x100000)
  else if off = 0x08 then 0x118000B0#32
  else if off = 0x10 then s.hst.bar.setWidth 32
  else if off = 0x14 then (s.hst.bar >>> 32).setWidth 32
  else 0#32

/-- Message Control of MSI-X: 32 vectors, Function Mask, MSI-X Enable (R86, R116). -/
def State.msixControl (s : State) : BitVec 16 :=
  31#16 ||| (if s.hst.msixMask then 0x4000#16 else 0) ||| (if s.hst.msixEnable then 0x8000#16 else 0)

/-- The 64 bits of the Device Serial Number capability. -/
def deviceSerial : BitVec 64 := Config.serialNumber Config.deviceUid

end Sys2Proof.Machine
end

