-- ==== Sys2Proof/Machine/Cycle.lean ====
section
/-! DEFINITION. The cycle: SAMPLE mark, compute window, downlink and service windows, APPLY mark (R17 to R24, R201 to
R204, R214, R215, R223, R363). -/

set_option Elab.async false

namespace Sys2Proof.Machine

open Sys2Proof

/-! ### SAMPLE mark (R17, R23) -/

/-- Full cycle count of the next SAMPLE mark: the first on the grid whose instant is not past, after the last one
(R17). -/
def State.nextK (s : State) : Nat :=
  let t : Int := s.plantFrac - s.sys.epoch * 65536
  let p : Int := (s.periodNs : Int) * 65536
  max (s.sys.k + 1) ((s.sys.epochK : Int) + (t + p - 1) / p).toNat

/-- The cycle count and the corrected time move to the mark, and the flags of the cycle start afresh. -/
def State.toMark (s : State) : State :=
  let k := s.nextK
  let s := s.advanceTo (s.markTime k)
  let s := { s with sys := { s.sys with k := k, windowOpen := false, scheduleDone := false, overrun := false
                                        downlinkSent := false, applied := false }
                    cnl := { s.cnl with sentSvc := [] } }
  s.wr R.SYS_CYCLE_STAT_CYCLE_NUM (k % 65536)

/-- A committed period takes effect: this mark is the new epoch (R27). -/
def State.takePeriod (s : State) : State :=
  match s.sys.newPeriod with
  | none => s
  | some p =>
    let e := s.markTime s.sys.k
    ({ s with sys := { s.sys with newPeriod := none, epoch := e, epochK := s.sys.k } }).wr R.SYS_CYCLE_NOW_PERIOD p

/-- The standby takes the holder's period and epoch at a SAMPLE mark, which then lies on the holder's grid (R27). -/
def State.takeHolderGrid (s : State) : State :=
  match s.sys.newGrid with
  | none => s
  | some (p, e, c) => ({ s with sys := { s.sys with newGrid := none, epoch := e, epochK := c } }).wr R.SYS_CYCLE_NOW_PERIOD p

/-- Metering values that came after the last compute window opened enter their slots, in the order in which they came
(R23, R195). -/
def State.takeMetered (s : State) : State :=
  each s.loop.metered (fun s (slot, v, q, k) => if s.slotKind slot = 3 then s.putSlot slot v q k else s)
    { s with loop := { s.loop with metered := [] } }

/-- Staged set-points enter their slots, in admission order (R29, R216). -/
def State.takeStaged (s : State) : State :=
  let xs := s.loop.staged
  each xs (fun s (slot, v) => if s.slotKind slot = 0 then s else s.putSlot slot v qValid s.sys.k)
    { s with loop := { s.loop with staged := [] } }

/-- An admitted command takes effect at its mark (R29). -/
def State.dueEffect (s : State) (x : Due) : State :=
  match x.desc.opcode.toNat with
  | 0x10 => s.gridEffect (x.desc.le 4 1) x.kept
  | 0x11 => s.wr R.NRG_CTL_DIR (x.desc.le 4 1)
  | 0x40 => s.poundEnable (x.desc.le 4 1) (x.desc.le 5 1) x.kept
  | 0x41 => s.poundDisable (x.desc.le 4 1)
  | 0x42 => s.cellBypass (x.desc.le 4 2) (x.desc.le 6 1)
  | 0x50 => s.sluiceCmd x.desc
  | 0x60 => s.auxRun x.desc x.kept
  | 0x61 => s.auxStop x.desc
  | _ => s

/-- Commands due at this mark, in admission order. -/
def State.takeDue (s : State) : State :=
  let now := s.hst.due.filter fun x => x.mark ≤ s.sys.k
  each now State.dueEffect { s with hst := { s.hst with due := s.hst.due.filter fun x => s.sys.k < x.mark } }

/-- The frame unit at a SAMPLE mark: θ is 0 at an entry to RUN (R222). -/
def State.frameAtMark (s : State) (entered : Bool) : State :=
  let s := s.advanceFrame
  if entered then { s with cell := { s.cell with theta := 0 } } else s

/-- What changes at the mark before the commands due: time, period, bank, power, clocks, service. -/
def State.markFirst (s : State) : State :=
  let s := s.takeHolderGrid.toMark.captureFinal.takePeriod.stepAtMark.showWindow
  let s := s.runMirrors.swapBank.takeStaged.powerAtMark.takeFollow
  s.takeReturns.takeUpdate

/-- Commands due, clears and the host-loss plan. -/
def State.markCommands (s : State) : State :=
  s.evalServices.takeDue.runClears.planAtMark.shutRamp

/-- The Basin and the Manager at the mark. -/
def State.markBasin (s : State) : State :=
  let s := s.meterStrings
  let s := (each (List.range 16) State.guardString s).feedStrings
  let s := s.limitPower.auxAllowance.recheckDeferred.autoSluice.sluiceAdvance.sluicePending
  let s := each [0, 1, 2] State.judgeLeg s
  (each s.poundList State.prechargeDone s.blendEnd).rejoinCells

/-- SAMPLE mark, in the power states in which marks run (R22, R23); `xs` are the samples of the MARK values (R275). -/
def State.sampleMark (s : State) (xs : List MarkSample) : State :=
  if !s.marksRun then s
  else
    let was := s.power
    let s := s.markFirst
    if !s.marksRun then s
    else
      let s := (s.takeMetered.markCommands.closeWindows).markValues xs
      let s := s.markBasin
      let s := (each s.poundList State.steer s).frameAtMark (decide (was ≠ .run) && decide (s.power = .run))
      s.attestAtMark.syncOut

/-! ### Compute window (R202) -/

/-- Loops of a stage that run before a breakpoint takes effect: those up to it in the order of evaluation (R417). -/
def State.stageRuns (s : State) (x : Nat) : List Nat :=
  let here := s.stageLoops s.bank x
  match s.sec.brk with
  | none => here
  | some d =>
    if !s.loopOrder.contains d then here
    else
      let y := s.stage s.bank d
      if x < y then here else if x = y then here.takeWhile (· ≠ d) ++ [d] else []

/-- Every stage in order up to a breakpoint, at which the engine halts (R201, R417). -/
def State.runWindow (s : State) (flagged : Bool) : State :=
  let t := (each (List.range 32) (fun s x =>
    let here := s.stageRuns x
    if here.isEmpty then s else each here (fun t d => t.runLoop s d) s) s).judgeFeedback
  match s.sec.brk with
  | some d => if s.loopOrder.contains d then t.haltAt t.sec.haltBy d else t.selfTest flagged
  | none => t.selfTest flagged

/-- What the Loop Engine does in the window. `mismatch` names the loop on which the copies of the engine differ (0xFFFF
none), if they do; `flagged` tells whether the comparator flags an injected difference (R214, R215). -/
def State.engineWindow (s : State) (mismatch : Option Nat) (flagged : Bool) : State :=
  let s := s.resumeEngine
  match mismatch with
  | some d => ({ s with sys := { s.sys with overrun := true } }).lockstepMismatch d
  | none => s.runWindow flagged

/-- The compute window opens, at the end of the uplink and before the downlink (Table 1.2, R19). Where no commands
will be formed in it, as in HOLD, the Basin checks the caps at once: it checks them in every window, and the ledger
runs in HOLD (R22, R250, Table 3.16). -/
def State.computeOpen (s : State) (mismatch : Option Nat) (flagged : Bool) : State :=
  if !s.marksRun || s.sys.windowOpen || s.sys.downlinkSent || s.sys.applied then s
  else
    let s := s.advanceTo (s.markTime s.sys.k + 1000 + s.windowLen rateU)
    let s := { s with sys := { s.sys with windowOpen := true } }
    let s := s.judgeMisses.failCells.writeLegSums.updateLedger.energyAtMark
    let s := s.runForward.judgeCopy
    let s := if s.engineRuns then s.engineWindow mismatch flagged else s
    if s.engineRuns && !s.sys.overrun then s else s.capCheck

/-- The schedule is done: commands are formed and checked, and the copy is sent (R223, R250, R369). -/
def State.scheduleDone (s : State) : State :=
  if !s.engineRuns || !s.sys.windowOpen || s.sys.scheduleDone || s.sys.overrun || s.sys.downlinkSent then s
  else
    let s := { s with sys := { s.sys with scheduleDone := true } }
    s.runInverse.formCommands.capCheck.sendCopy

/-- The compute window ends before compute has finished (R24). -/
def State.overrun (s : State) : State :=
  if !s.engineRuns || !s.sys.windowOpen || s.sys.scheduleDone || s.sys.overrun || s.sys.downlinkSent then s
  else
    let s := ({ s with sys := { s.sys with overrun := true } }).inc R.SYS_CYCLE_OVR_COUNT
    s.raise 0x003 0

/-! ### Downlink (R19, R24, R167) -/

/-- The downlink windows start, P − 450 ns − D after the SAMPLE mark, once the compute window has been open: compute
that has not finished by then is an overrun (Table 1.2, R19, R24), and the PWM channels with SRC SLOT are staged
(R298). -/
def State.downlinkStart (s : State) : State :=
  if !s.marksRun || !s.sys.windowOpen || s.sys.downlinkSent || s.sys.applied then s
  else (s.overrun.stageSlots.advanceTo (s.markTime (s.sys.k + 1) - 450 - s.windowLen rateD)).downlink

/-! ### APPLY mark (R18) -/

/-- Has this seat sent its HOLD and TIME barges of the cycle (R363)? -/
def State.holdIssued (s : State) : Bool :=
  s.sys.downlinkSent &&
    (s.poundList.flatMap fun p => [2 * p, 2 * p + 1]).all fun n =>
      !(s.ownEnd n && s.runs n && !s.looped (poundOf n)) || s.cnl.sentSvc.contains (n, 4)

/-- Does this cycle refresh the keeper (R363)? -/
def State.goodCycle (s : State) : Bool :=
  s.paired && !s.onBackup 0 && !s.onBackup 1 &&
    (if s.power = .run then
      s.sys.scheduleDone && !s.sys.overrun && (!s.gateOpen || s.sys.downlinkSent)
    else s.holdIssued)

/-- The APPLY mark of the present cycle, 200 ns before the next SAMPLE mark and after the downlink (R18, R19). -/
def State.applyMark (s : State) : State :=
  if !s.marksRun || !s.sys.downlinkSent || s.sys.applied then s
  else
    let s := s.advanceTo (s.markTime (s.sys.k + 1) - 200)
    let s := { s with sys := { s.sys with applied := true } }
    let s := each [0, 1, 2] State.redistDone s.pwmApply
    let s := if s.goodCycle then { s with red := { s.red with refreshedAt := s.tsn.local_ } } else s
    s.beat

end Sys2Proof.Machine
end

