-- ==== Sys2Proof/Machine/Settle.lean ====
section
/-! DEFINITION. What follows from a command at once: reactions, the safety axis, changes that wait for a mark when no
marks run, levels, held commands whose fence is past (R71, R74, R83, R104, R388 to R390, R397, R401, R417, R420). -/

set_option Elab.async false

namespace Sys2Proof.Machine

open Sys2Proof

/-- The format and the owner of a command row (Table 4.6); `resp` is what a debug response's buffer held. -/
def rowOf (op : Nat) (resp : Bytes) : Format × Owner :=
  match op with
  | 0x01 => (fmtNone, ownHeartbeat)
  | 0x02 => (fmtPower, ownPower)
  | 0x03 => (fmtNone, ownResume)
  | 0x10 => (fmtGrid, ownGrid false)
  | 0x11 => (fmtDir, ownDir)
  | 0x20 => (fmtSetpoint, ownSetpoint false)
  | 0x21 => (fmtString, ownString false)
  | 0x30 => (fmtCommit, ownCommit)
  | 0x40 => (fmtPoundEnable, ownPoundEnable false)
  | 0x41 => (fmtPoundDisable, ownPoundDisable)
  | 0x42 => (fmtBypass, ownBypass false)
  | 0x43 => (fmtService, ownService)
  | 0x50 => (fmtSluice, ownSluice)
  | 0x51 => (fmtRecord, ownRecord)
  | 0x60 => (fmtAuxRun, ownAuxRun)
  | 0x61 => (fmtAuxStop, ownAuxStop)
  | 0x70 => (fmtClear, ownClear)
  | 0x80 => (fmtSwap, ownSwap)
  | 0x90 => (fmtAttest, ownAttest)
  | 0x91 => (fmtUnlock, ownUnlock resp)
  | _ => (fmtNone, ownUnknown)

/-- May a held command run now: nothing of its ring is held before it, its fence is past, and no ring that goes first
has fetched commands still to come (R28, R104)? -/
def State.heldRuns (s : State) (h : Held) : Bool :=
  !s.ringWaits h.ring h.seq && (!h.desc.fence || !s.fenced h.seq) && !s.lowerWaits h.ring

/-- The held command that runs next: that of the first ring which has one (R28). -/
def State.nextHeld (s : State) : Option Held :=
  (List.range 4).findSome? fun r => s.hst.held.find? fun h => h.ring = r && s.heldRuns h

/-- The next held command that may run is checked (R28, R104). -/
def State.drainHeld (s : State) : State :=
  match s.nextHeld with
  | none => s
  | some h =>
    let s := { s with hst := { s.hst with held := s.hst.held.filter fun x => x.seq ≠ h.seq } }
    let (fmt, own) := rowOf h.row h.resp
    s.check h.row fmt own { seq := h.seq, ring := h.ring, idx := h.idx, desc := h.desc, fetchTime := h.fetchTime }

/-- A reaction beyond its log entry and interrupt (Table 15.3); SAFE follows from the latch. One that resets a block,
holds, switches or makes safe aborts a swap not yet handed over (R380, log entry 119). -/
def State.react (s : State) (r : Reaction) : State :=
  let s := if r.acts &&& 0x3C = 0 then s else s.swapAbort
  let s := if r.acts.getLsbD 2 then s.blockReset (r.source / 32) else s
  let s := if r.acts.getLsbD 3 then s.forceHold .reaction else s
  if r.acts.getLsbD 4 then s.releaseClaim 4 else s

/-- The reactions that are due, in the order in which their sources asserted (R388). -/
def State.reactions (s : State) : State :=
  each s.flt.due State.react { s with flt := { s.flt with due := [] } }

/-- Changes that take effect at a SAMPLE mark take effect at once while no marks run (R71, R74, R84, R401, R414). -/
def State.withoutMarks (s : State) : State :=
  if s.marksRun then s else s.takeReturns.takeUpdate.runClears.takeFollow.attestAtMark

/-- A request for OFF that has been granted is carried out (R82). -/
def State.takeOff (s : State) : State :=
  if s.sys.offAsked then ({ s with sys := { s.sys with offAsked := false } }).enterOff else s

/-- The lock-link and TAKE_READY judged on what the lanes and the axes show now (R362, R368). -/
def State.judgePair (s : State) : State := if s.paired then s.judgeLink.judgeTake else s

/-- One round of what follows at once. -/
def State.settleOnce (s : State) : State :=
  if !s.collects then s
  else
    let s := (s.reactions.judgeSafety false).withoutMarks.judgePair
    let s := s.showLevels.judgeHalt.logOverflow.showWatch
    let s := if s.hst.msixPending = 0 then s else s.sendPending
    s.drainHeld.takeOff

/-- Rounds until nothing follows any more, at most `n`. -/
def State.settleN : Nat → State → State
  | 0, s => s
  | n + 1, s => let t := s.settleOnce; if t = s then s else State.settleN n t

/-- What follows from a command, carried out before the next one. -/
def State.settle (s : State) : State := s.settleN 80

/-- Does nothing follow from this state at once? -/
def State.quiet (s : State) : Bool := decide (s.settleOnce = s)

/-- An effect that needs the main domains out of reset; while they are held in reset nothing comes of it (R50, R82). -/
def State.awake (s : State) (f : State → State) : State := if s.collects then f s else s

/-- The outcome of a command whose own effect is `s`: what follows at once has followed. -/
def finish (s : State) : Host.Outcome State Fault Refusal := .next s.settle

end Sys2Proof.Machine
end

