-- ==== Sys2Proof/Machine/Registers.lean ====
section
/-! DEFINITION. Register accesses with all that the registers do: what a read returns, what a write sets off, and
debug accesses over PCIe and JTAG (R2, R8 to R12, R205, R416, R422, R432, R433). -/

set_option Elab.async false

namespace Sys2Proof.Machine

open Sys2Proof

/-! ### Reads -/

/-- `SYS_MODE` (Table 17.8). -/
def State.modeWord (s : State) : Word :=
  BitVec.ofNat 32 (s.rd R.FLT_STAT_SAFETY * 2 ^ 24 + s.rd R.SYS_PWR_STAT_STATE * 2 ^ 20 + s.rd R.SEC_LC_STATE * 2 ^ 18 +
    s.role.code * 2 ^ 16 + s.grid * 2 ^ 14 + s.rd R.NRG_CTL_DIR * 2 ^ 12 + (s.reg 0x50).toNat % 8 * 2 ^ 8 +
    s.debugLevel 0 * 2 ^ 4 + s.debugLevel 1)

/-- Index of `off` in an array of registers. -/
def arrayIx (base stride count off : Nat) : Option Nat :=
  if base ≤ off ∧ (off - base) % stride = 0 ∧ (off - base) / stride < count then some ((off - base) / stride) else none

/-- What a register of the register table reads. Some fields show what is kept elsewhere; the fields of fused-off items
read 0. -/
def State.regView (s : State) (off : Nat) : Word :=
  let w := fixedView off (s.reg off)
  match regAt off with
  | none => 0
  | some (d, i) =>
    if s.fusedOff d.base i then 0
    else if off = 0x14 then R.SYS_CYCLE_STAT_CYCLE_NUM.put w s.cycleNum
    else if off = 0x54 then s.modeWord
    else if off = 0x10780 ∧ !s.isFull then w &&& 0x3F#32
    else if d.base = 0x11000 then (R.CNL_CELL_STAT_AGE i).put w (s.stateAge i)
    else if off = 0x20014 then
      R.LOOP_BUDGET_MIN_PERIOD.put (R.LOOP_BUDGET_BUDGET.put w (s.budget s.periodNs)) s.minPeriod
    else if off = 0x3C004 then R.RED_STAT_ROLE.put w s.role.code
    else if off = 0x3F03C then BitVec.ofNat 32 (Config.certificate.length % 2048)
    else if d.base = 0x3F400 then BitVec.ofNat 32 (leAt Config.certificate (4 * i) 4)
    else w

/-- A word of the MSI-X table or of the pending bits (R89). -/
def State.msixView (s : State) (off : Nat) : Word :=
  if off = 0x81000 then s.hst.msixPending else if off = 0x81004 then 0 else SMap.get msixReset s.hst.msixTable off

/-- A read of the register at `off` by `q`: the word, and what the read does (R8, R281, R356). -/
def State.readReg (s : State) (q : Requester) (off : Nat) : Word × State :=
  let s := s.wakeLink q
  if !s.decodes off then (0, s.undecoded q off 1)
  else if isBank off then (SMap.get (fun _ => 0) s.loop.words off, s)
  else if isMsix off then (s.msixView off, s)
  else
    let s := if off = 0x3A010 then s.captureNow
      else match arrayIx 0x31000 0x20 64 off with
        | some a => s.captureAcc a
        | none => s
    (s.regView off, s)

/-! ### Writes -/

/-- A write in the `SYS_` window. -/
def State.sysWrite (s : State) (q : Requester) (off : Nat) (w : Word) : State :=
  match off with
  | 0x10 => s.cycleWrite w q
  | 0x24 => s.hostWrite (q := q) off w State.keepLost
  | 0x34 => s.hostWrite (q := q) off w fun s => s.rstWrite w q
  | 0x40 => s.hostWrite (q := q) off w fun s => s.powerReg w q
  | 0x50 => s.overlayWrite w q
  | _ => s.hostWrite off w id q

/-- A write in the `CLK_` window. -/
def State.clkWrite (s : State) (q : Requester) (off : Nat) (w : Word) : State :=
  s.hostWrite (q := q) off w fun s =>
    match off with
    | 0x4000 => s.judgeRef
    | 0x4004 => s.keepRefLost
    | 0x4010 => s.clkReturn w
    | 0x4020 => s.stageWritten
    | 0x4028 => s.clkUpdate w
    | _ => s

/-- A write in the `HST_` window. -/
def State.hstWrite (s : State) (q : Requester) (off : Nat) (w : Word) : State :=
  if 0x8100 ≤ off ∧ off < 0x8100 + 0x20 * 23 then
    let r := (off - 0x8100) / 0x20
    match (off - 0x8100) % 0x20 with
    | 0 => s.fixedWrite (s.ringFixed r) r off w q
    | 4 => s.fixedWrite (s.ringFixed r) r off w q
    | 8 => s.ringCtl r w (s.ring r).fetched q
    | 0x18 => s.doorbellWrite r w q
    | _ => s.hostWrite off w id q
  else if 0x8400 ≤ off ∧ off < 0x8480 then
    let i := (off - 0x8400) / 0x10
    match (off - 0x8400) % 0x10 with
    | 0 => s.tlmCtl i w none q
    | 4 => s.fixedWrite (s.is (R.HST_TLM_CTL_ENABLE i)) (4 + i) off w q
    | 8 => s.fixedWrite (s.is (R.HST_TLM_CTL_ENABLE i)) (4 + i) off w q
    | _ => s.hostWrite off w id q
  else s.hostWrite (q := q) off w fun s =>
    if decide (off = 0x8000 ∨ off = 0x8004) && s.is R.HST_IDX_BASE_LO_EN then s.indexAll else s

/-- A write of `CNL_LANE_CTL`: RESTART, and a change of EN, take the lane through OFF (R127). -/
def State.laneCtl (s : State) (n : Nat) (w : Word) (q : Requester := byHost) : State :=
  if 28 ≤ n then s
  else
    let was := s.is (R.CNL_LANE_CTL_EN n)
    s.hostWrite (q := q) (0x10000 + 0x40 * n) w fun s =>
      if w.getLsbD 27 || s.is (R.CNL_LANE_CTL_EN n) != was then s.restartLane n else s

/-- A write in the `CNL_` window. -/
def State.cnlWrite (s : State) (q : Requester) (off : Nat) (w : Word) : State :=
  match arrayIx 0x10000 0x40 28 off with
  | some n => s.laneCtl n w q
  | none => s.hostWrite off w id q

/-- A write in the `LOOP_` window: GO starts verification, region set-up is judged (R194, R205). -/
def State.loopWrite (s : State) (q : Requester) (off : Nat) (w : Word) : State :=
  s.hostWrite (q := q) off w fun s =>
    if off = 0x20004 ∧ w.getLsbD 0 then s.verifyGo
    else if (arrayIx 0x20100 4 16 off).isSome then s.judgeRegions
    else s

/-- A write of `NRG_STR_SOE_SET` of string `i`, in kJ (R248). -/
def State.soeWrite (s : State) (i : Nat) (w : Word) (q : Requester := byHost) : State :=
  if 16 ≤ i then s
  else s.hostWrite (q := q) (0x2C21C + 0x20 * i) w fun s =>
    { s with nrg := { s.nrg with soeSet := s.nrg.soeSet ++ [(i, w.toNat)] } }

/-- A write in the `NRG_` window. -/
def State.nrgWrite (s : State) (q : Requester) (off : Nat) (w : Word) : State :=
  match arrayIx 0x2C21C 0x20 16 off with
  | some i => s.soeWrite i w q
  | none => s.hostWrite off w id q

/-- A write in the `MTR_` window. -/
def State.mtrWrite (s : State) (q : Requester) (off : Nat) (w : Word) : State :=
  s.hostWrite (q := q) off w fun s =>
    if off = 0x30010 ∧ w.getLsbD 31 then s.diagGo
    else if off = 0x30018 then s.trkClear w
    else s

/-- A write of a register of PWM channel `n`. -/
def State.pwmChannel (s : State) (q : Requester) (n off : Nat) (w : Word) : State :=
  match (off - 0x34400) % 0x20 with
  | 4 => if h : n < 48 then s.stagedWrite (.duty ⟨n, h⟩) w false q else s
  | 8 => if h : n < 48 then s.stagedWrite (.phase ⟨n, h⟩) w false q else s
  | 0x10 => s.hostWrite (q := q) off w State.cutAll
  | 0 => s.hostWrite (q := q) off w fun t => t.channelWritten s n false
  | 0xC => s.hostWrite (q := q) off w fun t => t.channelWritten s n true
  | 0x18 => s.hostWrite (q := q) off w fun s => s.keepTripped n
  | _ => s.hostWrite off w id q

/-- A write of `PWM_GRP_CTL` of group `g`. -/
def State.pwmGroupWrite (s : State) (g : Nat) (w : Word) (q : Requester := byHost) : State :=
  if 8 ≤ g then s else s.hostWrite (q := q) (0x34100 + 0x10 * g) w fun s => s.grpWritten g

/-- A write in the `PWM_` window. -/
def State.pwmWrite (s : State) (q : Requester) (off : Nat) (w : Word) : State :=
  if off = 0x34000 then s.hostWrite (q := q) off w fun s => s.pwmLoad w
  else if off = 0x34004 then s.hostWrite (q := q) off w State.readTripIn
  else if 0x34400 ≤ off ∧ off < 0x34A00 then s.pwmChannel q ((off - 0x34400) / 0x20) off w
  else match arrayIx 0x34100 0x10 8 off with
    | some g => s.pwmGroupWrite g w q
    | none => s.hostWrite off w id q

/-- A write of `CMP_CH_STAT` of channel `c`: 1 releases a latch, everything else is read-only (R310). -/
def State.latchStat (s : State) (c : Nat) (w : Word) (blanked : Bool) (q : Requester := byHost) : State :=
  if 64 ≤ c then s
  else
    let s := s.wakeLink q
    if !s.decodes (0x3610C + 0x10 * c) then s.undecoded q (0x3610C + 0x10 * c) 2 else s.latchWrite c w blanked

/-- A write in the `CMP_` window. -/
def State.cmpWrite (s : State) (q : Requester) (off : Nat) (w : Word) : State :=
  if off = 0x36018 then s.hostWrite (q := q) off w fun s => s.cmpRearm 0 w
  else if off = 0x3601C then s.hostWrite (q := q) off w fun s => s.cmpRearm 32 w
  else if off = 0x36000 then s.hostWrite (q := q) off w State.showLines
  else if off = 0x36004 then s.hostWrite (q := q) off w State.keepLatched
  else if 0x36100 ≤ off ∧ off < 0x36500 then
    let c := (off - 0x36100) / 0x10
    if off % 0x10 = 0xC then s.latchStat c w false q
    else s.hostWrite (q := q) off w fun t => t.cmpWritten s c
  else s.hostWrite off w id q

/-- A write in the `TSN_` window: a step request, a change of selection or of slew rate (R342, R343, R348); a port
disabled goes down. -/
def State.tsnWrite (s : State) (q : Requester) (off : Nat) (w : Word) : State :=
  let slew := s.rd R.TSN_TIME_CTL_SLEW
  s.hostWrite (q := q) off w fun s =>
    if off = 0x3A000 then
      let s := if w.getLsbD 29 then s.stepReq else s
      let s := s.judgeSelection s.anyLocked
      if s.tsn.slew.isSome && decide (s.rd R.TSN_TIME_CTL_SLEW ≠ slew) then s.startSlew else s
    else match arrayIx 0x3A400 0x80 2 off with
      | some p => if s.is (R.TSN_PORT_CTL_EN p) then s else s.portDown p 3
      | none =>
        (match arrayIx 0x3A100 0x40 2 off with
          | some i => if s.trackersRun then s.domWritten i else s
          | none => s)

/-- A write in the `FLT_` window. -/
def State.fltWrite (s : State) (q : Requester) (off : Nat) (w : Word) : State :=
  s.hostWrite (q := q) off w fun s =>
    if off = 0x3E000 ∧ w.getLsbD 31 then s.rearm
    else if off = 0x3E040 then s.logCopy
    else s

/-- A write of the descriptor banks or of the MSI-X table (Table 18.1). -/
def State.writeMemory (s : State) (q : Requester) (off : Nat) (w : Word) : State :=
  let s := s.wakeLink q
  if !s.decodes off then s.undecoded q off 2 else if isBank off then s.bankWrite off w else s.msixWrite off w

/-- A write of a register of SYS to CELL (Table 18.1). -/
def State.writeLow (s : State) (q : Requester) (off : Nat) (w : Word) : State :=
  if off < 0x4000 then s.sysWrite q off w
  else if off < 0x8000 then s.clkWrite q off w
  else if off < 0x10000 then s.hstWrite q off w
  else if off < 0x20000 then s.cnlWrite q off w
  else if off < 0x28000 then s.loopWrite q off w
  else s.hostWrite off w id q

/-- A write of a register of NRG to SEC (Table 18.1). -/
def State.writeHigh (s : State) (q : Requester) (off : Nat) (w : Word) : State :=
  if off < 0x30000 then s.nrgWrite q off w
  else if off < 0x34000 then s.mtrWrite q off w
  else if off < 0x36000 then s.pwmWrite q off w
  else if off < 0x38000 then s.cmpWrite q off w
  else if off < 0x3A000 then s.hostWrite off w id q
  else if off < 0x3C000 then s.tsnWrite q off w
  else if off < 0x3E000 then s.hostWrite off w id q
  else if off < 0x3F000 then s.fltWrite q off w
  else s.hostWrite off w id q

/-- A 32-bit write at `off` by `q`, with all that the register does but for a debug access that it starts. -/
def State.writeReg (s : State) (q : Requester) (off : Nat) (w : Word) : State :=
  if isBank off || isMsix off then s.writeMemory q off w
  else if off < 0x2C000 then s.writeLow q off w
  else s.writeHigh q off w

/-! ### Debug accesses (R416, R417, R422) -/

/-- The requester of a debug access on interface `i`: RWL fields only at level 3 in MANUFACTURE (Table 16.8). -/
def State.debugger (s : State) (i : Nat) : Requester :=
  ⟨7, decide (s.debugLevel i = 3) && decide (s.rd R.SEC_LC_STATE = 0)⟩

/-- May SRAM be written by debug on interface `i`? (Table 16.8) -/
def State.mayWriteSram (s : State) (i : Nat) : Bool :=
  decide (s.debugLevel i = 3) && decide (s.power ≠ .run) && !s.gateOpen

/-- A word of the SRAM; what a word that debug has not written holds is open. -/
def State.sramRead (s : State) (a : Nat) : Word × State :=
  match s.sec.sram.find? fun p => p.1 = a with
  | some (_, w) => (w, s)
  | none =>
    let (n, s) := s.fresh 32
    (BitVec.ofNat 32 n, s)

/-- The two words of the Loop Engine control (R422). -/
def State.engineWord (s : State) (a : Nat) : Word :=
  if a = 0 then
    BitVec.ofNat 32 ((if s.loop.halted.isSome then 1 else 0) + (if s.sec.brk.isSome then 4 else 0) + s.sec.brk.getD 0 * 2 ^ 16)
  else match s.loop.halted with
    | some d => BitVec.ofNat 32 (1 + s.stage s.bank d * 2 ^ 4 + d * 2 ^ 16)
    | none => 0

/-- A write of the Loop Engine control: HALT, STEP, BRK_EN and BRK_LOOP (R417, R422). -/
def State.engineWrite (s : State) (i : Nat) (w : Word) (mismatch : Bool) : State :=
  if !s.mayHalt i then s.debugRefused i
  else
    let s := if w.getLsbD 0 then s.leHalt i else s.leResume
    let s := s.setBreak i (if w.getLsbD 2 then some (w.toNat / 2 ^ 16 % 1024) else none)
    if w.getLsbD 1 then s.leStep i mismatch else s

/-- A debug read: the word, or nothing where it is refused. -/
def State.debugRead (s : State) (i a : Nat) : Option Word × State :=
  let no := (none, s.debugRefused i)
  if s.debugLevel i = 0 then no
  else if a < 0x100000 then
    let (w, s) := s.readReg (s.debugger i) a
    (some w, s)
  else if 0x10000000 ≤ a ∧ a < 0x20000000 ∧ a % 4 = 0 then
    let (w, s) := s.sramRead a
    (some w, s)
  else if a = 0x20000000 ∨ a = 0x20000004 then (some (s.engineWord (a % 16)), s)
  else no

/-- A debug write: whether it was allowed, and the state after it. -/
def State.debugWrite (s : State) (i a : Nat) (w : Word) : Bool × State :=
  let no := (false, s.debugRefused i)
  if a < 0x100000 then
    if s.debugLevel i < 2 then no else (true, s.writeReg (s.debugger i) a w)
  else if 0x10000000 ≤ a ∧ a < 0x20000000 ∧ a % 4 = 0 then
    if s.mayWriteSram i then
      (true, { s with sec := { s.sec with sram := (a, w) :: s.sec.sram.filter fun p => p.1 ≠ a } })
    else no
  else if a = 0x20000000 then (s.mayHalt i, s.engineWrite i w false)
  else no

/-- The address in `SEC_DBG_ADDR`. -/
def State.dbgAddr (s : State) : Nat := s.rd R.SEC_DBG_ADDR_LO + s.rd R.SEC_DBG_ADDR_HI * 2 ^ 32

/-- The outcome of an access is shown in `SEC_DBG_CMD`. -/
def State.dbgShow (s : State) (ok : Bool) : State := (s.wrB R.SEC_DBG_CMD_DONE true).wrB R.SEC_DBG_CMD_REFUSED (!ok)

/-- GO_READ of `SEC_DBG_CMD`. -/
def State.dbgGoRead (s : State) : State :=
  match s.debugRead 0 s.dbgAddr with
  | (some w, s) => (s.wr R.SEC_DBG_DATA w.toNat).dbgShow true
  | (none, s) => s.dbgShow false

/-- GO_WRITE of `SEC_DBG_CMD`. -/
def State.dbgGoWrite (s : State) : State :=
  let r := s.debugWrite 0 s.dbgAddr (s.reg 0x3F058)
  r.2.dbgShow r.1

/-- A host write of `SEC_DBG_CMD`. -/
def State.dbgCmd (s : State) (w : Word) : State :=
  s.hostWrite 0x3F05C w fun s =>
    let s := if w.getLsbD 0 then s.dbgGoRead else s
    if w.getLsbD 1 then s.dbgGoWrite else s

/-- The JTAG DBG_ACCESS instruction: the data register holds what a read gave (R416, R422). -/
def State.jtagAccess (s : State) (a : Nat) (write : Bool) (w : Word) : State :=
  if write then (s.debugWrite 1 a w).2
  else
    let (r, s) := s.debugRead 1 a
    { s with sec := { s.sec with jtagData := r } }

/-! ### Accesses of the host (R8) -/

/-- A host write of 32 bits at a byte address. -/
def State.hostWord (s : State) (a : Nat) (w : Word) (enables : Nat) : State :=
  if a % 4 ≠ 0 ∨ enables % 16 ≠ 15 then (s.wakeLink byHost).undecoded byHost a 2
  else if a = 0x3F05C then s.dbgCmd w
  else s.writeReg byHost a w

/-- A host write over BAR0: 32 bits, or 64 as two of 32, the lower address first (R8). -/
def State.hostAccess (s : State) (a : Nat) (data : BitVec 64) (enables : Nat) (wide : Bool) : State :=
  let s := s.hostWord a (data.setWidth 32) enables
  if wide then s.hostWord (a + 4) ((data >>> 32).setWidth 32) (enables / 16) else s

/-- The host reads the register at `off`: what the read does, and what it returns. -/
def State.hostRead (s : State) (off : Nat) : State :=
  let (w, s) := s.readReg byHost off
  s.emit (.readData off w)

/-- A host read of 32 bits at a byte address; at another alignment it returns 0 (R8). -/
def State.hostReadWord (s : State) (a : Nat) : State :=
  if a % 4 = 0 then s.hostRead a else (((s.wakeLink byHost).undecoded byHost a 1)).emit (.readData a 0)

/-- A host read of `n` bytes over BAR0: 4, or 8 as two of 4, the lower address first; one of another size returns 0
(R8). -/
def State.hostReadBytes (s : State) (a n : Nat) : State :=
  if n = 4 then s.hostReadWord a
  else if n = 8 then (s.hostReadWord a).hostReadWord (a + 4)
  else ((s.wakeLink byHost).undecoded byHost a 1).emit (.readData a 0)

end Sys2Proof.Machine
end

