-- ==== Sys2Proof/Machine/BootRows.lean ====
section
/-! DEFINITION. The meanings of resets, boot, clocks and power transitions: one definition per command. -/

set_option Elab.async false

namespace Sys2Proof.Machine

open Sys2Proof

/-- POWER_ON_RESET (R44, R77): the release of a power-on reset, with the straps and the feeds that it samples. -/
def execPowerOnReset (straps : BitVec 3) (feeds : BitVec 2) (s : State) : Host.Outcome State Fault Refusal :=
  finish (s.powerOn straps feeds)

/-- SUPPLY_MONITOR_TRIP (R50): rails out of range; `sys` tells of a system reset in the same clock. -/
def execSupplyMonitorTrip (rails : BitVec 6) (sys : Bool) (s : State) : Host.Outcome State Fault Refusal :=
  finish (s.monitorTrip rails sys)

/-- MAIN_RESET_RELEASE (R50): the rails have been in range for 1 ms. -/
def execMainResetRelease (s : State) : Host.Outcome State Fault Refusal :=
  finish (s.mainRelease)

/-- AON_FEED_LOST (R51): an always-on feed leaves its range, or is back in it. -/
def execAonFeedLost (f : FeedChange) (s : State) : Host.Outcome State Fault Refusal :=
  finish (if f.back then s.feedBack f.feed else s.feedLost f.feed)

/-- DIE_TEMPERATURE_HIGH (R53): the die passes 115 °C, at `temp` in 0.125 °C. -/
def execDieTemperatureHigh (temp : BitVec 12) (s : State) : Host.Outcome State Fault Refusal :=
  finish (s.hotDie temp 0x007)

/-- DIE_TEMPERATURE_LIMIT (R53): the die passes 130 °C. -/
def execDieTemperatureLimit (temp : BitVec 12) (s : State) : Host.Outcome State Fault Refusal :=
  finish (s.hotDie temp 0x008)

/-- BOOT_START (R79): boot begins at TR. -/
def execBootStart (s : State) : Host.Outcome State Fault Refusal :=
  finish s.bootStart

/-- SRAM_INIT_DONE (R79): step 3 of boot ends. -/
def execSramInitDone (ok : Bool) (s : State) : Host.Outcome State Fault Refusal :=
  finish (s.awake fun s => s.sramDone ok)

/-- SETTINGS_LOADED (R411): what the flash gave for each copy, none for no response; `bad` names fuse rows that do not
program. -/
def execSettingsLoaded (primary : Option Bytes) (backup : Option Bytes) (bad : List Nat) (s : State) : Host.Outcome State Fault Refusal :=
  finish (s.awake fun s => s.settingsLoaded primary backup bad)

/-- BOOT_DONE (R79): step 7 of boot. -/
def execBootDone (s : State) : Host.Outcome State Fault Refusal :=
  finish (s.awake fun s => s.bootDone_)

/-- BOOT_FAIL (R80): a step of boot has not succeeded in time. -/
def execBootFail (s : State) : Host.Outcome State Fault Refusal :=
  finish (s.awake fun s => s.bootTimeout)

/-- BAND_SEARCH_DONE (R65): the search of a loop finds a band. -/
def execBandSearchDone (n : Fin 12) (s : State) : Host.Outcome State Fault Refusal :=
  finish (s.awake fun s => s.searchDone n)

/-- BAND_SEARCH_FAILED (R65): no band locks within 1 ms. -/
def execBandSearchFailed (n : Fin 12) (s : State) : Host.Outcome State Fault Refusal :=
  finish (s.awake fun s => s.searchFailed n)

/-- REFERENCE_LOST (R66): a reference fails, 0 `REFA` and 1 `REFB`. -/
def execReferenceLost (k : Fin 2) (s : State) : Host.Outcome State Fault Refusal :=
  finish (s.awake fun s => s.refFails k)

/-- REFERENCE_QUALIFIED (R66, R73): a reference qualifies; `err` is the phase error on leaving holdover, in 10 ps. -/
def execReferenceQualified (k : Fin 2) (err : Int) (s : State) : Host.Outcome State Fault Refusal :=
  finish (s.awake fun s => s.refQualifies k err)

/-- SLEW_COMPLETE (R73): PLL_TB has slewed its error out. -/
def execSlewComplete (s : State) : Host.Outcome State Fault Refusal :=
  finish (s.awake fun s => s.slewComplete)

/-- BACKUP_CLOCK_LOST (R67): the backup clock fails. -/
def execBackupClockLost (s : State) : Host.Outcome State Fault Refusal :=
  finish (s.awake fun s => s.backupLost)

/-- PLL_LOCK_LOST (R70): a loop loses lock. -/
def execPllLockLost (n : Fin 12) (s : State) : Host.Outcome State Fault Refusal :=
  finish (s.awake fun s => s.lockLost n)

/-- SYNC_IN_PULSE (R76): a `SYNC_IN` pulse; the operands tell which dividers it finds off by more than a clock. -/
def execSyncInPulse (tb : Bool) (mtr : Bool) (s : State) : Host.Outcome State Fault Refusal :=
  finish (s.awake fun s => s.syncIn tb mtr)

/-- POWER_TRANSITION_DONE (R83): the transition in progress completes. -/
def execPowerTransitionDone (s : State) : Host.Outcome State Fault Refusal :=
  finish (s.awake fun s => s.transitionDone)

/-- TOWPATH_ENTRY_HOLD_DONE (R84): the 16 cycles of HOLD barges are over. -/
def execTowpathEntryHoldDone (s : State) : Host.Outcome State Fault Refusal :=
  finish (s.awake fun s => s.towpathSteps)

/-- BOOT_REFERENCE_FOUND (R79): a reference is found during boot. -/
def execBootReferenceFound (k : Fin 2) (s : State) : Host.Outcome State Fault Refusal :=
  finish (s.awake fun s => s.refFound k)

end Sys2Proof.Machine
end

