-- ==== Sys2Proof/Machine/CanalRows.lean ====
section
/-! DEFINITION. The meanings of lanes, barges and the towpath: one definition per command. -/

set_option Elab.async false

namespace Sys2Proof.Machine

open Sys2Proof

/-- STATE_BARGE_RECEIVED (R173): a STATE or STATE_LEAN barge arrives, `t` ns after the present SAMPLE mark. -/
def execStateBargeReceived (n : LaneIx) (b : Barge) (t : Nat) (s : State) : Host.Outcome State Fault Refusal :=
  finish (s.awake fun s => s.received n b t)

/-- FAULT_BARGE_RECEIVED (R176): a FAULT barge arrives. -/
def execFaultBargeReceived (n : LaneIx) (b : Barge) (s : State) : Host.Outcome State Fault Refusal :=
  finish (s.awake fun s => s.received n b 0)

/-- SERVICE_RSP_RECEIVED (R177): a SERVICE_RSP barge arrives. -/
def execServiceRspReceived (n : LaneIx) (b : Barge) (s : State) : Host.Outcome State Fault Refusal :=
  finish (s.awake fun s => s.received n b 0)

/-- SERVICE_REQ_TIMEOUT (R177): a cell has not answered for 64 cycles. -/
def execServiceReqTimeout (g : CellIx) (s : State) : Host.Outcome State Fault Refusal :=
  finish (s.awake fun s => s.serviceTimeout g)

/-- RELAY_RECEIVED (R168, R178): a RELAY barge of a kind on a lock-link lane, for pound lane `n`. -/
def execRelayReceived (ll : Fin 4) (kind : BitVec 4) (n : LaneIx) (b : Relayed) (s : State) : Host.Outcome State Fault Refusal :=
  finish (s.awake fun s => s.relayed (24 + ll) kind.toNat n b.barge b.time)

/-- DELAY_MEASUREMENT (R159): a DELAY_RSP arrives; `rtt` is t4 − t1 in 2^-16 ns. -/
def execDelayMeasurement (n : LaneIx) (rtt : Nat) (b : Barge) (s : State) : Host.Outcome State Fault Refusal :=
  finish (s.awake fun s => s.delayMeasured n rtt b)

/-- LANE_ALIGNED (R126): a lane finds signal, or its receiver looks for alignment in the symbols it has received. -/
def execLaneAligned (x : LaneHeard) (s : State) : Host.Outcome State Fault Refusal :=
  finish (s.awake fun s => s.laneAligned x.lane x.symbols)

/-- LANE_ABSENT (R126, R127): a training state times out. -/
def execLaneAbsent (n : Fin 28) (s : State) : Host.Outcome State Fault Refusal :=
  finish (s.awake fun s => s.laneAbsent n)

/-- BACKOFF_EXPIRY (R127): the back-off of a lane ends. -/
def execBackoffExpiry (n : Fin 28) (s : State) : Host.Outcome State Fault Refusal :=
  finish (s.awake fun s => s.backoffEnd n)

/-- HELLO_RECEIVED (R128): a HELLO arrives. -/
def execHelloReceived (n : LaneIx) (b : Barge) (s : State) : Host.Outcome State Fault Refusal :=
  finish (s.awake fun s => s.helloReceived n b)

/-- REPORT_RECEIVED (R128): a REPORT arrives. -/
def execReportReceived (n : LaneIx) (b : Barge) (s : State) : Host.Outcome State Fault Refusal :=
  finish (s.awake fun s => s.reportReceived n b)

/-- REACH_SETTLED (R128): 200 µs have passed with no new REPORT. -/
def execReachSettled (n : LaneIx) (s : State) : Host.Outcome State Fault Refusal :=
  finish (s.awake fun s => s.reachSettled n)

/-- ENUM_RETRY (R128): a lane of a pound not fully covered repeats ENUM. -/
def execEnumRetry (n : LaneIx) (s : State) : Host.Outcome State Fault Refusal :=
  finish (s.awake fun s => s.enumRetry n)

/-- STEP_ISSUE (R130): the lead issues a rate step; `wait` is how far ahead its time lies, in ns. -/
def execStepIssue (p : PoundIx) (wait : Nat) (s : State) : Host.Outcome State Fault Refusal :=
  finish (s.awake fun s => s.stepIssue p wait)

/-- STEP_TIME (R130): the step time of a pound. -/
def execStepTime (p : PoundIx) (s : State) : Host.Outcome State Fault Refusal :=
  finish (s.awake fun s => s.stepTime p)

/-- EQ_REQ_RECEIVED (R134): an EQ_REQ arrives. -/
def execEqReqReceived (n : Fin 28) (b : Barge) (s : State) : Host.Outcome State Fault Refusal :=
  finish (s.awake fun s => s.eqReqReceived n b)

/-- EQ_RSP_RECEIVED (R134): an EQ_RSP arrives; the eye the receiver measures, and the request it would make next. -/
def execEqRspReceived (n : LaneIx) (b : Barge) (eye : Nat) (pre : Fin 3) (post : Fin 3) (s : State) : Host.Outcome State Fault Refusal :=
  finish (s.awake fun s => s.eqRspReceived n b eye pre post)

/-- CONFIRM (R130): the lead confirms a step. -/
def execConfirm (p : PoundIx) (s : State) : Host.Outcome State Fault Refusal :=
  finish (s.awake fun s => s.confirm p)

/-- STEP_REVERT (R131): no CONFIRM by the step time + 4 ms. -/
def execStepRevert (p : PoundIx) (s : State) : Host.Outcome State Fault Refusal :=
  finish (s.awake fun s => s.stepRevert p)

/-- HOP_REJOIN (R132): a lane that trains alone reaches the pound rate, or fails. -/
def execHopRejoin (n : LaneIx) (ok : Bool) (s : State) : Host.Outcome State Fault Refusal :=
  finish (s.awake fun s => s.hopRejoin n ok)

/-- LANE_LOST (R138, R139): a lane loses lock, by cause 1 to 4 of Table 5.7. -/
def execLaneLost (n : Fin 28) (x : LaneLoss) (s : State) : Host.Outcome State Fault Refusal :=
  finish (s.awake fun s => s.laneLost n (x.cause + 1) x.symbols)

/-- TOWPATH_KEEPALIVE_SEND (R144): a keep-alive starts on each enabled port. -/
def execTowpathKeepaliveSend (s : State) : Host.Outcome State Fault Refusal :=
  finish (s.awake fun s => s.keepAliveSend)

/-- TOWPATH_FRAME_RECEIVED (R145, R148): 12 bytes arrive on a towpath port. -/
def execTowpathFrameReceived (p : PoundIx) (f : Bytes) (s : State) : Host.Outcome State Fault Refusal :=
  finish (s.awake fun s => s.towpathFrame p f)

/-- TOWPATH_LOST (R148): no valid frame for 40.96 µs. -/
def execTowpathLost (p : PoundIx) (s : State) : Host.Outcome State Fault Refusal :=
  finish (s.awake fun s => s.towpathLost p)

/-- STEP_RECEIVED (R130): a STEP arrives at a seat that does not lead. -/
def execStepReceived (n : LaneIx) (b : Barge) (s : State) : Host.Outcome State Fault Refusal :=
  finish (s.awake fun s => s.stepReceived n b)

/-- CONFIRM_RECEIVED (R131): a CONFIRM arrives. -/
def execConfirmReceived (n : LaneIx) (b : Barge) (s : State) : Host.Outcome State Fault Refusal :=
  finish (s.awake fun s => s.confirmReceived n b)

/-- DELAY_REQ_RECEIVED (R159): a DELAY_REQ arrives; `turn` is the time to the answer, 2^-16 ns. -/
def execDelayReqReceived (n : LaneIx) (turn : Nat) (b : Barge) (s : State) : Host.Outcome State Fault Refusal :=
  finish (s.awake fun s => s.delayReq n turn b)

end Sys2Proof.Machine
end

