-- ==== Sys2Proof/Machine/CellRows.lean ====
section
/-! DEFINITION. The meanings of cells, pounds, the sluice and signed records: one definition per command. -/

set_option Elab.async false

namespace Sys2Proof.Machine

open Sys2Proof

/-- PRECHARGE_TIMEOUT (R227): PRECH_TMO has passed. -/
def execPrechargeTimeout (p : PoundIx) (s : State) : Host.Outcome State Fault Refusal :=
  finish (s.awake fun s => s.prechargeTimeout p)

/-- STOPPING_END (R228): STOPPING ends by BYP_TMO. -/
def execStoppingEnd (p : PoundIx) (s : State) : Host.Outcome State Fault Refusal :=
  finish (s.awake fun s => s.stoppingEnd p)

/-- BYPASS_TIMEOUT (R232): a bypass is not confirmed within BYP_TMO. -/
def execBypassTimeout (g : CellIx) (s : State) : Host.Outcome State Fault Refusal :=
  finish (s.awake fun s => s.bypassTimeout g)

/-- REJOIN_TIMEOUT (R234): a rejoin has taken longer than PRECH_TMO. -/
def execRejoinTimeout (g : CellIx) (s : State) : Host.Outcome State Fault Refusal :=
  finish (s.awake fun s => s.rejoinTimeout g)

/-- OUT_TIMEOUT (R235): a pound has been OUT for OUT_TMO cycles. -/
def execOutTimeout (p : PoundIx) (s : State) : Host.Outcome State Fault Refusal :=
  finish (s.awake fun s => s.outTimeout p)

/-- SHUTDOWN_RAMP_END (R241): the ramp of a shut-down ends. -/
def execShutdownRampEnd (s : State) : Host.Outcome State Fault Refusal :=
  finish (s.awake fun s => s.shutdownEnd)

/-- SLUICE_CELL_TIMEOUT (R261): a sluicing cell has not finished within TMO. -/
def execSluiceCellTimeout (g : CellIx) (s : State) : Host.Outcome State Fault Refusal :=
  finish (s.awake fun s => s.sluiceCellTimeout g)

/-- RECORD_READY (R265): the energy record is signed; `ok` tells whether its write succeeded. -/
def execRecordReady (ok : Bool) (s : State) : Host.Outcome State Fault Refusal :=
  finish (s.awake fun s => s.recordReady ok)

/-- ATTEST_READY (R414): the attestation record is signed. -/
def execAttestReady (ok : Bool) (s : State) : Host.Outcome State Fault Refusal :=
  finish (s.awake fun s => s.attestReady ok)

end Sys2Proof.Machine
end

