-- ==== Sys2Proof/Machine/CommandRows.lean ====
section
/-! DEFINITION. The meanings of ring commands and the descriptors of the other posted rings: one definition per command. -/

set_option Elab.async false

namespace Sys2Proof.Machine

open Sys2Proof

/-- HEARTBEAT (R118): the descriptor comes up in a ring and is checked (R102). -/
def execHeartbeat (r : RingIx) (d : Desc) (s : State) : Host.Outcome State Fault Refusal :=
  finish (s.awake fun s => s.submit r 0x01 d fmtNone ownHeartbeat)

/-- POWER_STATE (R83): the descriptor comes up in a ring and is checked (R102). -/
def execPowerState (r : RingIx) (d : Desc) (s : State) : Host.Outcome State Fault Refusal :=
  finish (s.awake fun s => s.submit r 0x02 d fmtPower ownPower)

/-- HOST_RESUME (R120): the descriptor comes up in a ring and is checked (R102). -/
def execHostResume (r : RingIx) (d : Desc) (s : State) : Host.Outcome State Fault Refusal :=
  finish (s.awake fun s => s.submit r 0x03 d fmtNone ownResume)

/-- GRID_MODE (R239): the descriptor comes up in a ring and is checked (R102). -/
def execGridMode (r : RingIx) (d : Desc) (s : State) : Host.Outcome State Fault Refusal :=
  finish (s.awake fun s => s.submit r 0x10 d fmtGrid (ownGrid false))

/-- ENERGY_DIR (R251): the descriptor comes up in a ring and is checked (R102). -/
def execEnergyDir (r : RingIx) (d : Desc) (s : State) : Host.Outcome State Fault Refusal :=
  finish (s.awake fun s => s.submit r 0x11 d fmtDir ownDir)

/-- SETPOINT (R216): the descriptor comes up in a ring and is checked (R102). -/
def execSetpoint (r : RingIx) (d : Desc) (s : State) : Host.Outcome State Fault Refusal :=
  finish (s.awake fun s => s.submit r 0x20 d fmtSetpoint (ownSetpoint false))

/-- STRING_SETPOINT (R252): the descriptor comes up in a ring and is checked (R102). -/
def execStringSetpoint (r : RingIx) (d : Desc) (s : State) : Host.Outcome State Fault Refusal :=
  finish (s.awake fun s => s.submit r 0x21 d fmtString (ownString false))

/-- BANK_COMMIT (R207): the descriptor comes up in a ring and is checked (R102). -/
def execBankCommit (r : RingIx) (d : Desc) (s : State) : Host.Outcome State Fault Refusal :=
  finish (s.awake fun s => s.submit r 0x30 d fmtCommit ownCommit)

/-- POUND_ENABLE (R226): the descriptor comes up in a ring and is checked (R102). -/
def execPoundEnable (r : RingIx) (d : Desc) (s : State) : Host.Outcome State Fault Refusal :=
  finish (s.awake fun s => s.submit r 0x40 d fmtPoundEnable (ownPoundEnable false))

/-- POUND_DISABLE (R228): the descriptor comes up in a ring and is checked (R102). -/
def execPoundDisable (r : RingIx) (d : Desc) (s : State) : Host.Outcome State Fault Refusal :=
  finish (s.awake fun s => s.submit r 0x41 d fmtPoundDisable ownPoundDisable)

/-- CELL_BYPASS (R233): the descriptor comes up in a ring and is checked (R102). -/
def execCellBypass (r : RingIx) (d : Desc) (s : State) : Host.Outcome State Fault Refusal :=
  finish (s.awake fun s => s.submit r 0x42 d fmtBypass (ownBypass false))

/-- CELL_SERVICE (R188): the descriptor comes up in a ring and is checked (R102). -/
def execCellService (r : RingIx) (d : Desc) (s : State) : Host.Outcome State Fault Refusal :=
  finish (s.awake fun s => s.submit r 0x43 d fmtService ownService)

/-- SLUICE (R260): the descriptor comes up in a ring and is checked (R102). -/
def execSluice (r : RingIx) (d : Desc) (s : State) : Host.Outcome State Fault Refusal :=
  finish (s.awake fun s => s.submit r 0x50 d fmtSluice ownSluice)

/-- ENERGY_RECORD (R265): the descriptor comes up in a ring and is checked (R102). -/
def execEnergyRecord (r : RingIx) (d : Desc) (s : State) : Host.Outcome State Fault Refusal :=
  finish (s.awake fun s => s.submit r 0x51 d fmtRecord ownRecord)

/-- AUX_RUN (R326): the descriptor comes up in a ring and is checked (R102). -/
def execAuxRun (r : RingIx) (d : Desc) (s : State) : Host.Outcome State Fault Refusal :=
  finish (s.awake fun s => s.submit r 0x60 d fmtAuxRun ownAuxRun)

/-- AUX_STOP (R326): the descriptor comes up in a ring and is checked (R102). -/
def execAuxStop (r : RingIx) (d : Desc) (s : State) : Host.Outcome State Fault Refusal :=
  finish (s.awake fun s => s.submit r 0x61 d fmtAuxStop ownAuxStop)

/-- FAULT_CLEAR (R400): the descriptor comes up in a ring and is checked (R102). -/
def execFaultClear (r : RingIx) (d : Desc) (s : State) : Host.Outcome State Fault Refusal :=
  finish (s.awake fun s => s.submit r 0x70 d fmtClear ownClear)

/-- ROLE_SWAP (R378): the descriptor comes up in a ring and is checked (R102). -/
def execRoleSwap (r : RingIx) (d : Desc) (s : State) : Host.Outcome State Fault Refusal :=
  finish (s.awake fun s => s.submit r 0x80 d fmtSwap ownSwap)

/-- ATTEST (R414): the descriptor comes up in a ring and is checked (R102). -/
def execAttest (r : RingIx) (d : Desc) (s : State) : Host.Outcome State Fault Refusal :=
  finish (s.awake fun s => s.submit r 0x90 d fmtAttest ownAttest)

/-- DEBUG_UNLOCK (R419): the descriptor comes up; `resp` is what the buffer of a response holds. -/
def execDebugUnlock (r : RingIx) (d : Desc) (resp : Bytes) (s : State) : Host.Outcome State Fault Refusal :=
  finish (s.awake fun s => s.submit r 0x91 d fmtUnlock (ownUnlock resp) resp)

/-- FRAME_TX (R110): a frame descriptor comes up, with the frame that its fetch reads. -/
def execFrameTx (r : RingIx) (d : Desc) (frame : Bytes) (s : State) : Host.Outcome State Fault Refusal :=
  finish (s.awake fun s => s.postTransmit r d frame)

/-- RX_BUFFER (R111): a receive buffer comes up. -/
def execRxBuffer (r : RingIx) (d : Desc) (s : State) : Host.Outcome State Fault Refusal :=
  finish (s.awake fun s => s.postReceive r d)

/-- TLM_BUFFER (R108): a telemetry buffer comes up. -/
def execTlmBuffer (r : RingIx) (d : Desc) (s : State) : Host.Outcome State Fault Refusal :=
  finish (s.awake fun s => s.postTelemetry r d)

/-- DEFER_TIMEOUT (R257): the kept command of fetch number `seq` has waited for `NRG_DEFER.TMO`. -/
def execDeferTimeout (seq : Nat) (s : State) : Host.Outcome State Fault Refusal :=
  finish (s.awake fun s => s.deferTimeout seq)

end Sys2Proof.Machine
end

