-- ==== Sys2Proof/Machine/CycleRows.lean ====
section
/-! DEFINITION. The meanings of the marks and windows of the cycle: one definition per command. -/

set_option Elab.async false

namespace Sys2Proof.Machine

open Sys2Proof

/-- SAMPLE_MARK (R23): the next SAMPLE mark, with the samples of the MARK values. -/
def execSampleMark (xs : List MarkSample) (s : State) : Host.Outcome State Fault Refusal :=
  finish (s.awake fun s => s.sampleMark xs)

/-- COMPUTE_WINDOW_OPEN (R202, R214, R215): the compute window opens; a lockstep mismatch names its loop, `flagged` is
what the self-test finds. -/
def execComputeWindowOpen (mismatch : Option Nat) (flagged : Bool) (s : State) : Host.Outcome State Fault Refusal :=
  finish (s.awake fun s => s.computeOpen mismatch flagged)

/-- LOOP_SCHEDULE_DONE (R223): the last stage is done. -/
def execLoopScheduleDone (s : State) : Host.Outcome State Fault Refusal :=
  finish (s.awake fun s => s.scheduleDone)

/-- CYCLE_OVERRUN (R24): the window ends before compute has finished. -/
def execCycleOverrun (s : State) : Host.Outcome State Fault Refusal :=
  finish (s.awake fun s => s.overrun)

/-- DOWNLINK_WINDOW_START (R167): the downlink windows of the cycle. -/
def execDownlinkWindowStart (s : State) : Host.Outcome State Fault Refusal :=
  finish (s.awake fun s => s.downlinkStart)

/-- SERVICE_WINDOW_OPEN (R169): a service window opens on every pound. -/
def execServiceWindowOpen (s : State) : Host.Outcome State Fault Refusal :=
  finish (s.awake fun s => s.serviceWindow)

/-- APPLY_MARK (R18): the APPLY mark of the cycle. -/
def execApplyMark (s : State) : Host.Outcome State Fault Refusal :=
  finish (s.awake fun s => s.applyMark)

end Sys2Proof.Machine
end

