-- ==== Sys2Proof/Machine/DebugRows.lean ====
section
/-! DEFINITION. The meanings of debug over PCIe and JTAG: one definition per command. -/

set_option Elab.async false

namespace Sys2Proof.Machine

open Sys2Proof

/-- SEC_DBG_GO_READ (R416): GO_READ written to `SEC_DBG_CMD`. -/
def execSecDbgGoRead (s : State) : Host.Outcome State Fault Refusal :=
  finish (s.awake fun s => s.dbgCmd 1#32)

/-- SEC_DBG_GO_WRITE (R416): GO_WRITE written to `SEC_DBG_CMD`. -/
def execSecDbgGoWrite (s : State) : Host.Outcome State Fault Refusal :=
  finish (s.awake fun s => s.dbgCmd 2#32)

/-- LE_HALT (R417): a halt request on an interface, 0 PCIe and 1 JTAG. -/
def execLeHalt (i : Fin 2) (s : State) : Host.Outcome State Fault Refusal :=
  finish (s.awake fun s => s.leHalt i)

/-- LE_STEP (R417): a single step; `mismatch` tells what the two copies give. -/
def execLeStep (i : Fin 2) (mismatch : Bool) (s : State) : Host.Outcome State Fault Refusal :=
  finish (s.awake fun s => s.leStep i mismatch)

/-- LE_HALT_END (R417): a halt ends where its conditions no longer hold. -/
def execLeHaltEnd (s : State) : Host.Outcome State Fault Refusal :=
  finish (s.awake fun s => s.judgeHalt)

/-- JTAG_BOUNDARY_SCAN (R418): a pin-driving boundary-scan instruction. -/
def execJtagBoundaryScan (s : State) : Host.Outcome State Fault Refusal :=
  finish (s.boundaryScan)

/-- TEST_LOGIC_RESET (R418): Test-Logic-Reset. -/
def execTestLogicReset (s : State) : Host.Outcome State Fault Refusal :=
  finish (s.testReset)

/-- JTAG_IMAGE_RECEIVED (R46): an image over JTAG; `bad` names fuse rows that do not program. -/
def execJtagImageReceived (image : Bytes) (bad : List Nat) (s : State) : Host.Outcome State Fault Refusal :=
  finish (s.awake fun s => s.jtagImage image bad)

/-- JTAG_DBG_UNLOCK (R419): an exchange through DBG_UNLOCK: operands as DEBUG_UNLOCK, and the response. -/
def execJtagDbgUnlock (ops : Bytes) (resp : Bytes) (s : State) : Host.Outcome State Fault Refusal :=
  finish (s.jtagUnlock ops resp)

/-- JTAG_DBG_ACCESS (R416): a debug access through DBG_ACCESS. -/
def execJtagDbgAccess (a : BitVec 64) (write : Bool) (v : Word) (s : State) : Host.Outcome State Fault Refusal :=
  finish (s.jtagAccess a.toNat write v)

end Sys2Proof.Machine
end

