-- ==== Sys2Proof/Machine/FaultRows.lean ====
section
/-! DEFINITION. The meanings of the fault collector: one definition per command. -/

set_option Elab.async false

namespace Sys2Proof.Machine

open Sys2Proof

/-- FAULT_SOURCE_ASSERTED (R385, R387): what a source pair shows: 0 a pulse, 1 asserted, 2 clear; instance, address,
master and access of Table 15.4. -/
def execFaultSourceAsserted (src : Fin 512) (inst : BitVec 16) (pair : Fin 3) (addr : BitVec 64) (master : BitVec 4) (access : BitVec 4) (s : State) : Host.Outcome State Fault Refusal :=
  finish (s.awake fun s => s.sourceSeen src inst.toNat pair { addr := addr.toNat, master := master.toNat, access := access.toNat })

/-- FAULT_SIGNAL_PAIR_BROKEN (R385): a pair is read invalid twice in a row. -/
def execFaultSignalPairBroken (src : Fin 512) (s : State) : Host.Outcome State Fault Refusal :=
  finish (s.awake fun s => s.pairBroken src)

/-- FAULT_COLLECTOR_INTEGRITY (R399): a copy difference or a parity error. -/
def execFaultCollectorIntegrity (s : State) : Host.Outcome State Fault Refusal :=
  finish (s.awake fun s => s.integrity)

/-- SHADOW_END (R391): a shadow window ends. -/
def execShadowEnd (blk : Fin 16) (s : State) : Host.Outcome State Fault Refusal :=
  finish (s.awake fun s => s.shadowEnd blk)

/-- CAPTURE_WINDOW_END (R392): with no marks running, a 5 µs window ends. -/
def execCaptureWindowEnd (s : State) : Host.Outcome State Fault Refusal :=
  finish (s.awake fun s => s.captureWindowEnd)

end Sys2Proof.Machine
end

