-- ==== Sys2Proof/Machine/HostRows.lean ====
section
/-! DEFINITION. The meanings of the host link: rings, interrupts, telemetry, watchdog: one definition per command. -/

set_option Elab.async false

namespace Sys2Proof.Machine

open Sys2Proof

/-- RING_DOORBELL (R93): a write of `HST_RING_DB` of a posted ring; with a disable of it in the same clock it has no
effect (R95). -/
def execRingDoorbell (r : RingIx) (v : Doorbell) (s : State) : Host.Outcome State Fault Refusal :=
  finish (s.awake fun s => if v.off then s.wakeLink byHost else s.doorbellWrite r v.word)

/-- EVENT_RING_CONSUMER_WRITE (R94): a write of `HST_RING_DB` of the event ring. -/
def execEventRingConsumerWrite (v : Word) (s : State) : Host.Outcome State Fault Refusal :=
  finish (s.awake fun s => s.doorbellWrite evtq v)

/-- RING_DISABLE (R95): a write of `HST_RING_CTL` with ENABLE 0; `fetched` is the index fetching had reached. -/
def execRingDisable (r : RingIx) (v : Word) (fetched : BitVec 16) (s : State) : Host.Outcome State Fault Refusal :=
  finish (s.awake fun s => s.ringCtl r (v &&& 0x7FFFFFFF#32) fetched.toNat)

/-- RING_QUIESCED (R95): a disabled ring has finished what it had fetched. -/
def execRingQuiesced (r : RingIx) (s : State) : Host.Outcome State Fault Refusal :=
  finish (s.awake fun s => s.ringQuiesced r)

/-- RING_ENABLE (R95): a write of `HST_RING_CTL` with ENABLE 1. -/
def execRingEnable (r : RingIx) (v : Word) (s : State) : Host.Outcome State Fault Refusal :=
  finish (s.awake fun s => s.ringCtl r (v ||| 0x80000000#32) 0)

/-- RING_ERROR (R88): a DMA access for the ring ends in an error. -/
def execRingError (r : RingIx) (addr : BitVec 64) (write : Bool) (s : State) : Host.Outcome State Fault Refusal :=
  finish (s.awake fun s => s.dmaError r addr.toNat write)

/-- MSIX_HOLDOFF_EXPIRY (R116): HOLDOFF of the ring has passed since the first completion or record that gathered. -/
def execMsixHoldoffExpiry (r : RingIx) (s : State) : Host.Outcome State Fault Refusal :=
  finish (s.awake fun s => s.holdoff r)

/-- MSIX_UNMASK (R116): the host unmasks a vector, with MSI-X Enable and Function Mask as configuration space has
them. -/
def execMsixUnmask (vec : Fin 32) (c : MsixControl) (s : State) : Host.Outcome State Fault Refusal :=
  finish (s.awake fun s => s.unmask vec c.enable c.mask)

/-- EVENT_RECORD_WRITE (R114): held records are written where the ring has space and DMA can be issued. -/
def execEventRecordWrite (s : State) : Host.Outcome State Fault Refusal :=
  finish (s.awake fun s => s.flushHost)

/-- TLM_ENABLE (R106): a write of `HST_TLM_CTL` with ENABLE 1; `list` is the item list read, none where the read
failed. -/
def execTlmEnable (i : Fin 8) (v : Word) (list : Option (List Word)) (s : State) : Host.Outcome State Fault Refusal :=
  finish (s.awake fun s => s.tlmCtl i (v ||| 0x80000000#32) list)

/-- TELEMETRY_BLOCK_WRITE (R107): the block of a stream falls due. -/
def execTelemetryBlockWrite (i : Fin 8) (s : State) : Host.Outcome State Fault Refusal :=
  finish (s.awake fun s => s.blockWrite i)

/-- PERST (R87): `PERST_N` falls. -/
def execPerst (s : State) : Host.Outcome State Fault Refusal :=
  finish (s.perst)

/-- FUNCTION_LEVEL_RESET (R87): a Function Level Reset. -/
def execFunctionLevelReset (s : State) : Host.Outcome State Fault Refusal :=
  finish (s.awake fun s => s.flr)

/-- BUS_MASTER_ENABLE_CLEAR (R87): Bus Master Enable is cleared. -/
def execBusMasterEnableClear (s : State) : Host.Outcome State Fault Refusal :=
  finish (s.awake fun s => s.bmeClear)

/-- WATCH_WARN (R118): TIMEOUT/2 has passed without a restart. -/
def execWatchWarn (s : State) : Host.Outcome State Fault Refusal :=
  finish (s.awake fun s => s.watchWarn)

/-- WATCH_EXPIRED (R118, R121): TIMEOUT has passed without a restart. -/
def execWatchExpired (s : State) : Host.Outcome State Fault Refusal :=
  finish (s.awake fun s => s.watchExpired)

/-- PLAN_RAMP_END (R119): the ramp of the host-loss plan ends. -/
def execPlanRampEnd (s : State) : Host.Outcome State Fault Refusal :=
  finish (s.awake fun s => s.planRampEnd)

/-- PCIE_LINK_DOWN (R87): the link goes down without a reset. -/
def execPcieLinkDown (s : State) : Host.Outcome State Fault Refusal :=
  finish (s.awake fun s => s.linkDown)

/-- PCIE_LINK_UP (R87): the link comes up. -/
def execPcieLinkUp (s : State) : Host.Outcome State Fault Refusal :=
  finish (s.awake fun s => s.linkUps)

/-- D3HOT_ENTRY (R87): the function enters D3hot. -/
def execD3hotEntry (s : State) : Host.Outcome State Fault Refusal :=
  finish (s.awake fun s => s.d3hot)

/-- D0_RETURN (R87): the function returns to D0. -/
def execD0Return (s : State) : Host.Outcome State Fault Refusal :=
  finish (s.awake fun s => s.d0)

/-- BUS_MASTER_ENABLE_SET (R87): Bus Master Enable is set. -/
def execBusMasterEnableSet (s : State) : Host.Outcome State Fault Refusal :=
  finish (s.awake fun s => s.bmeSet)

/-- PERST_RELEASE (R80): `PERST_N` rises. -/
def execPerstRelease (s : State) : Host.Outcome State Fault Refusal :=
  finish (s.perstRelease)

end Sys2Proof.Machine
end

