-- ==== Sys2Proof/Machine/MeterRows.lean ====
section
/-! DEFINITION. The meanings of metering, PWM, comparators and drives: one definition per command. -/

set_option Elab.async false

namespace Sys2Proof.Machine

open Sys2Proof

/-- FINE_RESULT (R274): the fine results of the instant `n` × 250 µs. -/
def execFineResult (n : Nat) (xs : List Sample) (s : State) : Host.Outcome State Fault Refusal :=
  finish (s.awake fun s => s.fineResult n xs)

/-- INPUT_STATE (R272): a channel is clear, overloaded or stuck. -/
def execInputState (c : Fin 64) (st : Fin 3) (s : State) : Host.Outcome State Fault Refusal :=
  finish (s.awake fun s => s.inputState c st)

/-- CAL_SLICE_STEP (R284): the next timed step of calibration, with the measured gain and offset. -/
def execCalSliceStep (gain : F32) (ofs : F32) (s : State) : Host.Outcome State Fault Refusal :=
  finish (s.awake fun s => s.calStep gain ofs)

/-- PWM_PERIOD_BOUNDARY (R302): a group wraps at PERIOD; `blank` names the comparator channels with an edge window
open. -/
def execPwmPeriodBoundary (grp : Fin 8) (blank : BitVec 64) (s : State) : Host.Outcome State Fault Refusal :=
  finish (s.awake fun s => s.pwmWrap grp blank)

/-- TRIP_IN_ASSERTED (R301, R302): a `TRIP_IN` pin changes. -/
def execTripInAsserted (n : Fin 8) (low : Bool) (s : State) : Host.Outcome State Fault Refusal :=
  finish (s.awake fun s => s.tripPin n low)

/-- COMPARATOR_ASSERTED (R310): what the comparators of a channel assert now. -/
def execComparatorAsserted (c : Fin 64) (hi : Bool) (lo : Bool) (blanked : Bool) (s : State) : Host.Outcome State Fault Refusal :=
  finish (s.awake fun s => s.cmpChange c hi lo blanked)

/-- COMPARATOR_RESOLVED (R308): a comparator resolves after its start-up. -/
def execComparatorResolved (c : Fin 64) (hi : Bool) (on : Bool) (blanked : Bool) (s : State) : Host.Outcome State Fault Refusal :=
  finish (s.awake fun s => s.cmpResolve c hi on blanked)

/-- AUX_FAULT_IN (R318): `AUX_FLT_N` of a drive changes. -/
def execAuxFaultIn (dr : Fin 4) (asserted : Bool) (s : State) : Host.Outcome State Fault Refusal :=
  finish (s.awake fun s => s.auxFaultIn dr asserted)

/-- AUX_DECISION (R319): the decision of a period of a drive, with the shunt samples available. -/
def execAuxDecision (dr : Fin 4) (xs : List ShuntSample) (s : State) : Host.Outcome State Fault Refusal :=
  finish (s.awake fun s => s.auxDecision dr xs)

/-- AUX_PROBE_SET (R328): a probe set has run, with the samples of V1, V3 and V5. -/
def execAuxProbeSet (dr : Fin 4) (xs : List MarkSample) (s : State) : Host.Outcome State Fault Refusal :=
  finish (s.awake fun s => s.probeSet dr xs)

/-- AUX_ALIGN_DONE (R328): ALIGN_T has passed. -/
def execAuxAlignDone (dr : Fin 4) (s : State) : Host.Outcome State Fault Refusal :=
  finish (s.awake fun s => s.alignDone dr)

/-- AUX_COAST_END (R330): COAST_T has passed. -/
def execAuxCoastEnd (dr : Fin 4) (s : State) : Host.Outcome State Fault Refusal :=
  finish (s.awake fun s => s.coastEnd dr)

/-- RECATCH_RESET (R330): 1 s in RUNNING without loss. -/
def execRecatchReset (dr : Fin 4) (s : State) : Host.Outcome State Fault Refusal :=
  finish (s.awake fun s => s.recatchReset dr)

/-- FAST_PATH_RESULT (R283): a fast-path result. -/
def execFastPathResult (x : Sample) (s : State) : Host.Outcome State Fault Refusal :=
  finish (s.awake fun s => s.fastResult x)

end Sys2Proof.Machine
end

