-- ==== Sys2Proof/Machine/PairRows.lean ====
section
/-! DEFINITION. The meanings of the pair of seats: one definition per command. -/

set_option Elab.async false

namespace Sys2Proof.Machine

open Sys2Proof

/-- PARTNER_CLAIM_ASSERTED (R357, R359, R360): `PARTNER_CLAIM_N` is seen asserted. -/
def execPartnerClaimAsserted (s : State) : Host.Outcome State Fault Refusal :=
  finish (s.awake fun s => s.partnerAsserted)

/-- CLAIM_ASSERT (R361): a RELEASED seat that meets every condition claims. -/
def execClaimAssert (s : State) : Host.Outcome State Fault Refusal :=
  finish (s.awake fun s => s.claimAssert)

/-- GATE_OPEN (R359): the line has been deasserted for 2 µs. -/
def execGateOpen (s : State) : Host.Outcome State Fault Refusal :=
  finish (s.awake fun s => s.gateOpens)

/-- CLAIM_CONTESTED_TIMEOUT (R360): seat A has been CONTESTED too long. -/
def execClaimContestedTimeout (s : State) : Host.Outcome State Fault Refusal :=
  finish (s.awake fun s => s.contestedTimeout)

/-- CLAIM_KEEPER_EXPIRED (R363): the keeper has not been refreshed. -/
def execClaimKeeperExpired (s : State) : Host.Outcome State Fault Refusal :=
  finish (s.awake fun s => s.keeperExpired)

/-- START_T_EXPIRY (R361): START_T has passed since boot. -/
def execStartTExpiry (s : State) : Host.Outcome State Fault Refusal :=
  finish (s.awake fun s => s.startExpiry)

/-- HEARTBEAT_RECEIVED (R358, R366 to R368): the first copy of a partner heartbeat. -/
def execHeartbeatReceived (bytes : Bytes) (s : State) : Host.Outcome State Fault Refusal :=
  finish (s.awake fun s => s.heartbeatIn bytes)

/-- NOTICE_RECEIVED (R365, R379): a partner NOTICE. -/
def execNoticeReceived (bytes : Bytes) (s : State) : Host.Outcome State Fault Refusal :=
  finish (s.awake fun s => s.noticeIn bytes)

/-- MIRROR_RECEIVED (R371): a mirrored command. -/
def execMirrorReceived (bytes : Bytes) (s : State) : Host.Outcome State Fault Refusal :=
  finish (s.awake fun s => s.mirrorIn bytes)

/-- HEALTH_RECEIVED (R376): a HEALTH message. -/
def execHealthReceived (bytes : Bytes) (s : State) : Host.Outcome State Fault Refusal :=
  finish (s.awake fun s => s.healthIn bytes)

/-- ROLE_SWAP_RUN (R379): APPLY of cycle s. -/
def execRoleSwapRun (s : State) : Host.Outcome State Fault Refusal :=
  finish (s.awake fun s => s.swapRun)

/-- ROLE_SWAP_DONE (R380): the swap has ended, or is past its time. -/
def execRoleSwapDone (s : State) : Host.Outcome State Fault Refusal :=
  finish (s.awake fun s => s.swapDone)

/-- COPY_RECEIVED (R370): a COPY segment. -/
def execCopyReceived (bytes : Bytes) (s : State) : Host.Outcome State Fault Refusal :=
  finish (s.awake fun s => s.copyIn bytes)

/-- PARTNER_CLAIM_DEASSERTED (R360): `PARTNER_CLAIM_N` is seen deasserted. -/
def execPartnerClaimDeasserted (s : State) : Host.Outcome State Fault Refusal :=
  finish (s.awake fun s => s.partnerDeasserted)

end Sys2Proof.Machine
end

