-- ==== Sys2Proof/Machine/RegisterRows.lean ====
section
/-! DEFINITION. The meanings of register writes and the reads that capture: one definition per command. -/

set_option Elab.async false

namespace Sys2Proof.Machine

open Sys2Proof

/-- REGISTER_WRITE (R8, R9): an access over BAR0; a write carries its data and byte enables. -/
def execRegisterWrite (a : BitVec 20) (data : BitVec 64) (enables : BitVec 8) (x : BarAccess) (s : State) :
    Host.Outcome State Fault Refusal :=
  finish (s.awake fun s => match x with
    | .read n => s.hostReadBytes a.toNat n
    | .write32 => s.hostAccess a.toNat data enables.toNat false
    | .write64 => s.hostAccess a.toNat data enables.toNat true)

/-- SYS_PWR_CTL_REQ (R83): a write of `SYS_PWR_CTL`. -/
def execSysPwrCtlReq (v : Word) (s : State) : Host.Outcome State Fault Refusal :=
  finish (s.awake fun s => s.sysWrite byHost 0x40 v)

/-- CYCLE_COMMIT (R26): a write of `SYS_CYCLE` with COMMIT 1. -/
def execCycleCommit (v : Word) (s : State) : Host.Outcome State Fault Refusal :=
  finish (s.awake fun s => s.cycleWrite (v ||| 0x80000000#32))

/-- SYS_RST (R77): a write of `SYS_RST_CTL`. -/
def execSysRst (v : Word) (s : State) : Host.Outcome State Fault Refusal :=
  finish (s.awake fun s => s.sysWrite byHost 0x34 v)

/-- BLK_RST (R78): a write of `SYS_RST_CTL`; a reset by a reaction follows from its fault (Machine/Settle.lean). -/
def execBlkRst (v : Word) (s : State) : Host.Outcome State Fault Refusal :=
  finish (s.awake fun s => s.hostWrite 0x34 v fun s => s.rstWrite v)

/-- SYS_OVERLAY_WRITE (R429): a write of `SYS_OVERLAY`. -/
def execSysOverlayWrite (v : Word) (s : State) : Host.Outcome State Fault Refusal :=
  finish (s.awake fun s => s.overlayWrite v)

/-- CLK_RETURN (R71): a write of `CLK_RETURN`. -/
def execClkReturn (v : Word) (s : State) : Host.Outcome State Fault Refusal :=
  finish (s.awake fun s => s.clkWrite byHost 0x4010 v)

/-- CLK_UPDATE (R74): a write of `CLK_UPDATE`. -/
def execClkUpdate (v : Word) (s : State) : Host.Outcome State Fault Refusal :=
  finish (s.awake fun s => s.clkWrite byHost 0x4028 v)

/-- LOOP_VERIFY_GO (R205): 1 written to `LOOP_VERIFY.GO`. -/
def execLoopVerifyGo (s : State) : Host.Outcome State Fault Refusal :=
  finish (s.awake fun s => s.loopWrite byHost 0x20004 1#32)

/-- BANK_VERIFIED (R205): the verification in progress ends. -/
def execBankVerified (s : State) : Host.Outcome State Fault Refusal :=
  finish (s.awake fun s => s.verified)

/-- BANK_DESCRIPTOR_WRITE (R205): a write of word `i` of the descriptor banks, bank B following bank A. -/
def execBankDescriptorWrite (i : Fin 65536) (v : Word) (s : State) : Host.Outcome State Fault Refusal :=
  finish (s.awake fun s => s.writeReg byHost (0x40000 + 4 * i) v)

/-- PWM_LOAD (R295): a write of `PWM_LOAD`. -/
def execPwmLoad (v : Word) (s : State) : Host.Outcome State Fault Refusal :=
  finish (s.awake fun s => s.pwmWrite byHost 0x34000 v)

/-- PWM_GRP_ENABLE (R292): a write of `PWM_GRP_CTL` of a group. -/
def execPwmGrpEnable (g : Fin 8) (v : Word) (s : State) : Host.Outcome State Fault Refusal :=
  finish (s.awake fun s => s.pwmGroupWrite g v)

/-- PWM_STAGED_WRITE (R296): a staged PERIOD, DUTY or PHASE; `late` tells that it meets the load in the same TB clock.
-/
def execPwmStagedWrite (t : Staged) (v : Word) (late : Bool) (s : State) : Host.Outcome State Fault Refusal :=
  finish (s.awake fun s => s.stagedWrite t v late)

/-- CMP_REARM (R311): a write of `CMP_REARM_LO`, or of `CMP_REARM_HI` when `high`. -/
def execCmpRearm (high : Bool) (v : Word) (s : State) : Host.Outcome State Fault Refusal :=
  finish (s.awake fun s => s.cmpWrite byHost (if high then 0x3601C else 0x36018) v)

/-- CMP_LATCH_RELEASE_WRITE (R310): a write of `CMP_CH_STAT`; `blanked` tells whether a blanking window is open. -/
def execCmpLatchReleaseWrite (c : Fin 64) (v : Word) (blanked : Bool) (s : State) : Host.Outcome State Fault Refusal :=
  finish (s.awake fun s => s.latchStat c v blanked)

/-- MTR_DIAG_GO (R286): a write of `MTR_DIAG` with GO 1. -/
def execMtrDiagGo (v : Word) (s : State) : Host.Outcome State Fault Refusal :=
  finish (s.awake fun s => s.mtrWrite byHost 0x30010 (v ||| 0x80000000#32))

/-- DIAG_DONE (R286): a diagnostic run ends with its two means. -/
def execDiagDone (m1 : F32) (m2 : F32) (s : State) : Host.Outcome State Fault Refusal :=
  finish (s.awake fun s => s.diagDone m1 m2)

/-- MTR_TRK_CLEAR (R283): a write of `MTR_TRK_CLEAR`. -/
def execMtrTrkClear (v : Word) (s : State) : Host.Outcome State Fault Refusal :=
  finish (s.awake fun s => s.mtrWrite byHost 0x30018 v)

/-- SOE_SET (R248): a write of `NRG_STR_SOE_SET` of a string. -/
def execSoeSet (i : Fin 16) (v : Word) (s : State) : Host.Outcome State Fault Refusal :=
  finish (s.awake fun s => s.soeWrite i v)

/-- LANE_RESTART (R127): a write of `CNL_LANE_CTL` with RESTART 1. -/
def execLaneRestart (n : Fin 28) (v : Word) (s : State) : Host.Outcome State Fault Refusal :=
  finish (s.awake fun s => s.laneCtl n (v ||| 0x08000000#32))

/-- STEP_REQ (R342): a write of `TSN_TIME_CTL` with STEP_REQ 1. -/
def execStepReq (v : Word) (s : State) : Host.Outcome State Fault Refusal :=
  finish (s.awake fun s => s.tsnWrite byHost 0x3A000 (v ||| 0x20000000#32))

/-- FLT_REARM (R392): a write of `FLT_CTL` with REARM 1. -/
def execFltRearm (v : Word) (s : State) : Host.Outcome State Fault Refusal :=
  finish (s.awake fun s => s.fltWrite byHost 0x3E000 (v ||| 0x80000000#32))

/-- FLT_LOG_IDX_WRITE (R393): a write of `FLT_LOG_IDX`. -/
def execFltLogIdxWrite (v : Word) (s : State) : Host.Outcome State Fault Refusal :=
  finish (s.awake fun s => s.fltWrite byHost 0x3E040 v)

/-- TSN_NOW_CAPTURE (R356): a read of `TSN_NOW_LO`. -/
def execTsnNowCapture (s : State) : Host.Outcome State Fault Refusal :=
  finish (s.awake fun s => s.hostRead 0x3A010)

/-- ACCUMULATOR_CAPTURE (R281): a read of bytes 0 to 3 of an accumulator item. -/
def execAccumulatorCapture (a : Fin 64) (s : State) : Host.Outcome State Fault Refusal :=
  finish (s.awake fun s => s.hostRead (0x31000 + 0x20 * a))

end Sys2Proof.Machine
end

