-- ==== Sys2Proof/Machine/TimeRows.lean ====
section
/-! DEFINITION. The meanings of network ports and plant time: one definition per command. -/

set_option Elab.async false

namespace Sys2Proof.Machine

open Sys2Proof

/-- PORT_DOWN (R334): a port goes down, by cause 1 to 6 of Table 13.6. -/
def execPortDown (port : Fin 2) (cause : Fin 6) (s : State) : Host.Outcome State Fault Refusal :=
  finish (s.awake fun s => s.portDown port (cause + 1))

/-- PORT_UP (R334): a port has held lock for 1 ms. -/
def execPortUp (port : Fin 2) (s : State) : Host.Outcome State Fault Refusal :=
  finish (s.awake fun s => s.portUp port)

/-- ETHERNET_FRAME_RECEIVED (R335): a frame arrives; `fcs` tells whether its FCS is good, `x` is the instant of its
timestamp point. -/
def execEthernetFrameReceived (port : Fin 2) (bytes : Bytes) (fcs : Bool) (x : Int) (s : State) : Host.Outcome State Fault Refusal :=
  finish (s.awake fun s => s.frameIn port bytes fcs x)

/-- PTP_MESSAGE_RECEIVED (R345): a tracker sees a PTP message; `x` is the instant of its timestamp point, `y` that of
an answer. -/
def execPtpMessageReceived (t : Fin 2) (port : Fin 2) (m : PtpMsg) (x : Int) (y : Int) (s : State) : Host.Outcome State Fault Refusal :=
  finish (s.awake fun s => s.ptp t port m x y)

/-- ANNOUNCE_TIMEOUT (R347): loss of Announce (0), Sync (1) or delay responses (2). -/
def execAnnounceTimeout (t : Fin 2) (kind : Fin 3) (s : State) : Host.Outcome State Fault Refusal :=
  finish (s.awake fun s => s.masterLost t kind)

/-- HOLDOVER_TIMEOUT (R347): 60 s of HOLDOVER with no master. -/
def execHoldoverTimeout (t : Fin 2) (s : State) : Host.Outcome State Fault Refusal :=
  finish (s.awake fun s => s.holdoverEnd t)

/-- REVERT_TIMER (R348): PREF has been LOCKED for REVERT_S seconds. -/
def execRevertTimer (s : State) : Host.Outcome State Fault Refusal :=
  finish (s.awake fun s => s.revert)

/-- SLEW_DONE (R343): plant time reaches the correction of the tracker. -/
def execSlewDone (s : State) : Host.Outcome State Fault Refusal :=
  finish (s.awake fun s => s.slewDone)

/-- FRAME_LAUNCH (R350 to R353): the head of a launch queue; the instants at which its timestamp point would pass each
port. -/
def execFrameLaunch (q : Fin 8) (x0 : Int) (x1 : Int) (s : State) : Host.Outcome State Fault Refusal :=
  finish (s.awake fun s => s.launch q fun p => if p = 0 then x0 else x1)

/-- PTP_DELAY_REQ_SEND (R345): the interval timer of a tracker; `x` is the instant of egress. -/
def execPtpDelayReqSend (t : Fin 2) (x : Int) (s : State) : Host.Outcome State Fault Refusal :=
  finish (s.awake fun s => s.delaySend t x)

end Sys2Proof.Machine
end

