-- ==== Sys2Proof/Machine/Dispatch.lean ====
section
/-! DEFINITION. One arm per command, each a direct call of its meaning. -/

namespace Sys2Proof.Machine

open Sys2Proof

/-- What a command does to everything but the queue. -/
def exec (i : Instr) (s : State) : Host.Outcome State Fault Refusal :=
  match i with
  | .heartbeat r d => Sys2Proof.Machine.execHeartbeat r d s
  | .powerState r d => Sys2Proof.Machine.execPowerState r d s
  | .hostResume r d => Sys2Proof.Machine.execHostResume r d s
  | .gridMode r d => Sys2Proof.Machine.execGridMode r d s
  | .energyDir r d => Sys2Proof.Machine.execEnergyDir r d s
  | .setpoint r d => Sys2Proof.Machine.execSetpoint r d s
  | .stringSetpoint r d => Sys2Proof.Machine.execStringSetpoint r d s
  | .bankCommit r d => Sys2Proof.Machine.execBankCommit r d s
  | .poundEnable r d => Sys2Proof.Machine.execPoundEnable r d s
  | .poundDisable r d => Sys2Proof.Machine.execPoundDisable r d s
  | .cellBypass r d => Sys2Proof.Machine.execCellBypass r d s
  | .cellService r d => Sys2Proof.Machine.execCellService r d s
  | .sluice r d => Sys2Proof.Machine.execSluice r d s
  | .energyRecord r d => Sys2Proof.Machine.execEnergyRecord r d s
  | .auxRun r d => Sys2Proof.Machine.execAuxRun r d s
  | .auxStop r d => Sys2Proof.Machine.execAuxStop r d s
  | .faultClear r d => Sys2Proof.Machine.execFaultClear r d s
  | .roleSwap r d => Sys2Proof.Machine.execRoleSwap r d s
  | .attest r d => Sys2Proof.Machine.execAttest r d s
  | .debugUnlock r d resp => Sys2Proof.Machine.execDebugUnlock r d resp s
  | .frameTx r d frame => Sys2Proof.Machine.execFrameTx r d frame s
  | .rxBuffer r d => Sys2Proof.Machine.execRxBuffer r d s
  | .tlmBuffer r d => Sys2Proof.Machine.execTlmBuffer r d s
  | .deferTimeout seq => Sys2Proof.Machine.execDeferTimeout seq s
  | .ringDoorbell r v => Sys2Proof.Machine.execRingDoorbell r v s
  | .eventRingConsumerWrite v => Sys2Proof.Machine.execEventRingConsumerWrite v s
  | .ringDisable r v fetched => Sys2Proof.Machine.execRingDisable r v fetched s
  | .ringQuiesced r => Sys2Proof.Machine.execRingQuiesced r s
  | .ringEnable r v => Sys2Proof.Machine.execRingEnable r v s
  | .ringError r addr write => Sys2Proof.Machine.execRingError r addr write s
  | .msixHoldoffExpiry r => Sys2Proof.Machine.execMsixHoldoffExpiry r s
  | .msixUnmask vec c => Sys2Proof.Machine.execMsixUnmask vec c s
  | .eventRecordWrite => Sys2Proof.Machine.execEventRecordWrite s
  | .tlmEnable ix v list => Sys2Proof.Machine.execTlmEnable ix v list s
  | .telemetryBlockWrite ix => Sys2Proof.Machine.execTelemetryBlockWrite ix s
  | .perst => Sys2Proof.Machine.execPerst s
  | .functionLevelReset => Sys2Proof.Machine.execFunctionLevelReset s
  | .busMasterEnableClear => Sys2Proof.Machine.execBusMasterEnableClear s
  | .watchWarn => Sys2Proof.Machine.execWatchWarn s
  | .watchExpired => Sys2Proof.Machine.execWatchExpired s
  | .planRampEnd => Sys2Proof.Machine.execPlanRampEnd s
  | .registerWrite a data enables x => Sys2Proof.Machine.execRegisterWrite a data enables x s
  | .sysPwrCtlReq v => Sys2Proof.Machine.execSysPwrCtlReq v s
  | .cycleCommit v => Sys2Proof.Machine.execCycleCommit v s
  | .sysRst v => Sys2Proof.Machine.execSysRst v s
  | .blkRst v => Sys2Proof.Machine.execBlkRst v s
  | .sysOverlayWrite v => Sys2Proof.Machine.execSysOverlayWrite v s
  | .clkReturn v => Sys2Proof.Machine.execClkReturn v s
  | .clkUpdate v => Sys2Proof.Machine.execClkUpdate v s
  | .loopVerifyGo => Sys2Proof.Machine.execLoopVerifyGo s
  | .bankVerified => Sys2Proof.Machine.execBankVerified s
  | .bankDescriptorWrite ix v => Sys2Proof.Machine.execBankDescriptorWrite ix v s
  | .pwmLoad v => Sys2Proof.Machine.execPwmLoad v s
  | .pwmGrpEnable g v => Sys2Proof.Machine.execPwmGrpEnable g v s
  | .pwmStagedWrite t v late => Sys2Proof.Machine.execPwmStagedWrite t v late s
  | .cmpRearm high v => Sys2Proof.Machine.execCmpRearm high v s
  | .cmpLatchReleaseWrite c v blanked => Sys2Proof.Machine.execCmpLatchReleaseWrite c v blanked s
  | .mtrDiagGo v => Sys2Proof.Machine.execMtrDiagGo v s
  | .diagDone m1 m2 => Sys2Proof.Machine.execDiagDone m1 m2 s
  | .mtrTrkClear v => Sys2Proof.Machine.execMtrTrkClear v s
  | .soeSet ix v => Sys2Proof.Machine.execSoeSet ix v s
  | .laneRestart n v => Sys2Proof.Machine.execLaneRestart n v s
  | .stepReq v => Sys2Proof.Machine.execStepReq v s
  | .fltRearm v => Sys2Proof.Machine.execFltRearm v s
  | .fltLogIdxWrite v => Sys2Proof.Machine.execFltLogIdxWrite v s
  | .tsnNowCapture => Sys2Proof.Machine.execTsnNowCapture s
  | .accumulatorCapture a => Sys2Proof.Machine.execAccumulatorCapture a s
  | .secDbgGoRead => Sys2Proof.Machine.execSecDbgGoRead s
  | .secDbgGoWrite => Sys2Proof.Machine.execSecDbgGoWrite s
  | .leHalt ix => Sys2Proof.Machine.execLeHalt ix s
  | .leStep ix mismatch => Sys2Proof.Machine.execLeStep ix mismatch s
  | .leHaltEnd => Sys2Proof.Machine.execLeHaltEnd s
  | .jtagBoundaryScan => Sys2Proof.Machine.execJtagBoundaryScan s
  | .testLogicReset => Sys2Proof.Machine.execTestLogicReset s
  | .powerOnReset straps feeds => Sys2Proof.Machine.execPowerOnReset straps feeds s
  | .supplyMonitorTrip rails sys => Sys2Proof.Machine.execSupplyMonitorTrip rails sys s
  | .mainResetRelease => Sys2Proof.Machine.execMainResetRelease s
  | .aonFeedLost f => Sys2Proof.Machine.execAonFeedLost f s
  | .dieTemperatureHigh temp => Sys2Proof.Machine.execDieTemperatureHigh temp s
  | .dieTemperatureLimit temp => Sys2Proof.Machine.execDieTemperatureLimit temp s
  | .bootStart => Sys2Proof.Machine.execBootStart s
  | .sramInitDone ok => Sys2Proof.Machine.execSramInitDone ok s
  | .settingsLoaded primary backup bad => Sys2Proof.Machine.execSettingsLoaded primary backup bad s
  | .bootDone => Sys2Proof.Machine.execBootDone s
  | .bootFail => Sys2Proof.Machine.execBootFail s
  | .bandSearchDone n => Sys2Proof.Machine.execBandSearchDone n s
  | .bandSearchFailed n => Sys2Proof.Machine.execBandSearchFailed n s
  | .referenceLost k => Sys2Proof.Machine.execReferenceLost k s
  | .referenceQualified k err => Sys2Proof.Machine.execReferenceQualified k err s
  | .slewComplete => Sys2Proof.Machine.execSlewComplete s
  | .backupClockLost => Sys2Proof.Machine.execBackupClockLost s
  | .pllLockLost n => Sys2Proof.Machine.execPllLockLost n s
  | .syncInPulse tb mtr => Sys2Proof.Machine.execSyncInPulse tb mtr s
  | .sampleMark xs => Sys2Proof.Machine.execSampleMark xs s
  | .computeWindowOpen mismatch flagged => Sys2Proof.Machine.execComputeWindowOpen mismatch flagged s
  | .loopScheduleDone => Sys2Proof.Machine.execLoopScheduleDone s
  | .cycleOverrun => Sys2Proof.Machine.execCycleOverrun s
  | .downlinkWindowStart => Sys2Proof.Machine.execDownlinkWindowStart s
  | .serviceWindowOpen => Sys2Proof.Machine.execServiceWindowOpen s
  | .applyMark => Sys2Proof.Machine.execApplyMark s
  | .stateBargeReceived n b t => Sys2Proof.Machine.execStateBargeReceived n b t s
  | .faultBargeReceived n b => Sys2Proof.Machine.execFaultBargeReceived n b s
  | .serviceRspReceived n b => Sys2Proof.Machine.execServiceRspReceived n b s
  | .serviceReqTimeout g => Sys2Proof.Machine.execServiceReqTimeout g s
  | .relayReceived ll kind n b => Sys2Proof.Machine.execRelayReceived ll kind n b s
  | .delayMeasurement n rtt b => Sys2Proof.Machine.execDelayMeasurement n rtt b s
  | .laneAligned x => Sys2Proof.Machine.execLaneAligned x s
  | .laneAbsent n => Sys2Proof.Machine.execLaneAbsent n s
  | .backoffExpiry n => Sys2Proof.Machine.execBackoffExpiry n s
  | .helloReceived n b => Sys2Proof.Machine.execHelloReceived n b s
  | .reportReceived n b => Sys2Proof.Machine.execReportReceived n b s
  | .reachSettled n => Sys2Proof.Machine.execReachSettled n s
  | .enumRetry n => Sys2Proof.Machine.execEnumRetry n s
  | .stepIssue p wait => Sys2Proof.Machine.execStepIssue p wait s
  | .stepTime p => Sys2Proof.Machine.execStepTime p s
  | .eqReqReceived n b => Sys2Proof.Machine.execEqReqReceived n b s
  | .eqRspReceived n b eye pre post => Sys2Proof.Machine.execEqRspReceived n b eye pre post s
  | .confirm p => Sys2Proof.Machine.execConfirm p s
  | .stepRevert p => Sys2Proof.Machine.execStepRevert p s
  | .hopRejoin n ok => Sys2Proof.Machine.execHopRejoin n ok s
  | .laneLost n x => Sys2Proof.Machine.execLaneLost n x s
  | .towpathKeepaliveSend => Sys2Proof.Machine.execTowpathKeepaliveSend s
  | .towpathFrameReceived p f => Sys2Proof.Machine.execTowpathFrameReceived p f s
  | .towpathLost p => Sys2Proof.Machine.execTowpathLost p s
  | .prechargeTimeout p => Sys2Proof.Machine.execPrechargeTimeout p s
  | .stoppingEnd p => Sys2Proof.Machine.execStoppingEnd p s
  | .bypassTimeout g => Sys2Proof.Machine.execBypassTimeout g s
  | .rejoinTimeout g => Sys2Proof.Machine.execRejoinTimeout g s
  | .outTimeout p => Sys2Proof.Machine.execOutTimeout p s
  | .shutdownRampEnd => Sys2Proof.Machine.execShutdownRampEnd s
  | .sluiceCellTimeout g => Sys2Proof.Machine.execSluiceCellTimeout g s
  | .recordReady ok => Sys2Proof.Machine.execRecordReady ok s
  | .attestReady ok => Sys2Proof.Machine.execAttestReady ok s
  | .fineResult n xs => Sys2Proof.Machine.execFineResult n xs s
  | .inputState c st => Sys2Proof.Machine.execInputState c st s
  | .calSliceStep gain ofs => Sys2Proof.Machine.execCalSliceStep gain ofs s
  | .pwmPeriodBoundary grp blank => Sys2Proof.Machine.execPwmPeriodBoundary grp blank s
  | .tripInAsserted n low => Sys2Proof.Machine.execTripInAsserted n low s
  | .comparatorAsserted c hi lo blanked => Sys2Proof.Machine.execComparatorAsserted c hi lo blanked s
  | .comparatorResolved c hi on blanked => Sys2Proof.Machine.execComparatorResolved c hi on blanked s
  | .auxFaultIn dr asserted => Sys2Proof.Machine.execAuxFaultIn dr asserted s
  | .auxDecision dr xs => Sys2Proof.Machine.execAuxDecision dr xs s
  | .auxProbeSet dr xs => Sys2Proof.Machine.execAuxProbeSet dr xs s
  | .auxAlignDone dr => Sys2Proof.Machine.execAuxAlignDone dr s
  | .auxCoastEnd dr => Sys2Proof.Machine.execAuxCoastEnd dr s
  | .recatchReset dr => Sys2Proof.Machine.execRecatchReset dr s
  | .portDown port cause => Sys2Proof.Machine.execPortDown port cause s
  | .portUp port => Sys2Proof.Machine.execPortUp port s
  | .ethernetFrameReceived port bytes fcs x => Sys2Proof.Machine.execEthernetFrameReceived port bytes fcs x s
  | .ptpMessageReceived t port m x y => Sys2Proof.Machine.execPtpMessageReceived t port m x y s
  | .announceTimeout t kind => Sys2Proof.Machine.execAnnounceTimeout t kind s
  | .holdoverTimeout t => Sys2Proof.Machine.execHoldoverTimeout t s
  | .revertTimer => Sys2Proof.Machine.execRevertTimer s
  | .slewDone => Sys2Proof.Machine.execSlewDone s
  | .frameLaunch q x0 x1 => Sys2Proof.Machine.execFrameLaunch q x0 x1 s
  | .partnerClaimAsserted => Sys2Proof.Machine.execPartnerClaimAsserted s
  | .claimAssert => Sys2Proof.Machine.execClaimAssert s
  | .gateOpen => Sys2Proof.Machine.execGateOpen s
  | .claimContestedTimeout => Sys2Proof.Machine.execClaimContestedTimeout s
  | .claimKeeperExpired => Sys2Proof.Machine.execClaimKeeperExpired s
  | .startTExpiry => Sys2Proof.Machine.execStartTExpiry s
  | .heartbeatReceived bytes => Sys2Proof.Machine.execHeartbeatReceived bytes s
  | .noticeReceived bytes => Sys2Proof.Machine.execNoticeReceived bytes s
  | .mirrorReceived bytes => Sys2Proof.Machine.execMirrorReceived bytes s
  | .healthReceived bytes => Sys2Proof.Machine.execHealthReceived bytes s
  | .roleSwapRun => Sys2Proof.Machine.execRoleSwapRun s
  | .roleSwapDone => Sys2Proof.Machine.execRoleSwapDone s
  | .faultSourceAsserted src inst pair addr master access => Sys2Proof.Machine.execFaultSourceAsserted src inst pair addr master access s
  | .faultSignalPairBroken src => Sys2Proof.Machine.execFaultSignalPairBroken src s
  | .faultCollectorIntegrity => Sys2Proof.Machine.execFaultCollectorIntegrity s
  | .shadowEnd blk => Sys2Proof.Machine.execShadowEnd blk s
  | .powerTransitionDone => Sys2Proof.Machine.execPowerTransitionDone s
  | .towpathEntryHoldDone => Sys2Proof.Machine.execTowpathEntryHoldDone s
  | .pcieLinkDown => Sys2Proof.Machine.execPcieLinkDown s
  | .pcieLinkUp => Sys2Proof.Machine.execPcieLinkUp s
  | .d3hotEntry => Sys2Proof.Machine.execD3hotEntry s
  | .d0Return => Sys2Proof.Machine.execD0Return s
  | .busMasterEnableSet => Sys2Proof.Machine.execBusMasterEnableSet s
  | .perstRelease => Sys2Proof.Machine.execPerstRelease s
  | .stepReceived n b => Sys2Proof.Machine.execStepReceived n b s
  | .confirmReceived n b => Sys2Proof.Machine.execConfirmReceived n b s
  | .delayReqReceived n turn b => Sys2Proof.Machine.execDelayReqReceived n turn b s
  | .copyReceived bytes => Sys2Proof.Machine.execCopyReceived bytes s
  | .partnerClaimDeasserted => Sys2Proof.Machine.execPartnerClaimDeasserted s
  | .jtagImageReceived image bad => Sys2Proof.Machine.execJtagImageReceived image bad s
  | .jtagDbgUnlock ops resp => Sys2Proof.Machine.execJtagDbgUnlock ops resp s
  | .jtagDbgAccess a write v => Sys2Proof.Machine.execJtagDbgAccess a write v s
  | .captureWindowEnd => Sys2Proof.Machine.execCaptureWindowEnd s
  | .ptpDelayReqSend t x => Sys2Proof.Machine.execPtpDelayReqSend t x s
  | .fastPathResult x => Sys2Proof.Machine.execFastPathResult x s
  | .bootReferenceFound k => Sys2Proof.Machine.execBootReferenceFound k s

end Sys2Proof.Machine
end

