-- ==== Sys2Proof/Machine/Pins.lean ====
section
/-! DEFINITION. The output pins as the state drives them (R36, R37, R40, R80, R82, R334, R418): Tables 2.4 and 2.4a,
column by column (log entry 106). The pins of the PWM outputs are those of `State.pwmOut`. -/

set_option Elab.async false

namespace Sys2Proof.Machine

open Sys2Proof

/-- What an output presents (Table 2.4): `hiZPd` and `hiZPu` are high impedance with the weak pull-down or pull-up,
`scanned` is whatever a pin-driving boundary-scan instruction sets (R418). -/
inductive PinLevel where
  | hiZPd | hiZPu | hiZ | low | high | released | electricalIdle | transmits | keepAlives | toggles | pulses
  | flashRead | idle | scanned
  deriving DecidableEq, Repr

/-- The columns of Tables 2.4 and 2.4a. -/
inductive PinColumn where
  /-- reset and OFF -/
  | held
  /-- boot steps 1 to 4, and a boot that failed in them -/
  | early
  /-- boot step 5 -/
  | live
  /-- boot steps 6 to 7 -/
  | late
  | towpath | hold | run
  deriving DecidableEq, Repr

/-- The column that the state stands in. -/
def State.pinColumn (s : State) : PinColumn :=
  match s.sys.boot with
  | .reset | .off => .held
  | .search | .sram | .image | .jtagWait | .failed => .early
  | .settings => .live
  | .applied => .late
  | .done =>
    match s.power with
    | .run => .run
    | .towpath => .towpath
    | _ => .hold

/-- A ball while a pin-driving boundary-scan instruction may hold it (R418). -/
def State.ball (s : State) (x : PinLevel) : PinLevel := if s.sec.scan then .scanned else x

/-- `CLAIM_N`: driven low while the seat claims (Table 14.1). -/
def State.claimN (s : State) : PinLevel :=
  s.ball (if decide (s.pinColumn = .held) || decide (s.rd R.RED_STAT_CLAIM = 0) then .released else .low)

/-- `SAFE_N`: rises at step 5 of boot and is released in SAFE (R37, R40). -/
def State.safeN (s : State) : PinLevel :=
  s.ball (match s.pinColumn with
    | .held | .early => .hiZPd
    | _ => if s.isSafe then .hiZPd else .high)

/-- `READY`: high once boot is complete, but released in TOWPATH and in SAFE (R36, R40). -/
def State.readyPin (s : State) : PinLevel :=
  s.ball (match s.pinColumn with
    | .hold | .run => if s.isSafe then .hiZPd else .high
    | _ => .hiZPd)

/-- `OPT_PWR_EN`: power of the optical modules. -/
def State.optPwrEn (s : State) : PinLevel :=
  s.ball (match s.pinColumn with
    | .held | .early | .live => .hiZPd
    | .towpath => .low
    | _ => .high)

/-- `SYNC_OUT`: the claim holder's pulses where they are enabled (R76, R359). -/
def State.syncPin (s : State) : PinLevel :=
  s.ball (match s.pinColumn with
    | .held | .early | .live | .late => .hiZPd
    | .towpath => .low
    | _ => if s.gateOpen && s.is R.CLK_SYNC_OUT_EN then .pulses else .low)

/-- `BS_CLK0` to `BS_CLK3`: the claim holder's, held low while PLL_MTR has lost lock (R42, R62, R70, R359). -/
def State.bsClk (s : State) : PinLevel :=
  s.ball (match s.pinColumn with
    | .hold | .run => if s.gateOpen then (if s.onBackup 11 then .low else .toggles) else .hiZPd
    | _ => .hiZPd)

/-- The transmitter of lane `n`, 24 to 27 the lock-link's: idle while the lane is OFF or ABSENT (Table 5.2) or
looped back inside its quad (R430). -/
def State.laneTx (s : State) (n : Nat) : PinLevel :=
  s.ball (match s.pinColumn with
    | .held | .early | .live | .towpath => .electricalIdle
    | _ => if s.laneState n = .off ∨ s.laneState n = .absent ∨ (n < 24 ∧ s.looped (poundOf n) = true) then .electricalIdle else .transmits)

/-- `TP_TX` of towpath port `p` (R2, R143). -/
def State.tpTx (s : State) (p : Nat) : PinLevel :=
  s.ball (match s.pinColumn with
    | .held | .early => .hiZPd
    | _ => if s.portOn p then .keepAlives else .hiZPd)

/-- A pin under the weak pull-up of a rail, bit `r` of MON_RAIL: it floats while the rail is out (R38). -/
def State.pulledUp (s : State) (r : Nat) : PinLevel := if s.sys.railsOk.getLsbD r then .hiZPu else .hiZ

/-- `ETH_TXDIS` of port `p`: low while the port is enabled in RUN or HOLD, high while PLL_ETH has lost lock (R38, R70,
R334). -/
def State.ethTxdis (s : State) (p : Nat) : PinLevel :=
  s.ball (match s.pinColumn with
    | .held | .early | .live => s.pulledUp 4
    | .towpath => .high
    | _ => if s.is (R.TSN_PORT_CTL_EN p) && !s.onBackup 9 then .low else .high)

/-- `CLKREQ_N`: released while `VIO33` is out of range, else low, in reset and OFF alike. -/
def State.clkreqN (s : State) : PinLevel := s.ball (if s.sys.railsOk.getLsbD 4 then .low else .released)

/-- What the QSPI port does (Tables 2.4 and 2.4a): nothing, the flash read of step 4, or idle. A boot that failed in
step 4 leaves it idle (CODEs 2 to 4 are those of step 4, R80), unless the image came over JTAG and the port was as in
reset (R46, R410). -/
inductive QspiUse where
  | off | read | idle
  deriving DecidableEq, Repr

/-- Use of the QSPI port in the present state. -/
def State.qspi (s : State) : QspiUse :=
  match s.pinColumn with
  | .held | .towpath => .off
  | .early =>
    let overJtag := s.is R.SYS_STRAP_BOOT_SRC && !s.is R.SYS_STRAP_BOOT_IGNORED
    if s.sys.boot = .image then .read
    else if decide (s.sys.boot = .failed) && [2, 3, 4].contains (s.rd R.SYS_BOOT_STAT_CODE) && !overJtag then .idle
    else .off
  | _ => .idle

/-- `QSPI_CS_N`: pulled up to `VIO18`, driven by the flash read, high when idle (R37, R38). -/
def State.qspiCs (s : State) : PinLevel :=
  s.ball (match s.qspi with | .off => s.pulledUp 3 | .read => .flashRead | .idle => .high)

/-- `QSPI_SCLK`, `QSPI_IO0` to `QSPI_IO3` and `QSPI_RST_N` (R36, R37). -/
def State.qspiBus (s : State) : PinLevel :=
  s.ball (match s.qspi with | .off => .hiZPd | .read => .flashRead | .idle => .idle)

/-- `TDO`: driven only while the test port shifts, outside reset and OFF (R36). -/
def State.tdo (s : State) (shifting : Bool) : PinLevel :=
  s.ball (if shifting && decide (s.pinColumn ≠ .held) then .transmits else .hiZ)

/-! ### Polarity of lanes (R47): `LANE_POL` swaps the pairs of Canal lanes, and the lane's own bit comes after it -/

/-- Are P and N of the transmit pair of lane `n` swapped? -/
def State.txSwapped (s : State) (n : Nat) : Bool :=
  (decide (n < 24) && s.is R.SYS_STRAP_LANE_POL) != s.is (R.CNL_LANE_CTL_TX_INV n)

/-- Are P and N of its receive pair? -/
def State.rxSwapped (s : State) (n : Nat) : Bool :=
  (decide (n < 24) && s.is R.SYS_STRAP_LANE_POL) != s.is (R.CNL_LANE_CTL_RX_INV n)

/-- Levels of the P and N balls of lane `n` for a bit it sends. -/
def State.txPair (s : State) (n : Nat) (b : Bool) : Bool × Bool := let v := b != s.txSwapped n; (v, !v)

/-- The bit that lane `n` receives from the level of its P ball. -/
def State.rxBit (s : State) (n : Nat) (p : Bool) : Bool := p != s.rxSwapped n

end Sys2Proof.Machine
end

