-- ==== Sys2Proof/WellFormed.lean ====
section
/-! DEFINITION. Which commands are well formed: what their operands must be for the row of the table to name them. -/

set_option Elab.async false

namespace Sys2Proof

/-- A descriptor has 20 operand bytes (Table 4.4). -/
def Desc.wf (d : Desc) : Bool := decide (d.ops.length = 20)

/-- A barge fits its header (Table 6.1): every field its width, LENGTH the words of the payload. -/
def Barge.wf (b : Barge) : Bool :=
  decide (b.typ < 16) && decide (b.position < 256) && decide (b.pound < 16) && decide (b.flags < 16)
    && decide (b.hops < 256) && decide (b.cycle < 65536) && decide (b.seq < 256) && decide (b.length < 256)
    && decide (b.payload.length = 4 * b.length)

/-- A sample names one of the 64 channels (R272). -/
def Sample.wf (x : Sample) : Bool := decide (x.channel < 64)

/-- A mark sample names a channel, and its mark lies between two windows 50 ns apart (R275). -/
def MarkSample.wf (x : MarkSample) : Bool := decide (x.channel < 64) && decide (x.frac ≤ 50000)

/-- A shunt sample was taken under one of the eight vectors (R319). -/
def ShuntSample.wf (x : ShuntSample) : Bool := decide (x.vec < 8) && x.mark.wf

/-- ENABLE of the word written to `HST_RING_CTL` or `HST_TLM_CTL`. -/
def enables (v : Word) : Bool := v.getLsbD 31

/-- A well-formed command: descriptors and barges of their size, a doorbell of a posted ring, the written bit that
the row's name tells. -/
def Instr.wf : Instr → Bool
  | .heartbeat _ d | .powerState _ d | .hostResume _ d | .gridMode _ d | .energyDir _ d | .setpoint _ d
  | .stringSetpoint _ d | .bankCommit _ d | .poundEnable _ d | .poundDisable _ d | .cellBypass _ d
  | .cellService _ d | .sluice _ d | .energyRecord _ d | .auxRun _ d | .auxStop _ d | .faultClear _ d
  | .roleSwap _ d | .attest _ d | .debugUnlock _ d _ | .frameTx _ d _ | .rxBuffer _ d | .tlmBuffer _ d => d.wf
  | .ringDoorbell r _ => decide (r ≠ 12)
  | .ringDisable _ v _ => !enables v
  | .ringEnable _ v | .tlmEnable _ v _ => enables v
  | .registerWrite _ _ e x => decide (x ≠ .write32) || decide (e.toNat < 16)
  | .relayReceived _ _ _ b => b.barge.wf
  | .stateBargeReceived _ b _ | .faultBargeReceived _ b | .serviceRspReceived _ b
  | .delayMeasurement _ _ b | .helloReceived _ b | .reportReceived _ b | .eqReqReceived _ b
  | .eqRspReceived _ b _ _ _ | .stepReceived _ b | .confirmReceived _ b | .delayReqReceived _ _ b => b.wf
  | .towpathFrameReceived _ f => decide (f.length = 12)
  | .sampleMark xs | .auxProbeSet _ xs => xs.all MarkSample.wf
  | .fineResult _ xs => xs.all Sample.wf
  | .fastPathResult x => x.wf
  | .auxDecision _ xs => xs.all ShuntSample.wf
  | .computeWindowOpen m _ => match m with
    | none => true
    | some l => decide (l < 1024 ∨ l = 0xFFFF)
  | .supplyMonitorTrip rails _ => decide (rails ≠ 0)
  | _ => true

end Sys2Proof
end

