-- ==== Sys2Proof/Safety.lean ====
section
/-! DEFINITION. What the statements speak of: canonical form, a step that completes, register fields that do not
overlap, a ring command that its owner comes to see, the effect of each command, commands that act while the main domains are held in reset. -/

set_option Elab.async false

namespace Sys2Proof.Machine

open Sys2Proof

/-! ### Invariants -/

/-- The canonical form of the registers. -/
def State.regsWf (s : State) : Bool := SMap.wf regReset s.regs

/-- The canonical form of the descriptor banks. -/
def State.banksWf (s : State) : Bool := SMap.wf (fun _ => (0 : Word)) s.loop.words

/-- The invariant of a step: equal registers and equal banks are equal data. -/
def State.Inv (s : State) : Prop := s.regsWf = true ∧ s.banksWf = true

/-- A step completes: neither a fault nor a refusal. -/
def completes (o : Host.Outcome State Fault Refusal) : Prop := ∃ t, o = .next t

/-- A barge that passes its checks: the CRC is right, and the LENGTH that of its type (R152, R153). -/
def bargeOk (b : Barge) : Prop := b.crc = b.goodCrc ∧ b.length = bargeWords b.typ

/-! ### Register fields -/

/-- A field lies inside its register. -/
def Fld.fits (f : Fld) : Prop := f.lsb + f.width ≤ 32

/-- Two fields share no bit. -/
def Fld.apart (f g : Fld) : Prop := f.off ≠ g.off ∨ f.lsb + f.width ≤ g.lsb ∨ g.lsb + g.width ≤ f.lsb

/-- The state in which the host has written the word `w` to the register at `off`, before what the register does. -/
def State.written (s : State) (off : Nat) (w : Word) : State := (s.wakeLink byHost).writeFields byHost off w

/-- Does an address hold a register whose write starts nothing of its own, and whose read captures nothing? The rows
of the opcode table name what the others do. -/
def plainReg (a : Nat) : Bool :=
  let ring := (a - 0x8100) % 0x20
  if a < 0x4000 then !([0x10, 0x24, 0x34, 0x40, 0x50] : List Nat).contains a
  else if a < 0x8000 then !([0x4000, 0x4004, 0x4010, 0x4020, 0x4028] : List Nat).contains a
  else if a < 0x10000 then !(decide (a = 0x8000 ∨ a = 0x8004) || (decide (0x8100 ≤ a ∧ a < 0x83E0) &&
    [0, 4, 8, 0x18].contains ring) || (decide (0x8400 ≤ a ∧ a < 0x8480) && decide (a % 0x10 ≠ 0xC)))
  else if a < 0x20000 then decide (0x10700 ≤ a)
  else if a < 0x28000 then decide (a ≠ 0x20004 ∧ (a < 0x20100 ∨ 0x20140 ≤ a))
  else if a < 0x2C000 then true
  else if a < 0x30000 then decide (a < 0x2C21C ∨ a % 0x20 ≠ 0x1C)
  else if a < 0x34000 then decide (a ≠ 0x30010 ∧ a ≠ 0x30018 ∧ (a < 0x31000 ∨ 0x31800 ≤ a))
  else if a < 0x36000 then decide (0x34010 ≤ a ∧ a < 0x34100)
  else if a < 0x38000 then decide (0x36020 ≤ a ∧ a < 0x36100)
  else if a < 0x3A000 then true
  else if a < 0x3C000 then decide (a ≠ 0x3A000 ∧ a ≠ 0x3A010 ∧ a < 0x3A100)
  else if a < 0x3E000 then true
  else if a < 0x3F000 then decide (a ≠ 0x3E000 ∧ a ≠ 0x3E040)
  else decide (a < 0x40000 ∧ a ≠ 0x3F05C)

/-! ### Ring commands (R102) -/

/-- The ring, the descriptor, the opcode of the row and the response's buffer of a ring command (Table 4.6). -/
def ringRow : Instr → Option (Nat × RingIx × Desc × Bytes)
  | .heartbeat r d => some (0x01, r, d, [])
  | .powerState r d => some (0x02, r, d, [])
  | .hostResume r d => some (0x03, r, d, [])
  | .gridMode r d => some (0x10, r, d, [])
  | .energyDir r d => some (0x11, r, d, [])
  | .setpoint r d => some (0x20, r, d, [])
  | .stringSetpoint r d => some (0x21, r, d, [])
  | .bankCommit r d => some (0x30, r, d, [])
  | .poundEnable r d => some (0x40, r, d, [])
  | .poundDisable r d => some (0x41, r, d, [])
  | .cellBypass r d => some (0x42, r, d, [])
  | .cellService r d => some (0x43, r, d, [])
  | .sluice r d => some (0x50, r, d, [])
  | .energyRecord r d => some (0x51, r, d, [])
  | .auxRun r d => some (0x60, r, d, [])
  | .auxStop r d => some (0x61, r, d, [])
  | .faultClear r d => some (0x70, r, d, [])
  | .roleSwap r d => some (0x80, r, d, [])
  | .attest r d => some (0x90, r, d, [])
  | .debugUnlock r d resp => some (0x91, r, d, resp)
  | _ => none

/-- The state in which the next descriptor of ring `r` has been taken up. -/
def State.taken (s : State) (r : Nat) : State := (s.takeUp r).2.2

/-- Ring index of the next descriptor of ring `r`. -/
def State.nextIx (s : State) (r : Nat) : Nat := (s.ring r).fetch

/-- The next descriptor of ring `r` as its owner sees it. -/
def State.cmdOf (s : State) (r : Nat) (d : Desc) : Cmd :=
  { seq := s.hst.fetchSeq, ring := r, idx := s.nextIx r, desc := d, fetchTime := (s.taken r).plantNs }

/-- A descriptor comes up in a command ring, and neither a fence nor a ring that goes first holds it (R28, R102,
R104). -/
def State.comesUp (s : State) (r : RingIx) (d : Desc) : Prop :=
  s.collects = true ∧ r.val < 4 ∧ s.hasDesc r = true ∧ (s.taken r).ringWaits r s.hst.fetchSeq = false
    ∧ (d.fence && (s.taken r).fenced s.hst.fetchSeq) = false ∧ (s.taken r).lowerWaits r = false

/-- A descriptor that comes up passes steps 1 to 3 of R102: opcode, form, permission and mode. -/
def State.passes (s : State) (row : Nat) (fmt : Format) (r : RingIx) (d : Desc) : Prop :=
  s.comesUp r d ∧ d.opcode.toNat = row ∧ d.flagsOk = true ∧ fmt (s.taken r) d = none
    ∧ (s.taken r).permitted r row = true ∧ (s.taken r).modeRefusal d = none

/-- The entry of the kept-command table for the next descriptor of ring `r` (R103). -/
def State.keptEntry (s : State) (r : Nat) (d : Desc) (deferred : Bool) : Kept :=
  { seq := s.hst.fetchSeq, ring := r, idx := s.nextIx r, desc := d, deferred := deferred, since := s.sys.k }

/-- The next descriptor of ring `r` as a fence holds it (R104). -/
def State.heldEntry (s : State) (r row : Nat) (d : Desc) (resp : Bytes) : Held :=
  { seq := s.hst.fetchSeq, ring := r, idx := s.nextIx r, row := row, desc := d, fetchTime := (s.taken r).plantNs,
    resp := resp }

/-- The state with an entry in the kept-command table. -/
def State.keep (s : State) (e : Kept) : State := { s with hst := { s.hst with kept := s.hst.kept ++ [e] } }

/-- The completion of a command of ring `r` in the state `t` that its owner has left: written back, then all that
follows at once. -/
def State.completed (s t : State) (r : RingIx) (d : Desc) (v : Verdict) : State :=
  (t.complete r (s.nextIx r) d v).settle

/-! ### While the main domains are held in reset (R50, R82) -/

/-- Commands that concern what stays powered (feeds, rails, `PERST_N`, the die's temperature, the JTAG port), and the
start of boot, which ends the reset. -/
def actsInReset : Instr → Bool
  | .powerOnReset _ _ | .supplyMonitorTrip _ _ | .mainResetRelease | .bootStart | .aonFeedLost _ | .perst | .perstRelease
  | .dieTemperatureHigh _ | .dieTemperatureLimit _ | .jtagBoundaryScan | .testLogicReset | .jtagDbgUnlock _ _
  | .jtagDbgAccess _ _ _ => true
  | _ => false

/-- Commands that start the always-on domain anew, its local counter with it (R44, R51). -/
def startsAnew : Instr → Bool
  | .powerOnReset _ _ | .aonFeedLost _ => true
  | _ => false

/-! ### The effect of each command -/

/-- What each row of the opcode table does in a state in which it acts, before what follows from it at once. -/
def State.effect (s : State) : Instr → State
  | .heartbeat r d => s.submit r 0x01 d fmtNone ownHeartbeat
  | .powerState r d => s.submit r 0x02 d fmtPower ownPower
  | .hostResume r d => s.submit r 0x03 d fmtNone ownResume
  | .gridMode r d => s.submit r 0x10 d fmtGrid (ownGrid false)
  | .energyDir r d => s.submit r 0x11 d fmtDir ownDir
  | .setpoint r d => s.submit r 0x20 d fmtSetpoint (ownSetpoint false)
  | .stringSetpoint r d => s.submit r 0x21 d fmtString (ownString false)
  | .bankCommit r d => s.submit r 0x30 d fmtCommit ownCommit
  | .poundEnable r d => s.submit r 0x40 d fmtPoundEnable (ownPoundEnable false)
  | .poundDisable r d => s.submit r 0x41 d fmtPoundDisable ownPoundDisable
  | .cellBypass r d => s.submit r 0x42 d fmtBypass (ownBypass false)
  | .cellService r d => s.submit r 0x43 d fmtService ownService
  | .sluice r d => s.submit r 0x50 d fmtSluice ownSluice
  | .energyRecord r d => s.submit r 0x51 d fmtRecord ownRecord
  | .auxRun r d => s.submit r 0x60 d fmtAuxRun ownAuxRun
  | .auxStop r d => s.submit r 0x61 d fmtAuxStop ownAuxStop
  | .faultClear r d => s.submit r 0x70 d fmtClear ownClear
  | .roleSwap r d => s.submit r 0x80 d fmtSwap ownSwap
  | .attest r d => s.submit r 0x90 d fmtAttest ownAttest
  | .debugUnlock r d resp => s.submit r 0x91 d fmtUnlock (ownUnlock resp) resp
  | .frameTx r d frame => s.postTransmit r d frame
  | .rxBuffer r d => s.postReceive r d
  | .tlmBuffer r d => s.postTelemetry r d
  | .deferTimeout seq => s.deferTimeout seq
  | .ringDoorbell r v => if v.off then s.wakeLink byHost else s.doorbellWrite r v.word
  | .eventRingConsumerWrite v => s.doorbellWrite evtq v
  | .ringDisable r v fetched => s.ringCtl r (v &&& 0x7FFFFFFF#32) fetched.toNat
  | .ringQuiesced r => s.ringQuiesced r
  | .ringEnable r v => s.ringCtl r (v ||| 0x80000000#32) 0
  | .ringError r addr write => s.dmaError r addr.toNat write
  | .msixHoldoffExpiry r => s.holdoff r
  | .msixUnmask vec c => s.unmask vec c.enable c.mask
  | .eventRecordWrite => s.flushHost
  | .tlmEnable i v list => s.tlmCtl i (v ||| 0x80000000#32) list
  | .telemetryBlockWrite i => s.blockWrite i
  | .perst => s.perst
  | .functionLevelReset => s.flr
  | .busMasterEnableClear => s.bmeClear
  | .watchWarn => s.watchWarn
  | .watchExpired => s.watchExpired
  | .planRampEnd => s.planRampEnd
  | .registerWrite a data enables x => match x with
      | .read n => s.hostReadBytes a.toNat n
      | .write32 => s.hostAccess a.toNat data enables.toNat false
      | .write64 => s.hostAccess a.toNat data enables.toNat true
  | .sysPwrCtlReq v => s.sysWrite byHost 0x40 v
  | .cycleCommit v => s.cycleWrite (v ||| 0x80000000#32)
  | .sysRst v => s.sysWrite byHost 0x34 v
  | .blkRst v => s.hostWrite 0x34 v fun s => s.rstWrite v
  | .sysOverlayWrite v => s.overlayWrite v
  | .clkReturn v => s.clkWrite byHost 0x4010 v
  | .clkUpdate v => s.clkWrite byHost 0x4028 v
  | .loopVerifyGo => s.loopWrite byHost 0x20004 1#32
  | .bankVerified => s.verified
  | .bankDescriptorWrite i v => s.writeReg byHost (0x40000 + 4 * i) v
  | .pwmLoad v => s.pwmWrite byHost 0x34000 v
  | .pwmGrpEnable g v => s.pwmGroupWrite g v
  | .pwmStagedWrite t v late => s.stagedWrite t v late
  | .cmpRearm high v => s.cmpWrite byHost (if high then 0x3601C else 0x36018) v
  | .cmpLatchReleaseWrite c v blanked => s.latchStat c v blanked
  | .mtrDiagGo v => s.mtrWrite byHost 0x30010 (v ||| 0x80000000#32)
  | .diagDone m1 m2 => s.diagDone m1 m2
  | .mtrTrkClear v => s.mtrWrite byHost 0x30018 v
  | .soeSet i v => s.soeWrite i v
  | .laneRestart n v => s.laneCtl n (v ||| 0x08000000#32)
  | .stepReq v => s.tsnWrite byHost 0x3A000 (v ||| 0x20000000#32)
  | .fltRearm v => s.fltWrite byHost 0x3E000 (v ||| 0x80000000#32)
  | .fltLogIdxWrite v => s.fltWrite byHost 0x3E040 v
  | .tsnNowCapture => s.hostRead 0x3A010
  | .accumulatorCapture a => s.hostRead (0x31000 + 0x20 * a)
  | .secDbgGoRead => s.dbgCmd 1#32
  | .secDbgGoWrite => s.dbgCmd 2#32
  | .leHalt i => s.leHalt i
  | .leStep i mismatch => s.leStep i mismatch
  | .leHaltEnd => s.judgeHalt
  | .jtagBoundaryScan => s.boundaryScan
  | .testLogicReset => s.testReset
  | .powerOnReset straps feeds => s.powerOn straps feeds
  | .supplyMonitorTrip rails sys => s.monitorTrip rails sys
  | .mainResetRelease => s.mainRelease
  | .aonFeedLost f => if f.back then s.feedBack f.feed else s.feedLost f.feed
  | .dieTemperatureHigh temp => s.hotDie temp 0x007
  | .dieTemperatureLimit temp => s.hotDie temp 0x008
  | .bootStart => s.bootStart
  | .sramInitDone ok => s.sramDone ok
  | .settingsLoaded primary backup bad => s.settingsLoaded primary backup bad
  | .bootDone => s.bootDone_
  | .bootFail => s.bootTimeout
  | .bandSearchDone n => s.searchDone n
  | .bandSearchFailed n => s.searchFailed n
  | .referenceLost k => s.refFails k
  | .referenceQualified k err => s.refQualifies k err
  | .slewComplete => s.slewComplete
  | .backupClockLost => s.backupLost
  | .pllLockLost n => s.lockLost n
  | .syncInPulse tb mtr => s.syncIn tb mtr
  | .sampleMark xs => s.sampleMark xs
  | .computeWindowOpen mismatch flagged => s.computeOpen mismatch flagged
  | .loopScheduleDone => s.scheduleDone
  | .cycleOverrun => s.overrun
  | .downlinkWindowStart => s.downlinkStart
  | .serviceWindowOpen => s.serviceWindow
  | .applyMark => s.applyMark
  | .stateBargeReceived n b t => s.received n b t
  | .faultBargeReceived n b => s.received n b 0
  | .serviceRspReceived n b => s.received n b 0
  | .serviceReqTimeout g => s.serviceTimeout g
  | .relayReceived ll kind n b => s.relayed (24 + ll) kind.toNat n b.barge b.time
  | .delayMeasurement n rtt b => s.delayMeasured n rtt b
  | .laneAligned x => s.laneAligned x.lane x.symbols
  | .laneAbsent n => s.laneAbsent n
  | .backoffExpiry n => s.backoffEnd n
  | .helloReceived n b => s.helloReceived n b
  | .reportReceived n b => s.reportReceived n b
  | .reachSettled n => s.reachSettled n
  | .enumRetry n => s.enumRetry n
  | .stepIssue p wait => s.stepIssue p wait
  | .stepTime p => s.stepTime p
  | .eqReqReceived n b => s.eqReqReceived n b
  | .eqRspReceived n b eye pre post => s.eqRspReceived n b eye pre post
  | .confirm p => s.confirm p
  | .stepRevert p => s.stepRevert p
  | .hopRejoin n ok => s.hopRejoin n ok
  | .laneLost n x => s.laneLost n (x.cause + 1) x.symbols
  | .towpathKeepaliveSend => s.keepAliveSend
  | .towpathFrameReceived p f => s.towpathFrame p f
  | .towpathLost p => s.towpathLost p
  | .prechargeTimeout p => s.prechargeTimeout p
  | .stoppingEnd p => s.stoppingEnd p
  | .bypassTimeout g => s.bypassTimeout g
  | .rejoinTimeout g => s.rejoinTimeout g
  | .outTimeout p => s.outTimeout p
  | .shutdownRampEnd => s.shutdownEnd
  | .sluiceCellTimeout g => s.sluiceCellTimeout g
  | .recordReady ok => s.recordReady ok
  | .attestReady ok => s.attestReady ok
  | .fineResult n xs => s.fineResult n xs
  | .inputState c st => s.inputState c st
  | .calSliceStep gain ofs => s.calStep gain ofs
  | .pwmPeriodBoundary grp blank => s.pwmWrap grp blank
  | .tripInAsserted n low => s.tripPin n low
  | .comparatorAsserted c hi lo blanked => s.cmpChange c hi lo blanked
  | .comparatorResolved c hi on blanked => s.cmpResolve c hi on blanked
  | .auxFaultIn dr asserted => s.auxFaultIn dr asserted
  | .auxDecision dr xs => s.auxDecision dr xs
  | .auxProbeSet dr xs => s.probeSet dr xs
  | .auxAlignDone dr => s.alignDone dr
  | .auxCoastEnd dr => s.coastEnd dr
  | .recatchReset dr => s.recatchReset dr
  | .portDown port cause => s.portDown port (cause + 1)
  | .portUp port => s.portUp port
  | .ethernetFrameReceived port bytes fcs x => s.frameIn port bytes fcs x
  | .ptpMessageReceived t port m x y => s.ptp t port m x y
  | .announceTimeout t kind => s.masterLost t kind
  | .holdoverTimeout t => s.holdoverEnd t
  | .revertTimer => s.revert
  | .slewDone => s.slewDone
  | .frameLaunch q x0 x1 => s.launch q fun p => if p = 0 then x0 else x1
  | .partnerClaimAsserted => s.partnerAsserted
  | .claimAssert => s.claimAssert
  | .gateOpen => s.gateOpens
  | .claimContestedTimeout => s.contestedTimeout
  | .claimKeeperExpired => s.keeperExpired
  | .startTExpiry => s.startExpiry
  | .heartbeatReceived bytes => s.heartbeatIn bytes
  | .noticeReceived bytes => s.noticeIn bytes
  | .mirrorReceived bytes => s.mirrorIn bytes
  | .healthReceived bytes => s.healthIn bytes
  | .roleSwapRun => s.swapRun
  | .roleSwapDone => s.swapDone
  | .faultSourceAsserted src inst pair addr master access =>
      s.sourceSeen src inst.toNat pair { addr := addr.toNat, master := master.toNat, access := access.toNat }
  | .faultSignalPairBroken src => s.pairBroken src
  | .faultCollectorIntegrity => s.integrity
  | .shadowEnd blk => s.shadowEnd blk
  | .powerTransitionDone => s.transitionDone
  | .towpathEntryHoldDone => s.towpathSteps
  | .pcieLinkDown => s.linkDown
  | .pcieLinkUp => s.linkUps
  | .d3hotEntry => s.d3hot
  | .d0Return => s.d0
  | .busMasterEnableSet => s.bmeSet
  | .perstRelease => s.perstRelease
  | .stepReceived n b => s.stepReceived n b
  | .confirmReceived n b => s.confirmReceived n b
  | .delayReqReceived n turn b => s.delayReq n turn b
  | .copyReceived bytes => s.copyIn bytes
  | .partnerClaimDeasserted => s.partnerDeasserted
  | .jtagImageReceived image bad => s.jtagImage image bad
  | .jtagDbgUnlock ops resp => s.jtagUnlock ops resp
  | .jtagDbgAccess a write v => s.jtagAccess a.toNat write v
  | .captureWindowEnd => s.captureWindowEnd
  | .ptpDelayReqSend t x => s.delaySend t x
  | .fastPathResult x => s.fastResult x
  | .bootReferenceFound k => s.refFound k

end Sys2Proof.Machine
end

