-- ==== Sys2Proof/Certificates/Slice0/Obligations.lean ====
section
/-! DEFINITION. The statements for the provers. A result statement says the state a command leaves as an equation: what
is not written there is unchanged, and `settle` adds what follows at once; on a state from which nothing follows
`settle` changes nothing (QuietStateIsLeftAlone). -/

set_option Elab.async false

open Sys2Proof Sys2Proof.Machine

/-! ### The machine -/

/-- A step runs the command at the front of the queue with the queue's rest. -/
def Obligations.StepRunsFrontCommand : Prop :=
  ∀ (c : Instr) (s : State), step { s with pending := c :: s.pending } = exec c s

/-- On an empty queue the local counter counts one tick while it is powered and its rail is in range (R340); that a
step on an empty queue is a tick is the model's choice (log entry 1). -/
def Obligations.EmptyQueueIsOneTick : Prop :=
  ∀ s : State, s.pending = [] →
    (s.sys.feeds ≠ 0 → s.sys.railsOk.getLsbD 0 = true →
      step s = .next { s with tsn := { s.tsn with local_ := s.tsn.local_ + 1 } })
    ∧ ((s.sys.feeds = 0 ∨ s.sys.railsOk.getLsbD 0 = false) → step s = .next s)

/-- Nothing is added to a state from which nothing follows at once, the state after reset among them; the machine
after reset is in canonical form, and its queue is empty. -/
def Obligations.QuietStateIsLeftAlone : Prop :=
  ((∀ s : State, s.quiet = true → s.settle = s) ∧ State.reset.quiet = true)
  ∧ (State.reset.Inv ∧ State.reset.pending = [])

/-- Every command and every tick completes: no command faults and none is refused. -/
def Obligations.EveryStepCompletes : Prop :=
 ∀ s : State, ∃ t, step s = .next t

/-- Every command runs to its end: out of reset, and for what stays powered in reset too (R50, R82), exec answers the
next state, that of the command's own effect and of what follows from it at once (`State.effect` names the effect for
each row of the opcode table). -/
def Obligations.EveryCommandHasItsEffect : Prop :=
  ∀ (c : Instr) (s : State), s.collects = true ∨ actsInReset c = true → exec c s = .next (s.effect c).settle

/-- A step takes exactly one command off the queue, the one at its front, and adds none. -/
def Obligations.StepTakesOneCommand : Prop :=
  ∀ s t : State, step s = .next t → t.pending = s.pending.tail

/-- Registers and descriptor banks stay in canonical form whatever a step does. -/
def Obligations.StepKeepsCanonicalForm : Prop :=
  ∀ s t : State, s.Inv → step s = .next t → t.Inv

/-- The local counter never goes back (R340): only a power-on reset starts it anew, released by its own command or
brought by the loss of the last always-on feed (R51). -/
def Obligations.LocalCounterNeverGoesBack : Prop :=
  ∀ (c : Instr) (s t : State), startsAnew c = false → exec c s = .next t → s.tsn.local_ ≤ t.tsn.local_

/-- While the main domains are held in reset (R50, R82) every command but those of what stays powered and the start of
boot leaves the state as it is, and with no boundary scan the outputs are as Table 2.4 has them in reset, a pull-up
holding its pin while its rail is in range (R36, R38); in safety SAFE `SAFE_N` and `READY` are released in every
column (R40). -/
def Obligations.ResetHoldsTheMainDomains : Prop :=
  (∀ (c : Instr) (s : State), s.collects = false → actsInReset c = false → exec c s = .next s)
  ∧ (∀ s : State, s.collects = false → s.sec.scan = false →
      s.claimN = .released ∧ s.safeN = .hiZPd ∧ s.readyPin = .hiZPd ∧ s.optPwrEn = .hiZPd ∧ s.syncPin = .hiZPd ∧
      s.bsClk = .hiZPd ∧ s.qspiCs = s.pulledUp 3 ∧ s.qspiBus = .hiZPd ∧ (∀ n, s.laneTx n = .electricalIdle) ∧
      (∀ p, s.tpTx p = .hiZPd) ∧ (∀ p, s.ethTxdis p = s.pulledUp 4) ∧ (∀ b, s.tdo b = .hiZ) ∧
      (∀ r, s.pulledUp r = if s.sys.railsOk.getLsbD r = true then .hiZPu else .hiZ))
  ∧ (∀ s : State, s.isSafe = true → s.sec.scan = false → s.safeN = .hiZPd ∧ s.readyPin = .hiZPd)

/-- Values after reset that the register tables give (R13), in every block. -/
def Obligations.ResetHasTheTablesValues : Prop :=
  State.reset.rd R.SYS_CYCLE_PERIOD = 3000 ∧ State.reset.rd R.SYS_PWR_STAT_STATE = 0 ∧ State.reset.rd R.CLK_REF_CTL_QUAL = 10 ∧
  State.reset.rd R.CLK_SLEW_MAX_RATE = 100 ∧ (∀ r : RingIx, State.reset.rd (R.HST_RING_CTL_SIZE_LOG2 r) = 4 ∧
    State.reset.is (R.HST_RING_CTL_ENABLE r) = false ∧ State.reset.is (R.HST_RING_STATE_QUIESCED r) = true) ∧
  (∀ n : Fin 28, State.reset.rd (R.CNL_LANE_STAT_CAP_RATE n) = 3 ∧ State.reset.laneState n = .off) ∧
  State.reset.rd R.CELL_CARRIER_PERIOD = 250000 ∧ State.reset.rd R.CELL_TIMING_MISS_N = 16 ∧
  State.reset.rd R.NRG_DEFER_TMO = 1000 ∧ State.reset.rd R.MTR_CAL_STAT_SLICE = 0x3F ∧ State.reset.rd R.RED_CMP_TOL = 32 ∧
  State.reset.rd R.FLT_CTL_COAL_W = 8 ∧ State.reset.rd R.FLT_STAT_SAFETY = 0 ∧ State.reset.rd R.SEC_IMG_STAT_REASON_P = 7 ∧
  State.reset.rd R.RED_STAT_CLAIM = 0 ∧ (∀ d : Fin 4, State.reset.driveState d = .stopped)

/-! ### Registers -/

/-- Register fields are independent: a field reads back what was written, taken modulo its width; every field that
shares no bit with it reads as before. -/
def Obligations.FieldsAreIndependent : Prop :=
  ∀ (s : State) (f g : Fld) (v : Nat), s.regsWf = true → f.fits →
    (s.wr f v).rd f = v % 2 ^ f.width ∧ (f.apart g → (s.wr f v).rd g = s.rd g)

/-- What a write leaves in a register, bit by bit (R9, R12): a read-only or write-only field keeps its bits, a field
that is written takes the word's bits where its encoding is not reserved and keeps its own where it is, a field locked
by the settings lock keeps its bits, and a write of 1 clears a bit of a field that is cleared so. -/
def Obligations.WriteObeysAccessCodes : Prop :=
  ∀ (s : State) (off i : Nat) (w : Word) (unlocked : Bool) (d : RegDef) (f : FieldDef) (j : Nat) (a : Written),
    regAt off = some (d, i) → f ∈ d.fields → j < f.width →
    a = d.fields.foldl (s.writeField off w unlocked false) { word := s.reg off } →
    ∀ good, good = (f.legal.ok ((Fld.mk off f.lsb f.width).get w) && s.legalHere off f.lsb w) →
    a.word.getLsbD (f.lsb + j) = (match f.access with
      | .ro | .wo => (s.reg off).getLsbD (f.lsb + j)
      | .rw => if good then w.getLsbD (f.lsb + j) else (s.reg off).getLsbD (f.lsb + j)
      | .rwl => if good && unlocked then w.getLsbD (f.lsb + j) else (s.reg off).getLsbD (f.lsb + j)
      | .w1c => (s.reg off).getLsbD (f.lsb + j) && !w.getLsbD (f.lsb + j))
    ∧ (f.access = .rw → good = false → a.reserved = true)

/-- REGISTER_WRITE (R8): a 32-bit write of a register that decodes and starts nothing is a write of its fields, in
every block; 64 bits are two writes, the lower address first, whatever each does; with bytes not enabled, at an
address that is not a multiple of 4, or where nothing decodes, it is an undecoded access, logged once boot is DONE. A
read of 4 bytes returns what the register shows, of 8 bytes that of two; one of another size or alignment returns 0
and is undecoded. -/
def Obligations.HostWritesReachRegisters : Prop :=
  ∀ (s w : State) (a : BitVec 20) (v : BitVec 64) (e : BitVec 8), s.collects = true → w = s.wakeLink byHost →
    (a.toNat % 4 = 0 → e.toNat % 16 = 15 → plainReg a.toNat = true → s.decodes a.toNat = true →
      exec (.registerWrite a v e .write32) s = .next (s.written a.toNat (v.setWidth 32)).settle)
    ∧ (a.toNat % 4 ≠ 0 ∨ e.toNat % 16 ≠ 15 ∨ (plainReg a.toNat = true ∧ s.decodes a.toNat = false) →
      (s.bootDone = true → exec (.registerWrite a v e .write32) s =
        .next (w.raiseWith 0x000 0 { addr := a.toNat, master := 0, access := 2 }).settle)
      ∧ (s.bootDone = false → exec (.registerWrite a v e .write32) s = .next w.settle))
    ∧ (exec (.registerWrite a v e .write64) s = .next ((s.hostWord a.toNat (v.setWidth 32) e.toNat).hostWord (a.toNat + 4)
        ((v >>> 32).setWidth 32) (e.toNat / 16)).settle)
    ∧ (a.toNat % 4 = 0 → plainReg a.toNat = true → s.decodes a.toNat = true →
        exec (.registerWrite a v e (.read 4)) s = .next (w.emit (.readData a.toNat (w.regView a.toNat))).settle)
    ∧ (exec (.registerWrite a v e (.read 8)) s = .next ((s.hostReadWord a.toNat).hostReadWord (a.toNat + 4)).settle)
    ∧ (∀ n, (n ≠ 4 ∧ n ≠ 8) ∨ (n = 4 ∧ a.toNat % 4 ≠ 0) → s.bootDone = true → exec (.registerWrite a v e (.read n)) s =
        .next (State.emit (w.raiseWith 0x000 0 { addr := a.toNat, master := 0, access := 1 })
          (.readData a.toNat 0)).settle)

/-- What only notes something leaves every register, everything sent and the queue as they are; a write of a register
that starts nothing, stores no reserved encoding and meets no lock leaves every other register; a drive's cleared
count leaves every field that is not its own. Each where the state left is one from which nothing follows. -/
def Obligations.RestIsLeftAlone : Prop :=
  ∀ (s t : State), s.collects = true →
    (∀ c u, (c = .startTExpiry ∧ s.bootDone = true ∧ u = { s with red := { s.red with startT := true } }) ∨
        (c = .testLogicReset ∧ u = { s with sec := { s.sec with scan := false } }) ∨
        (∃ p : PoundIx, c = .outTimeout p ∧ u = s.outTimeout p) ∨ (∃ b, c = .mirrorReceived b ∧ u = s.mirrorIn b) ∨
        (∃ b, c = .copyReceived b ∧ u = s.copyIn b) ∨ (c = .pcieLinkDown ∧ u = { s with hst := { s.hst with linkUp := false } }) →
      u.quiet = true → exec c s = .next t → t = u ∧ t.regs = s.regs ∧ t.out = s.out ∧ t.pending = s.pending)
    ∧ (∀ (a : BitVec 20) (v : BitVec 64) (e : BitVec 8) d i x w u, plainReg a.toNat = true → a.toNat % 4 = 0 →
        e.toNat % 16 = 15 → s.decodes a.toNat = true → regAt a.toNat = some (d, i) →
        x = s.fusedBits a.toNat (v.setWidth 32) →
        w = d.fields.foldl (s.writeField a.toNat x (!s.locked) false) { word := s.reg a.toNat } →
        w.reserved = false → w.locked = false → u = s.written a.toNat (v.setWidth 32) → u.quiet = true →
        exec (.registerWrite a v e .write32) s = .next t →
        (∀ off, off ≠ a.toNat → t.reg off = s.reg off) ∧ t.out = s.out ∧ t.pending = s.pending)
    ∧ (∀ (d : Fin 4) u, s.driveState d = .running → u = (s.advanceByTicks ((s.drive d).since + 500000000)).wr
          (R.AUX_STAT_RECATCH_CNT d) 0 → u.quiet = true → exec (.recatchReset d) s = .next t →
        (s.regsWf = true → ∀ f : Fld, (R.AUX_STAT_RECATCH_CNT d).apart f → t.rd f = s.rd f)
          ∧ t.aux = s.aux ∧ t.out = s.out ∧ t.pending = s.pending)

/-- SYS_PWR_CTL_REQ, CYCLE_COMMIT, CLK_RETURN and CLK_UPDATE: what the written register starts (R26, R71, R74, R83).
-/
def Obligations.PowerAndClockRegistersAct : Prop :=
  ∀ (s u : State) (v : Word), s.collects = true →
    (s.decodes 0x40 = true → u = s.written 0x40 v →
      (∀ t, Power.ofReq (v.toNat % 8) = some t → u.sys.move = none → u.powerDetail t true = none →
        (t ≠ .off → u.power ≠ .towpath → exec (.sysPwrCtlReq v) s =
          .next ((u.setMove (some (.waitMark t))).wr R.SYS_PWR_STAT_LAST_STATUS 0).settle)
        ∧ (t ≠ .off → u.power = .towpath →
          exec (.sysPwrCtlReq v) s = .next (u.exitTowpath.wr R.SYS_PWR_STAT_LAST_STATUS 0).settle)
        ∧ (t = .off → exec (.sysPwrCtlReq v) s =
          .next (State.wr { u with sys := { u.sys with offAsked := true } } R.SYS_PWR_STAT_LAST_STATUS 0).settle))
      ∧ (∀ t det, Power.ofReq (v.toNat % 8) = some t → u.powerDetail t u.sys.move.isNone = some det →
        exec (.sysPwrCtlReq v) s = .next (u.wr R.SYS_PWR_STAT_LAST_STATUS 4).settle))
    ∧ (s.decodes 0x10 = true → u = s.written 0x10 (v ||| 0x80000000#32) →
      (u.cycleRefused (u.rd R.SYS_CYCLE_PERIOD) = none → exec (.cycleCommit v) s =
        .next (State.settle { u with sys := { u.sys with newPeriod := some (u.rd R.SYS_CYCLE_PERIOD) } }))
      ∧ (∀ c, u.cycleRefused (u.rd R.SYS_CYCLE_PERIOD) = some c → exec (.cycleCommit v) s =
        .next ((u.wrB R.SYS_CYCLE_STAT_REFUSED true).wr R.SYS_CYCLE_STAT_REFUSE_CODE c).settle))
    ∧ (s.decodes 0x4010 = true → u = s.written 0x4010 v → ∀ n : Fin 12,
        (clkLoops.filter fun n => v.getLsbD n) = [n.val] → u.onBackup n = true →
        (u.loopLocked n = true → exec (.clkReturn v) s =
          .next (State.settle { u with clk := { u.clk with returning := setBit u.clk.returning n true } }))
        ∧ (u.loopLocked n = false → exec (.clkReturn v) s = .next (u.inc R.CLK_FB_STAT_RET_REFUSED).settle))
    ∧ (s.decodes 0x4028 = true → u = s.written 0x4028 v → v.getLsbD 0 = true →
        u.is R.CLK_UPDATE_BUSY = false → u.onBackup 1 = false → u.clk.stopped = 0 → u.onBackup 9 = false →
        exec (.clkUpdate v) s = .next (State.wrB { u with clk := { u.clk with
          update := some (BitVec.ofNat 8 ((u.reg 0x4020).toNat % 256)) } } R.CLK_UPDATE_BUSY true).settle)

/-- SYS_RST and BLK_RST (R77, R78): a write of `SYS_RST_CTL` with its key resets the main domains, or one block
outside RUN; in RUN a block reset is refused; without the key the write is a reserved encoding; a main-domain reset
leaves every register outside the always-on domain at its reset value. SYS_OVERLAY_WRITE (R429): from no overlay in
force, PWM_MASKED asked for in a calm state is granted, takes every output to its off state and is reported; one that
Table 17.5 refuses is reported with its code and changes nothing else. -/
def Obligations.ResetsAndOverlaysAct : Prop :=
  (∀ (s u : State) (v : Word), s.collects = true → s.decodes 0x34 = true → u = s.written 0x34 v →
      (v.toNat / 65536 = 0xC1A5 → v.getLsbD 0 = true → v.getLsbD 1 = false →
        exec (.sysRst v) s = .next (u.resetMain.setCause false true false).settle)
      ∧ (∀ b, v.toNat / 65536 = 0xC1A5 → v.getLsbD 0 = false → v.getLsbD 1 = true → b = v.toNat / 256 % 16 →
          resettable b = true →
          (u.power ≠ .run → exec (.blkRst v) s =
            .next (((u.openShadow b).clearBlock b).setReg (R.FLT_ACTIVE b).off 0).settle)
          ∧ (u.power = .run → exec (.blkRst v) s = .next (u.wrB R.SYS_RESET_CAUSE_BLK_REFUSED true).settle))
      ∧ (v.toNat / 65536 ≠ 0xC1A5 →
          exec (.sysRst v) s = .next (u.raiseWith 0x002 0 { addr := 0x34, master := 0, access := 2 }).settle)
      ∧ (∀ off, aonRegs.contains off = false → u.clearMain.reg off = regReset off))
  ∧ (∀ (s u w : State) (v : Word), s.collects = true → s.decodes 0x50 = true → v = 1#32 → s.reg 0x50 = 0#32 →
      u = s.written 0x50 0#32 →
      (s.isSafe = false → (s.power = .hold ∨ s.power = .run) → s.grid = 0 → s.noDriveTurns = true →
        w = (u.setReg 0x50 1#32).pwmOffAll → exec (.sysOverlayWrite v) s = .next (w.overlayEvent 1 0).settle)
      ∧ (s.isSafe = true → w = ((u.setReg 0x50 0#32).wrB R.SYS_OVERLAY_REFUSED true).wr R.SYS_OVERLAY_REFUSE_CODE 1 →
          exec (.sysOverlayWrite v) s = .next (w.overlayEvent 1 1).settle))

/-- The descriptor banks (R205, R207) and SOE_SET (R248): a write of a word of an open bank is stored, voids the
bank's verification and makes one in progress fail; a write of a closed bank raises its fault; GO starts a
verification, and its end shows the verdict and checks again the commits that waited; an SOE waits for the next SAMPLE
mark. -/
def Obligations.BanksAreWrittenAndVerified : Prop :=
  ∀ (s u : State) (v : Word), s.collects = true → s.bootDone = true →
    (∀ (i : Fin 65536) b, b = i.val / 32768 → s.bankClosed b = true →
      exec (.bankDescriptorWrite i v) s = .next ((s.wakeLink byHost).raise 0x043 0).settle)
    ∧ (∀ (i : Fin 65536) b m, b = i.val / 32768 → s.bankClosed b = false →
        m = SMap.put (fun _ => 0) s.loop.words (0x40000 + 4 * i) v →
        u = { s.wakeLink byHost with loop := { s.loop with
          words := m, verifying := s.loop.verifying.map fun w => w || decide (b = s.loop.verifyBank) } } →
        exec (.bankDescriptorWrite i v) s =
          .next ((u.setBankInfo b { u.bankInfo b with verified := false, digest := 0 }).showBanks).settle)
    ∧ (u = s.written 0x20004 1#32 → u.is R.LOOP_BANK_STAT_VERIFY_BUSY = false →
        exec .loopVerifyGo s = .next (State.wrB { u with loop := { u.loop with
          verifying := some false, verifyBank := u.stagedBank } } R.LOOP_BANK_STAT_VERIFY_BUSY true).settle)
    ∧ (s.loop.verifying.isSome = true →
        exec .bankVerified s = .next (s.verifyEnd.retryAll 0x30 (fun _ => true) ownCommitLater).settle)
    ∧ (∀ i : Fin 16, u = s.written (0x2C21C + 0x20 * i) v → exec (.soeSet i v) s =
        .next (State.settle { u with nrg := { u.nrg with soeSet := u.nrg.soeSet ++ [(i.val, v.toNat)] } }))

/-- PWM and comparator registers (R292, R295, R296, R298, R310, R311): a load arms at a running group and is taken at
once by a stopped one; EN 0 stops a running group at once; a staged period keeps the other bits of its register, a
duty is for channels whose SRC is HOST, and LATE shows at each that met the load; a latch is released where its
comparator asserts no more; re-arming starts an escalated channel anew, and is refused while "comparator trip
persistent" is latched. -/
def Obligations.SwitchingRegistersAct : Prop :=
  ∀ (s u : State) (v : Word), s.collects = true →
    (∀ g : Fin 8, s.decodes 0x34000 = true → u = s.written 0x34000 v →
      ((List.range 8).filter fun g => v.getLsbD g) = [g.val] →
      exec (.pwmLoad v) s =
        .next (if u.pwmRuns g then u.wrB (R.PWM_GRP_STAT_ARMED g) true else u.loadGroup g).settle)
    ∧ (∀ g : Fin 8, s.decodes (0x34100 + 0x10 * g) = true → u = s.written (0x34100 + 0x10 * g) v →
        (u.is (R.PWM_GRP_CTL_EN g) = true → exec (.pwmGrpEnable g v) s = .next u.settle)
        ∧ (∀ w, u.is (R.PWM_GRP_CTL_EN g) = false → u.pwmRuns g = true → w = u.wrB (R.PWM_GRP_STAT_RUNNING g) false →
          exec (.pwmGrpEnable g v) s =
            .next ((if w.is (R.PWM_GRP_STAT_ARMED g) then w.loadGroup g else w).showGroup g).settle))
    ∧ (∀ (g : Fin 8) late, s.decodes (R.PWM_GRP_CTL_PERIOD g).off = true →
        u = s.written (R.PWM_GRP_CTL_PERIOD g).off
          ((R.PWM_GRP_CTL_PERIOD g).put (s.reg (R.PWM_GRP_CTL_PERIOD g).off) v.toNat) →
        exec (.pwmStagedWrite (.period g) v late) s =
          .next (if late then u.wrB (R.PWM_GRP_STAT_LATE g) true else u).settle)
    ∧ (∀ (n : Fin 48) late, s.decodes (R.PWM_CH_DUTY_DUTY n).off = true →
        (s.rd (R.PWM_CH_CFG_SRC n) = 0 → u = s.written (R.PWM_CH_DUTY_DUTY n).off v →
          exec (.pwmStagedWrite (.duty n) v late) s =
            .next (if late then u.wrB (R.PWM_CH_STAT_LATE n) true else u).settle)
        ∧ (s.rd (R.PWM_CH_CFG_SRC n) ≠ 0 →
          exec (.pwmStagedWrite (.duty n) v late) s = .next (s.wakeLink byHost).settle))
    ∧ (∀ (n : Fin 48) late, s.decodes (R.PWM_CH_PHASE_PHASE n).off = true →
        u = s.written (R.PWM_CH_PHASE_PHASE n).off v →
        exec (.pwmStagedWrite (.phase n) v late) s =
          .next (if late then u.wrB (R.PWM_CH_STAT_LATE n) true else u).settle)
    ∧ (∀ high a, a = (if high then 0x3601C else 0x36018) → s.decodes a = true → u = s.written a v →
        (u.latched 0x0E2 = true → exec (.cmpRearm high v) s = .next u.settle)
        ∧ (∀ i c w x, u.latched 0x0E2 = false → c = (if high then 32 else 0) + i →
            ((List.range 32).filter fun i => v.getLsbD i && u.is (R.CMP_CH_STAT_ESCALATED
              ((if high then 32 else 0) + i))) = [i] →
            w = (u.wrB (R.CMP_CH_STAT_ESCALATED c) false).wr (R.CMP_CH_STAT_PERSIST_CNT c) 0 →
            x = (((w.wrB (cmpUnres c true) true).wrB (cmpRaw c true) false).wrB (cmpUnres c false) true).wrB (cmpRaw c false) false →
            exec (.cmpRearm high v) s = .next (x.showCmp [c]).settle))
    ∧ (∀ (c : Fin 64) w, s.decodes (0x3610C + 0x10 * c) = true → w = s.wakeLink byHost → v = 2#32 →
        (w.is (cmpRaw c true) = false →
          exec (.cmpLatchReleaseWrite c v false) s = .next ((w.wrB (cmpLatch c true) false).showCmp [c.val]).settle)
        ∧ (w.is (cmpRaw c true) = true → exec (.cmpLatchReleaseWrite c v false) s = .next (w.showCmp [c.val]).settle))

/-- Registers of metering, lanes, time and faults: what the written register starts, and what a captured read holds
(R127, R281, R283, R286, R342, R356, R392, R393). DIAG_DONE (R286): the quotient of the two means at a LEVEL, its
verdict, and the event; the channel's results stay marked for 16 fine results more. -/
def Obligations.ServiceRegistersAct : Prop :=
  (∀ (s u : State) (v : Word), s.collects = true →
      (s.decodes 0x30010 = true → u = s.written 0x30010 (v ||| 0x80000000#32) → u.mtr.diag = none →
        u.is R.MTR_DIAG_RES_WAITING = false →
        (u.is R.SYS_OVERLAY_MTR_TESTDAC = false → exec (.mtrDiagGo v) s = .next (u.wr R.MTR_DIAG_RES_VERDICT 3).settle)
        ∧ (∀ c w, u.is R.SYS_OVERLAY_MTR_TESTDAC = true → c = u.rd R.MTR_DIAG_CH → c < 40 →
          w = u.wrB (R.MTR_CH_STAT_INJECTED c) true →
          (u.mtr.calStep ≠ 3 → exec (.mtrDiagGo v) s = .next (w.diagStart c).settle)
          ∧ (u.mtr.calStep = 3 → exec (.mtrDiagGo v) s = .next (State.wrB { w with mtr := { w.mtr with waiting := some c } }
              R.MTR_DIAG_RES_WAITING true).settle)))
      ∧ (∀ t : Fin 32, s.decodes 0x30018 = true → u = s.written 0x30018 v →
          ((List.range 32).filter fun t => v.getLsbD t && u.is (R.MTR_TRK_CFG_EN t)) = [t.val] →
          exec (.mtrTrkClear v) s = .next (u.closeTracker t).settle)
      ∧ (∀ n : Fin 28, s.decodes (0x10000 + 0x40 * n) = true →
          u = s.written (0x10000 + 0x40 * n) (v ||| 0x08000000#32) →
          exec (.laneRestart n v) s = .next (u.restartLane n).settle)
      ∧ (s.decodes 0x3A010 = true → u = (s.wakeLink byHost).captureNow →
          exec .tsnNowCapture s = .next (u.emit (.readData 0x3A010 (u.regView 0x3A010))).settle)
      ∧ (∀ a : Fin 64, s.decodes (0x31000 + 0x20 * a) = true → u = (s.wakeLink byHost).captureAcc a →
          exec (.accumulatorCapture a) s =
            .next (u.emit (.readData (0x31000 + 0x20 * a) (u.regView (0x31000 + 0x20 * a)))).settle)
      ∧ (s.decodes 0x3E000 = true → u = s.written 0x3E000 (v ||| 0x80000000#32) →
          exec (.fltRearm v) s = .next u.rearm.settle)
      ∧ (s.decodes 0x3E040 = true → u = s.written 0x3E040 v → exec (.fltLogIdxWrite v) s = .next u.logCopy.settle)
      ∧ (s.regsWf = true → s.captureNow.rd R.TSN_NOW_LO = s.plantNs % 2 ^ 32
          ∧ s.captureNow.rd R.TSN_LOCAL_LO = s.tsn.local_ % 2 ^ 32))
  ∧ (∀ (s u w : State) (m1 m2 : F32) (c k : Nat), s.collects = true → s.mtr.diag = some c → s.rd R.MTR_DIAG_LEVEL ≠ 0 →
      u = (s.fresh 16).2 →
      k = (max 0 (min 65535 (roundRat ((fRat m1 - fRat m2) * 65536 * 4095 / (4 * (s.rd R.MTR_DIAG_LEVEL : Rat)))))).toNat →
      w = (((({ u with mtr := { u.mtr with diag := none, injected := some (c, 16) } } : State).wr R.MTR_DIAG_RES_K k).wr
        R.MTR_DIAG_RES_VERDICT (if 32768 ≤ k then 2 else 1)).wrB R.MTR_DIAG_RES_BUSY false) →
      exec (.diagDone m1 m2) s =
        .next (w.event 5 3 [(16, 1, c), (17, 1, if 32768 ≤ k then 2 else 1), (18, 2, k)]).settle)

/-! ### Ring commands -/

/-- The checks of R102 in their order: opcode, form, permission, mode; each failure completes the command and nothing
else of it happens. -/
def Obligations.RingChecksInOrder : Prop :=
  ∀ (c : Instr) (s : State) (op : Nat) (r : RingIx) (d : Desc) (resp : Bytes) (fmt : Format) (own : Owner),
    ringRow c = some (op, r, d, resp) → rowOf op resp = (fmt, own) → s.comesUp r d →
    (d.opcode.toNat ≠ op → exec c s = .next (s.completed (s.taken r) r d (vBad 6)))
    ∧ (d.opcode.toNat = op → d.flagsOk = false → exec c s = .next (s.completed (s.taken r) r d (vBad 5)))
    ∧ (∀ det, d.opcode.toNat = op → d.flagsOk = true → fmt (s.taken r) d = some det →
        exec c s = .next (s.completed (s.taken r) r d (vBad det)))
    ∧ (d.opcode.toNat = op → d.flagsOk = true → fmt (s.taken r) d = none → (s.taken r).permitted r op = false →
        exec c s = .next (s.completed (s.taken r) r d { status := .auth }))
    ∧ (∀ det, d.opcode.toNat = op → d.flagsOk = true → fmt (s.taken r) d = none → (s.taken r).permitted r op = true →
        (s.taken r).modeRefusal d = some det → exec c s = .next (s.completed (s.taken r) r d (vMode det)))

/-- Refusals by mode (R427, R428, Table 17.3), first axis first: what SAFE refuses with DETAIL 0x0003, the backup
clock with 0x000F, HOLD and TOWPATH with 0x000D, RETIRED with 0x000E, a STANDBY with 0x0004 and a host-loss plan with
0x0002; HEARTBEAT and HOST_RESUME are refused by nothing. -/
def Obligations.ModesRefuseInOrder : Prop :=
  ∀ (s : State) (d : Desc) op, op = d.opcode.toNat → op ≠ 0x02 →
    (s.isSafe = true → (op ∈ [0x10, 0x20, 0x21, 0x40, 0x60] ∨ (op = 0x42 ∧ d.le 6 1 ≠ 0) ∨ (op = 0x50 ∧ d.le 4 1 ≠ 1)) →
      s.modeRefusal d = some 3)
    ∧ (s.isSafe = false → s.onBackup 0 = true → op ∉ [0x01, 0x03, 0x70, 0x91] → s.modeRefusal d = some 0xF)
    ∧ (s.isSafe = false → s.onBackup 0 = false →
        (s.power = .hold → (op ∈ [0x40, 0x60] ∨ (op = 0x10 ∧ d.le 4 1 ≠ 0) ∨ (op = 0x42 ∧ d.le 6 1 ≠ 0) ∨
            (op = 0x50 ∧ d.le 4 1 ≠ 1)) → s.modeRefusal d = some 0xD)
        ∧ (s.power = .towpath → op ∉ [0x01, 0x03, 0x61, 0x70, 0x90, 0x91] → s.modeRefusal d = some 0xD)
        ∧ (s.power = .run → s.rd R.SEC_LC_STATE = 3 → op ∈ [0x51, 0x90] → s.modeRefusal d = some 0xE)
        ∧ (s.power = .run → s.rd R.SEC_LC_STATE ≠ 3 → s.role = .standby →
            op ∉ [0x01, 0x03, 0x51, 0x70, 0x90, 0x91] → s.modeRefusal d = some 4)
        ∧ (s.power = .run → s.rd R.SEC_LC_STATE ≠ 3 → s.role ≠ .standby → s.planActive = true → op ∉ [0x01, 0x03] →
            s.modeRefusal d = some 2)
        ∧ (s.power = .run → s.rd R.SEC_LC_STATE ≠ 3 → s.role ≠ .standby → s.planActive = false → op ∉ [0x40, 0x60] →
            s.modeRefusal d = none))
    ∧ (op ∈ [0x01, 0x03] → s.modeRefusal d = none)

/-- Step 4 of R102: the owner of the row decides; a final outcome completes, an outcome that is kept completes and
enters the kept-command table, and the 65th is BUSY and has no effect (R103). -/
def Obligations.OwnerDecidesLast : Prop :=
  ∀ (c : Instr) (s t : State) (op : Nat) (r : RingIx) (d : Desc) (resp : Bytes) (fmt : Format) (own : Owner) (v : Verdict),
    ringRow c = some (op, r, d, resp) → rowOf op resp = (fmt, own) → s.passes op fmt r d →
    own (s.cmdOf r d) (s.taken r) = (t, v) →
    (v.status.keeps = false → exec c s = .next (s.completed t r d v))
    ∧ (v.status.keeps = true → 64 ≤ s.hst.kept.length → exec c s = .next (s.completed (s.taken r) r d (vBusy 9)))
    ∧ (v.status.keeps = true → s.hst.kept.length < 64 →
        exec c s = .next (s.completed
          (t.keep (s.keptEntry r d (decide (v.status = .deferred)))).showKept r d v))

/-- A descriptor with FENCE, or one behind it in its ring, waits unchecked while a command fetched before it has no
final completion (R104), and one waits while a command ring that goes before its own has fetched descriptors (R28). -/
def Obligations.FenceHoldsACommand : Prop :=
  ∀ (c : Instr) (s : State) (op : Nat) (r : RingIx) (d : Desc) (resp : Bytes),
    ringRow c = some (op, r, d, resp) → s.collects = true → r.val < 4 → s.hasDesc r = true →
    ((s.taken r).ringWaits r s.hst.fetchSeq = true ∨ (d.fence = true ∧ (s.taken r).fenced s.hst.fetchSeq = true) ∨
      (s.taken r).lowerWaits r = true) →
    exec c s = .next (State.settle { s.taken r with hst := { (s.taken r).hst with
      held := (s.taken r).hst.held ++ [s.heldEntry r op d resp] } })

/-- HEARTBEAT arms and restarts the watchdog (R118); HOST_RESUME with no plan active is OK and does nothing, and on
`CMDQ0` it ends an active plan, clears its cause of SAFE and queues the event (R120). POWER_STATE (R83): a granted OFF
acts at once, a granted change from TOWPATH starts at once, any other granted change waits for the next SAMPLE mark,
LAST_STATUS takes the code and the completion is OK; one that R83 refuses is REJECTED_MODE with the DETAIL of the
first axis, in LAST_STATUS too. -/
def Obligations.HeartbeatsAndPowerRequests : Prop :=
  (∀ (s : State) (r : RingIx) (d : Desc),
      (s.passes 0x01 fmtNone r d → exec (.heartbeat r d) s = .next (s.completed
        ({ s.taken r with hst := { (s.taken r).hst with armed := true, warned := false } }).showWatch r d vOk))
      ∧ (s.passes 0x03 fmtNone r d → (s.taken r).planActive = false →
          exec (.hostResume r d) s = .next (s.completed (s.taken r) r d vOk))
      ∧ (s.passes 0x03 fmtNone r d → (s.taken r).planActive = true → r.val = 0 →
          exec (.hostResume r d) s = .next (s.completed
            (((({ s.taken r with hst := { (s.taken r).hst with plan := none, warned := false } }).wrBit
              R.FLT_SAFE_CAUSE_CAUSE 2 false).showWatch).event 0 7
                [(16, 1, (s.taken r).rd R.HST_WATCH_STAT_STATE)]) r d vOk)))
  ∧ (∀ (s : State) (r : RingIx) (d : Desc) (t : Power), s.passes 0x02 fmtPower r d → Power.ofReq (d.le 4 1) = some t →
      ∀ u, u = s.taken r →
      u.sys.move = none → u.powerDetail t true = none →
      (t = .off → exec (.powerState r d) s = .next (s.completed
          (({ u with sys := { u.sys with offAsked := true } }).wr R.SYS_PWR_STAT_LAST_STATUS 0) r d vOk))
      ∧ (t ≠ .off → u.power = .towpath → exec (.powerState r d) s = .next (s.completed
          (u.exitTowpath.wr R.SYS_PWR_STAT_LAST_STATUS 0) r d vOk))
      ∧ (t ≠ .off → u.power ≠ .towpath → exec (.powerState r d) s = .next (s.completed
          ((u.setMove (some (.waitMark t))).wr R.SYS_PWR_STAT_LAST_STATUS 0) r d vOk)))
  ∧ (∀ (s : State) (r : RingIx) (d : Desc) (t : Power) (det : Nat), s.passes 0x02 fmtPower r d →
      Power.ofReq (d.le 4 1) = some t → (s.taken r).powerDetail t (s.taken r).sys.move.isNone = some det →
      exec (.powerState r d) s =
        .next (s.completed ((s.taken r).wr R.SYS_PWR_STAT_LAST_STATUS 4) r d (vMode det)))

/-- GRID_MODE (R239): the mode in force asks for nothing; a change of mode, or a departure from IDLE that every
condition of Table 8.10 lets through, is queued for the next SAMPLE mark and supersedes older kept commands.
ENERGY_DIR (R251): BOTH is always admitted; CHARGE and DISCHARGE are refused with DETAIL 0x0402 while a string or
power set-point of the other sign stands, and else admitted; an admitted direction waits for the next SAMPLE mark. -/
def Obligations.GridModesAndDirections : Prop :=
  (∀ (s : State) (r : RingIx) (d : Desc), s.passes 0x10 fmtGrid r d →
      ∀ u, u = s.taken r →
      ∀ t, t = d.le 4 1 →
      ∀ q, q = (u.supersedeOlder (s.cmdOf r d) d.opcode.toNat (fun _ => true)).queueDue d 0 →
      u.shutting = false → u.cell.blend = none → (u.grid = 0 ∨ u.gridSoon ≠ 0) →
      (t = u.gridSoon → exec (.gridMode r d) s = .next (s.completed u r d vOk))
      ∧ (t ≠ u.gridSoon → u.gridSoon ≠ 0 → gridAllowed u.gridSoon t = true → u.vpkAllows u.gridSoon t = true →
          exec (.gridMode r d) s = .next (s.completed q r d vOk))
      ∧ (u.gridSoon = 0 → t ≠ 0 → u.gridSlots = true → ([0, 1, 2].all fun l => u.rd (R.CELL_LEG_CTL_N_NEED l) ≠ 0) = true →
          ([0, 1, 2].any u.legRefuses) = false → u.vpkAllows 0 t = true → u.rd R.NRG_STAT_SLUICE = 0 →
          ∀ v, u.admission none (fun _ => { Ask.nothing with act := fun g => u.soonRole g = .ready }) 0 0 false = v →
            v.status.done = true → exec (.gridMode r d) s = .next (s.completed q r d v)))
  ∧ (∀ (s : State) (r : RingIx) (d : Desc), s.passes 0x11 fmtDir r d →
      ∀ u, u = s.taken r →
      ∀ t, t = d.le 4 1 →
      ∀ strings powers, strings = (List.range 16).map u.stringSetpoint → powers = u.powerSetpoints.map (·.2) →
      ∀ against : Prop, (against ↔ (t = 0 ∧ ((strings.any fun v => fLt v 0#32) = true ∨ (powers.any fun v => fLt 0#32 v) = true))
        ∨ (t = 1 ∧ ((strings.any fun v => fLt 0#32 v) = true ∨ (powers.any fun v => fLt v 0#32) = true))) →
      (against → exec (.energyDir r d) s = .next (s.completed u r d (vMode 0x0402)))
      ∧ (¬ against → exec (.energyDir r d) s = .next (s.completed
          ((u.supersedeOlder (s.cmdOf r d) d.opcode.toNat fun _ => true).queueDue d 0) r d vOk)))

/-- SETPOINT of a slot in no energy class is admitted as asked and staged for its slot (R216, R258); STRING_SETPOINT
within the string's limits does the same, and ends the string's guards (R252). BANK_COMMIT of the verified, idle bank
whose digest and schedule fit is accepted for the next SAMPLE mark (R207). -/
def Obligations.SetpointsAndBanks : Prop :=
  (∀ (s : State) (r : RingIx) (d : Desc),
      ∀ u, u = s.taken r →
      ∀ v, v = opF32 d 8 →
      (s.passes 0x20 fmtSetpoint r d → u.slotClass (d.le 4 2) = (0, 0) →
        exec (.setpoint r d) s = .next (s.completed
          ((u.supersedeOlder (s.cmdOf r d) 0x20 fun x => x.le 4 2 = d.le 4 2).stageSetpoint (d.le 4 2) v)
          r d { status := .ok, value := v }))
      ∧ (∀ i slot w, s.passes 0x21 fmtString r d → i = d.le 4 1 → slot = u.rd R.NRG_OUT_OUT_BASE + i →
          u.basinOut = true → u.rd R.NRG_CTL_DIR = 2 → u.stringTest i v = true →
          fLe (fAbs v) (u.f32 (R.NRG_STR_IMAX i)) = true →
          w = u.supersedeOlder (s.cmdOf r d) 0x21 (fun x => x.le 4 1 = i) →
          exec (.stringSetpoint r d) s = .next (s.completed
            (((({ w with loop := { w.loop with staged := w.loop.staged ++ [(slot, v)] } }).wrB (R.NRG_STR_STAT_GUARD i)
              false).wrB (R.NRG_STR_STAT_TOP i) false).showGuard) r d { status := .ok, value := v })))
  ∧ (∀ (s : State) (r : RingIx) (d : Desc), s.passes 0x30 fmtCommit r d →
      ∀ u, u = s.taken r →
      ∀ b, b = d.le 4 1 →
      b ≠ u.bank → u.loop.verifying = none → (u.bankInfo b).verified = true → (u.bankInfo b).digest.toNat = d.le 8 4 →
      (u.bankInfo b).sched ≤ u.budget u.periodNs →
      (u.is R.RED_CTL_PAIRED = false ∨ leAt u.red.partner 16 4 = (u.bankInfo b).digest.toNat) →
      ∀ w, w = u.supersedeOlder (s.cmdOf r d) 0x30 (fun _ => true) →
      exec (.bankCommit r d) s = .next (s.completed
        (({ w with loop := { w.loop with commit := some b } }).wrB R.LOOP_BANK_STAT_SWAP_PENDING true) r d vOk))

/-- POUND_ENABLE with METHOD 0 of a disabled pound in IDLE whose conditions of Table 8.5 hold is queued for the next
SAMPLE mark; with no command kept, POUND_DISABLE of a charging or ready pound, or of an active one whose leg the
others cover, is too, of an active one they do not cover is REJECTED_MODE with DETAIL 0x0304, and of a disabled or
stopping pound does nothing (R226, R228, R229). CELL_BYPASS and CELL_SERVICE (R233, R188): in IDLE a bypass of a
running cell is queued for the next SAMPLE mark, a parked cell asks for nothing; a service request of a reached cell
with none outstanding waits for a service window, and a write that reaches a protected address is REJECTED_AUTH with
DETAIL 0x0101. -/
def Obligations.PoundAndCellCommands : Prop :=
  (∀ (s : State) (r : RingIx) (d : Desc),
      ∀ u, u = s.taken r →
      ∀ p, p = d.le 4 1 →
      (s.passes 0x40 fmtPoundEnable r d → u.poundSoon p = 0 → u.poundRuns p = true → d.le 5 1 = 0 → u.grid = 0 →
        u.regionHolds p = true → u.rd R.NRG_STAT_SLUICE = 0 →
        ∀ v, u.admission none (fun _ => u.askPound p 0) 0 0 false = v → v.status.done = true →
        exec (.poundEnable r d) s = .next (s.completed
          ((u.supersedeOlder (s.cmdOf r d) d.opcode.toNat fun x => x.le 4 1 = p).queueDue d 0) r d v))
      ∧ (s.passes 0x41 fmtPoundDisable r d → u.hst.kept = [] → (u.poundSoon p = 1 ∨ u.poundSoon p = 2) →
          exec (.poundDisable r d) s = .next (s.completed (u.queueDue d 0) r d vOk))
      ∧ (∀ left, s.passes 0x41 fmtPoundDisable r d → u.hst.kept = [] → u.poundSoon p = 3 →
          left = ((u.legCells (u.legOf p)).filter fun g => g / 16 ≠ p && (u.cellRole g = .active ∨ u.cellRole g = .ready)).length →
          (u.coveredWith (u.legOf p) left = true →
            exec (.poundDisable r d) s = .next (s.completed (u.queueDue d 0) r d vOk))
          ∧ (u.coveredWith (u.legOf p) left = false →
            exec (.poundDisable r d) s = .next (s.completed u r d (vMode 0x0304))))
      ∧ (s.passes 0x41 fmtPoundDisable r d → u.hst.kept = [] → (u.poundSoon p = 0 ∨ u.poundSoon p = 4) →
          exec (.poundDisable r d) s = .next (s.completed u r d vOk)))
  ∧ (∀ (s : State) (r : RingIx) (d : Desc),
      ∀ u, u = s.taken r →
      ∀ g, g = d.le 4 2 →
      ∀ q : ServiceReq, q =
        { op := d.le 6 1, len := d.le 7 1, addr := d.le 8 2, data := d.le 12 8, tag := some d.tag.toNat, sent := none } →
      (s.passes 0x42 fmtBypass r d → d.le 6 1 = 0 → (u.cellRole g = .parked ∨ u.cellRole g = .failed) →
        exec (.cellBypass r d) s = .next (s.completed u r d vOk))
      ∧ (s.passes 0x42 fmtBypass r d → d.le 6 1 = 0 → u.cellRole g ≠ .parked → u.cellRole g ≠ .failed → u.grid = 0 →
          exec (.cellBypass r d) s = .next (s.completed
            ((u.supersedeOlder (s.cmdOf r d) d.opcode.toNat fun x => x.le 4 2 = g).queueDue d 0) r d vOk))
      ∧ (s.passes 0x43 fmtService r d → d.le 6 1 = 2 → d.le 8 2 < 0x1C → 0x10 < d.le 8 2 + 4 * d.le 7 1 →
          exec (.cellService r d) s = .next (s.completed u r d { status := .auth, detail := 0x0101 }))
      ∧ (s.passes 0x43 fmtService r d → (d.le 6 1 = 1 ∨ 0x1C ≤ d.le 8 2 ∨ d.le 8 2 + 4 * d.le 7 1 ≤ 0x10) →
          u.is (R.CNL_CELL_STAT_DARK g) = false → u.is (R.CNL_CELL_STAT_UNREACHED g) = false → u.reached g = true →
          u.poundRuns (g / 16) = true → (u.link g).service = none →
          exec (.cellService r d) s = .next (s.completed
            (u.modLink g fun l => { l with service := some q }) r d vOk)))

/-- SLUICE in IDLE (R260): a start is queued for the next SAMPLE mark unless one is stopping; a stop of a sluice that
does not run does nothing. ENERGY_RECORD and ATTEST take the signing engine when it is free, and are BUSY when it is
not (R265, R413, R414). -/
def Obligations.SluiceAndRecordsAdmitted : Prop :=
  ∀ (s : State) (r : RingIx) (d : Desc),
    ∀ u, u = s.taken r →
    ∀ j : RecordJob, j = { addr := d.le 4 8, tag := d.tag.toNat, nonce := layBytes 4 [(0, 4, d.le 16 4)],
                           mark := u.sys.k + 1, body := none } →
    (s.passes 0x50 fmtSluice r d → d.le 4 1 = 0 → u.grid = 0 → u.rd R.NRG_STAT_SLUICE ≠ 2 →
      exec (.sluice r d) s = .next (s.completed (u.queueDue d 0) r d vOk))
    ∧ (s.passes 0x50 fmtSluice r d → d.le 4 1 = 1 → u.rd R.NRG_STAT_SLUICE = 0 →
        exec (.sluice r d) s = .next (s.completed u r d vOk))
    ∧ (s.passes 0x51 fmtRecord r d → u.signing = false → exec (.energyRecord r d) s = .next (s.completed
        { u with nrg := { u.nrg with record := some j } } r d vOk))
    ∧ (s.passes 0x51 fmtRecord r d → u.signing = true →
        exec (.energyRecord r d) s = .next (s.completed u r d (vBusy 0x040B)))
    ∧ (s.passes 0x90 fmtAttest r d → u.signing = false → u.marksRun = true → exec (.attest r d) s = .next (s.completed
        { u with sec := { u.sec with attest := some j } } r d vOk))
    ∧ (s.passes 0x90 fmtAttest r d → u.signing = false → u.marksRun = false → exec (.attest r d) s = .next (s.completed
        { u with sec := { u.sec with attest := some { j with body := some (u.attestBody j) } } } r d vOk))
    ∧ (s.passes 0x90 fmtAttest r d → u.signing = true →
        exec (.attest r d) s = .next (s.completed u r d (vBusy 0x0C01)))

/-- AUX_RUN of an enabled, ready drive that is neither stopping nor coasting, and AUX_STOP of an enabled drive, are
queued for the next SAMPLE mark (R326). FAULT_CLEAR (R400, R401): where no latched source of the scope is FATAL or has
its cause present, and no cause of SAFE would remain if the command asks to leave it, those sources wait to be cleared
at the next SAMPLE mark and the completion is OK. -/
def Obligations.DrivesAndFaultClears : Prop :=
  (∀ (s : State) (r : RingIx) (d : Desc),
      ∀ u, u = s.taken r →
      ∀ n, n = d.le 4 1 →
      ∀ older, older = u.supersedeOlder (s.cmdOf r d) 0x60 (fun x => x.le 4 1 = n) →
      (s.passes 0x60 fmtAuxRun r d → u.is (R.AUX_CTL_EN n) = true → u.rd (R.AUX_CTL_POLES n) ≠ 0 →
        u.driveState n ≠ .fault → u.driveReady n = true → older.driveSoon n ≠ .stopping → older.driveSoon n ≠ .coasting →
        exec (.auxRun r d) s = .next (s.completed (older.queueDue d 0) r d vOk))
      ∧ (s.passes 0x61 fmtAuxStop r d → u.is (R.AUX_CTL_EN n) = true →
          exec (.auxStop r d) s = .next (s.completed (older.showAuxPending.queueDue d 0) r d vOk))
      ∧ (s.passes 0x61 fmtAuxStop r d → u.is (R.AUX_CTL_EN n) = false →
          exec (.auxStop r d) s = .next (s.completed u r d (vMode 0x0801))))
  ∧ (∀ (s : State) (r : RingIx) (d : Desc), s.passes 0x70 fmtClear r d →
      ∀ u, u = s.taken r →
      ∀ ls, ls = u.latchedList.filter (fun n => (clearScope d).contains n) →
      ∀ leave, leave = (d.le 5 1).testBit 0 →
      ∀ x : Clearing, x = { scope := d.le 4 1, sources := ls, refused := 0, exitSafe := leave } →
      (ls.any fun n => decide (sourceClass n = some 2)) = false → (ls.any u.causeStands) = false →
      (leave = true → u.safeCauses ls = 0) →
      ∀ w, w = u.incBy R.FLT_CNT_CLEAR_REFUSED 0 →
      exec (.faultClear r d) s = .next (s.completed
        { w with flt := { w.flt with clearing := w.flt.clearing ++ [x] } } r d vOk))

/-- ROLE_SWAP (R378): a swap at a plant time that is zero, or not before the fetch and at most 100 ms after it, and
that nothing of Table 14.9 refuses, is announced to the partner for its cycle and completes with the cycle after it as
EFFECT_CYCLE; a refusal completes with its DETAIL. DEBUG_UNLOCK (R419, R420): CHALLENGE writes a fresh challenge to
the host buffer, or is REJECTED_AUTH; a RESPONSE where no challenge was issued is REJECTED_AUTH with DETAIL 0x0C04 and
counts as failed; RELOCK returns the interface to its default level. -/
def Obligations.SwapsAndUnlocks : Prop :=
  (∀ (s : State) (r : RingIx) (d : Desc), s.passes 0x80 fmtSwap r d →
      ∀ u, u = s.taken r →
      ∀ t, t = d.le 8 8 →
      ∀ c, c = u.swapCycle t →
      ∀ x : Swap, x = { s := c, watchdog := false, released := false, confirmed := false } →
      ∀ w, w = ({ u with red := { u.red with swap := some x } }).wrB R.RED_STAT_SWAP_PENDING true →
      (t = 0 ∨ (u.plantNs ≤ t ∧ t ≤ u.plantNs + 100000000)) →
      ∀ healthy, healthy = decide (u.rd R.RED_STAT_HEALTH = 1) →
      (u.swapRefused healthy = none → exec (.roleSwap r d) s = .next (s.completed
        (w.sendNotice w.claim 5 c)
        r d { status := .ok, effect := some ((c + 1) % 65536) }))
      ∧ (∀ det, u.swapRefused healthy = some det → exec (.roleSwap r d) s = .next (s.completed u r d (vMode det))))
  ∧ (∀ (s : State) (r : RingIx) (d : Desc) (resp : Bytes), s.passes 0x91 fmtUnlock r d →
      ∀ u, u = s.taken r →
      ∀ i, i = d.le 6 1 →
      ∀ level, level = d.le 5 1 →
      (d.le 4 1 = 0 → u.challengeRefused i level = none → exec (.debugUnlock r d resp) s = .next (s.completed
        ((u.issueChallenge i level).2.emit (.record (d.le 8 8) (u.issueChallenge i level).1)) r d vOk))
      ∧ (∀ det, d.le 4 1 = 0 → u.challengeRefused i level = some det → exec (.debugUnlock r d resp) s =
          .next (s.completed u r d { status := .auth, detail := det }))
      ∧ (d.le 4 1 = 1 → (u.sec.challenges.find? fun p => p.1 = i) = none → exec (.debugUnlock r d resp) s =
          .next (s.completed (u.failResponse i) r d { status := .auth, detail := 0x0C04 }))
      ∧ (d.le 4 1 = 2 → exec (.debugUnlock r d resp) s = .next (s.completed
          ((u.wr (grantFld i) (u.rd R.SEC_DBG_STAT_DEFAULT)).showLevel i 2 false) r d vOk)))

/-- The other posted rings (R108, R110, R111): a well-formed descriptor that comes up waits in its ring behind those
before it, a frame with the bytes of its length. -/
def Obligations.BuffersWaitInTheirRings : Prop :=
  ∀ (s : State) (r : RingIx) (d : Desc), s.collects = true → s.hasDesc r = true → d.flagsOk = true → d.fence = false →
    ∀ u, u = s.taken r →
    ∀ waits : Bytes → State, waits = (fun frame =>
      u.enqueue { ring := r, idx := s.nextIx r, desc := d, frame := frame, bad := none }) →
    (4 ≤ r.val → r.val < 12 → d.opcode = 0xC0#8 → fmtTlmBuffer u d = none →
      exec (.tlmBuffer r d) s = .next (waits []).settle)
    ∧ (21 ≤ r.val → d.opcode = 0xB0#8 → fmtRxBuffer u d = none → exec (.rxBuffer r d) s = .next (waits []).settle)
    ∧ (∀ frame, 13 ≤ r.val → r.val < 21 → d.opcode = 0xA0#8 → txOutcome d frame u = none →
        exec (.frameTx r d frame) s = .next (waits (frame.take (d.le 12 2))).settle)

/-- The end of a deferral (R257): the kept command is checked once more, finally. A command whose mode now refuses it
is resolved so; else its owner decides and cannot defer again, and a command that still does not fit is
REJECTED_ENERGY with DETAIL 0x0408 where it may not be derated. -/
def Obligations.DeferralEndsInADecision : Prop :=
  ∀ (s : State) (seq : Nat) (e : Kept) (own : Owner), s.collects = true →
    (s.hst.kept.find? fun x => x.seq = seq && x.deferred) = some e → basinOwner e.op true = some own →
    (∀ det, s.modeRefusal e.desc = some det →
      exec (.deferTimeout seq) s = .next (s.resolve e (vMode det)).settle)
    ∧ (∀ det, e.op = 0x20 → s.modeRefusal e.desc = none → s.is R.NRG_CTL_DERATE_EN = false →
        s.slotClass (e.desc.le 4 2) = (2, 0) →
        s.misfit false { Ask.nothing with lv := some (fRat (opF32 e.desc 8)) } = some det →
        exec (.deferTimeout seq) s = .next (s.resolve e (vEnergy 0x0408)).settle)
    ∧ (∀ may ask want now, (s.admission may ask want now true).status ≠ .deferred)

/-! ### The host link -/

/-- RING_DOORBELL: on a ring that does not run it is ignored; an index within the ring from CONS and PROD is the new
PROD, up to which descriptors are fetched, so of two the later governs, and on a command ring a new one restarts the
watchdog; any other index halts the ring, raises "ring doorbell invalid" and queues RING_ERROR with code 1 (R93); one
in the same clock as a disable of its ring has no effect (R95). EVENT_RING_CONSUMER_WRITE: an index between PROD and
CONS frees the records before it and lets held ones out; any other halts the ring likewise; with as many records as
entries the ring is full (R94). -/
def Obligations.DoorbellsMoveTheRings : Prop :=
  (∀ (s u : State) (r : RingIx) (v : Word) (i : Nat), s.collects = true → r ≠ 12 →
      s.decodes (0x8118 + 0x20 * r) = true → u = s.written (0x8118 + 0x20 * r) v → i = v.toNat % 65536 →
      (u.ringRuns r = false → exec (.ringDoorbell r ⟨v, false⟩) s = .next u.settle)
      ∧ (u.ringRuns r = true → (i + 65536 - u.rd (R.HST_RING_STAT_CONS r)) % 65536 ≤ u.ringSize r →
          (i + 65536 - u.rd (R.HST_RING_STAT_PROD r)) % 65536 ≤ u.ringSize r →
          ∀ w, w = (u.wr (R.HST_RING_STAT_PROD r) i).modRing r (fun g => { g with fetched := i }) →
          exec (.ringDoorbell r ⟨v, false⟩) s = .next
            (if i ≠ u.rd (R.HST_RING_STAT_PROD r) ∧ r.val < 4 then w.restartWatch else w).settle)
      ∧ (u.ringRuns r = true → (u.ringSize r < (i + 65536 - u.rd (R.HST_RING_STAT_CONS r)) % 65536 ∨
            u.ringSize r < (i + 65536 - u.rd (R.HST_RING_STAT_PROD r)) % 65536) →
          exec (.ringDoorbell r ⟨v, false⟩) s =
            .next (((u.wrB (R.HST_RING_STATE_HALTED r) true).raise 0x00C r).ringError r 1).settle)
      ∧ exec (.ringDoorbell r ⟨v, true⟩) s = .next (s.wakeLink byHost).settle)
  ∧ (∀ (s u : State) (v : Word) (i : Nat), s.collects = true → s.decodes 0x8298 = true →
      u = s.written 0x8298 v → i = v.toNat % 65536 → u.ringRuns evtq = true →
      ((i + 65536 - u.rd (R.HST_RING_STAT_PROD evtq)) % 65536 ≤
          (u.rd (R.HST_RING_STAT_CONS evtq) + 65536 - u.rd (R.HST_RING_STAT_PROD evtq)) % 65536 →
        exec (.eventRingConsumerWrite v) s = .next (u.wr (R.HST_RING_STAT_PROD evtq) i).flushHost.settle)
      ∧ ((u.rd (R.HST_RING_STAT_CONS evtq) + 65536 - u.rd (R.HST_RING_STAT_PROD evtq)) % 65536 <
          (i + 65536 - u.rd (R.HST_RING_STAT_PROD evtq)) % 65536 →
        exec (.eventRingConsumerWrite v) s =
          .next (((u.wrB (R.HST_RING_STATE_HALTED evtq) true).raise 0x00C evtq).ringError evtq 1).settle)
      ∧ ((s.rd (R.HST_RING_STAT_CONS evtq) + 65536 - s.rd (R.HST_RING_STAT_PROD evtq)) % 65536 = s.ringSize evtq →
        s.evtqReady = false))

/-- RING_ENABLE and RING_DISABLE with the ring's size as it stands (R90, R95): a quiesced ring starts from index 0 and
runs, the event ring with the records held for it written, one that is not quiesced yet waits with ENABLE_PENDING, one
that runs goes on; a running ring stops, and keeps what it has fetched. RING_QUIESCED (R95): a disabled ring with
nothing left to take up or held completes the buffers and frames it leaves REJECTED_MODE, shows QUIESCED, and starts
anew where an enable waited. -/
def Obligations.RingsStartAndStop : Prop :=
  (∀ (s u w : State) (r : RingIx) (v : Word) (n : BitVec 16), s.collects = true → s.decodes (0x8108 + 0x20 * r) = true →
      (R.HST_RING_CTL_SIZE_LOG2 r).get v = s.rd (R.HST_RING_CTL_SIZE_LOG2 r) →
      u = s.written (0x8108 + 0x20 * r)
        ((R.HST_RING_CTL_ENABLE r).put (v ||| 0x80000000#32) (s.rd (R.HST_RING_CTL_ENABLE r))) →
      w = s.written (0x8108 + 0x20 * r)
        ((R.HST_RING_CTL_ENABLE r).put (v &&& 0x7FFFFFFF#32) (s.rd (R.HST_RING_CTL_ENABLE r))) →
      (∀ y, u.is (R.HST_RING_CTL_ENABLE r) = false → u.is (R.HST_RING_STATE_QUIESCED r) = true →
        y = (((((((u.wrB (R.HST_RING_CTL_ENABLE r) true).wrB (R.HST_RING_STATE_QUIESCED r)
          false).wrB (R.HST_RING_STATE_HALTED r) false).wrB (R.HST_RING_STATE_ENABLE_PENDING r) false).wr
          (R.HST_RING_STAT_PROD r) 0).wr (R.HST_RING_STAT_CONS r) 0).modRing r fun _ => {}).indexWord r →
        exec (.ringEnable r v) s = .next (if r = 12 then y.flushHost else y).settle)
      ∧ (u.is (R.HST_RING_CTL_ENABLE r) = false → u.is (R.HST_RING_STATE_QUIESCED r) = false →
          exec (.ringEnable r v) s = .next (u.wrB (R.HST_RING_STATE_ENABLE_PENDING r) true).settle)
      ∧ (u.is (R.HST_RING_CTL_ENABLE r) = true → exec (.ringEnable r v) s = .next u.settle)
      ∧ (∀ x, x = w.wrB (R.HST_RING_STATE_ENABLE_PENDING r) false → x.is (R.HST_RING_CTL_ENABLE r) = true →
          x.is (R.HST_RING_STATE_HALTED r) = false →
          idxWithin (x.ring r).fetch n.toNat (x.ring r).fetched = true →
          exec (.ringDisable r v n) s =
            .next ((x.wrB (R.HST_RING_CTL_ENABLE r) false).modRing r fun g => { g with fetched := n.toNat }).settle))
  ∧ (∀ (s : State) (r : RingIx) (t u v : State), s.collects = true →
      s.is (R.HST_RING_CTL_ENABLE r) = false → s.is (R.HST_RING_STATE_QUIESCED r) = false →
      (s.ring r).fetch = (s.ring r).fetched → (s.hst.held.any fun h => decide (h.ring = r.val)) = false →
      (s.hst.heldWb.any fun w => decide (w.ring = r.val)) = false →
      t = each (s.postedOf r) (fun s p => s.wbPosted r p.idx p.desc 0 4 0 0 0) s →
      u = { t with hst := { t.hst with posted := t.hst.posted.filter fun p => p.ring ≠ r.val } } →
      v = u.wrB (R.HST_RING_STATE_QUIESCED r) true →
      exec (.ringQuiesced r) s = .next (if v.is (R.HST_RING_STATE_ENABLE_PENDING r) then v.enableRing r else v).settle)

/-- RING_ERROR (R88): a DMA access that fails, also one issued before DMA became impossible, halts the ring it served,
whose ERR_CODE is 2, raises "host memory access failed" with the address and queues RING_ERROR; the descriptor is
neither executed nor written back. A ring that is disabled and quiesced has no access under way. -/
def Obligations.FailedAccessHaltsTheRing : Prop :=
  ∀ (s : State) (r : RingIx) a w, s.collects = true →
    (s.is (R.HST_RING_CTL_ENABLE r) = true ∨ s.is (R.HST_RING_STATE_QUIESCED r) = false → exec (.ringError r a w) s = .next
      (((s.wrB (R.HST_RING_STATE_HALTED r) true).raiseWith 0x00B r
        { addr := a.toNat, master := 0, access := if w then 4 else 3 }).ringError r 2).settle)
    ∧ (s.is (R.HST_RING_CTL_ENABLE r) = false → s.is (R.HST_RING_STATE_QUIESCED r) = true →
        exec (.ringError r a w) s = .next s.settle)

/-- Event records (R112 to R114): with 64 records held a new one is lost and counted, and takes its SEQ; any other
takes its SEQ and is written at the ring's next entry when nothing is held and the ring can be written, with PHASE 1
on every pass of even number, counted from 0 at the enable, and is held behind the others otherwise. -/
def Obligations.EventsTakeTheirPlaces : Prop :=
  ∀ (s : State) (cls code : Nat) pay,
    (64 ≤ s.heldCount → s.event cls code pay = State.inc { s with hst := { s.hst with
      evSeq := s.hst.evSeq + 1, lossOpen := some (s.hst.lossOpen.getD 0 + 1) } } R.HST_EVT_STAT_LOST)
    ∧ (∀ (e : Event) u, s.heldCount < 64 → s.hst.lossOpen = none →
        u = ({ s with hst := { s.hst with evSeq := s.hst.evSeq + 1 } } : State) →
        e = ⟨cls, code, s.cycleNum, s.hst.evSeq.toNat, s.plantNs, layBytes 16 (pay.map fun (o, n, v) => (o - 16, n, v))⟩ →
        (s.hst.store = [] → s.evtqReady = true → s.event cls code pay = (u.writeEvent e).showHeld)
        ∧ (s.hst.store ≠ [] ∨ s.evtqReady = false → s.event cls code pay =
            State.showHeld { u with hst := { u.hst with store := u.hst.store ++ [e] } }))
    ∧ (∀ e c, c = s.rd (R.HST_RING_STAT_CONS evtq) → s.writeEvent e =
        (((s.emit (.event (s.entryAddr evtq c) c (if c / s.ringSize evtq % 2 = 0 then 1 else 0) e)).wr (R.HST_RING_STAT_CONS evtq)
          (c + 1)).indexWord evtq).gather evtq false)
    ∧ (∀ n e t, s.hst.store = e :: t → s.evtqReady = true →
        s.drainStore (n + 1) = (State.writeEvent { s with hst := { s.hst with store := t } } e).drainStore n)

/-- What starts and stops DMA (R87). The resets of the link: every ring is disabled and drops its write-backs, the MSI-X
table, the pending bits, MSI-X Enable and Function Mask are as after reset, and BAR0 has no address; the release of
`PERST_N` lets the link come up again. A cause of R87 leaves no ring enabled. -/
def Obligations.LinkStatesAndResets : Prop :=
  (∀ s : State, s.collects = true →
      exec .pcieLinkDown s = .next (State.settle { s with hst := { s.hst with linkUp := false } })
      ∧ (s.hst.perstHigh = true → s.onBackup 10 = false → exec .pcieLinkUp s =
          .next ({ s with hst := { s.hst with linkUp := true } } : State).flushHost.settle)
      ∧ (s.hst.perstHigh = true → exec .d3hotEntry s = .next (State.settle { s with hst := { s.hst with inD0 := false } }))
      ∧ (s.hst.perstHigh = true → exec .d0Return s =
          .next ({ s with hst := { s.hst with inD0 := true } } : State).flushHost.settle)
      ∧ (s.hst.perstHigh = true → s.hst.linkUp = true → exec .busMasterEnableSet s =
          .next ({ s with hst := { s.hst with busMaster := true } } : State).flushHost.settle)
      ∧ (s.hst.perstHigh = true → exec .busMasterEnableClear s =
          .next ({ s with hst := { s.hst with busMaster := false } } : State).dropRings.settle))
  ∧ (∀ s : State,
      (∀ h, h = { s.hst with perstHigh := false, linkUp := false, inD0 := true, busMaster := false, l1 := false, bar := 4 } →
        exec .perst s = .next (({ s with hst := h } : State).dropRings.msixClear).settle)
      ∧ exec .perstRelease s = .next (State.settle { s with hst := { s.hst with perstHigh := true } })
      ∧ (s.collects = true → s.hst.perstHigh = true → exec .functionLevelReset s =
          .next (({ s with hst := { s.hst with inD0 := true, busMaster := false, bar := 4 } } : State).dropRings.msixClear).settle))
  ∧ (∀ (s : State) (r : RingIx), s.regsWf = true → s.dropRings.is (R.HST_RING_CTL_ENABLE r) = false)

/-- MSIX_HOLDOFF_EXPIRY, MSIX_UNMASK and EVENT_RECORD_WRITE (R114, R116): what has gathered is signalled and gathers
anew; an unmasked vector that was pending is sent; index words that waited, held write-backs, then held records go out
while they can. Telemetry (R106 to R108): an enable that nothing of Table 4.13 refuses takes the item list; a block
that is due goes to the head buffer of its ring with its size, or is dropped and counted where there is no buffer, no
DMA or a halted ring. -/
def Obligations.MessagesAndTelemetryGoOut : Prop :=
  (∀ s : State, s.collects = true →
      (∀ r : RingIx, 0 < (s.ring r).gathered → exec (.msixHoldoffExpiry r) s =
        .next ((s.modRing r fun g => { g with gathered := 0 }).sendVec (s.rd (R.HST_RING_CTL_VEC r))).settle)
      ∧ (∀ (v : Fin 32) (b f : Bool) m, m = SMap.put msixReset s.hst.msixTable (0x80000 + 16 * v + 12)
            (SMap.get msixReset s.hst.msixTable (0x80000 + 16 * v + 12) &&& ~~~1#32) →
          exec (.msixUnmask v ⟨b, f⟩) s =
            .next (State.sendPending { s with hst := { s.hst with msixTable := m, msixEnable := b, msixMask := f } }).settle)
      ∧ (∀ u, u = s.flushIndex.flushWb →
          exec .eventRecordWrite s = .next ((u.drainStore u.hst.store.length).showHeld).settle))
  ∧ (∀ (s : State) (i : Fin 8), s.collects = true →
      (∀ u v list, s.decodes (0x8400 + 0x10 * i) = true → s.is (R.HST_TLM_CTL_ENABLE i) = false → v.getLsbD 31 = true →
        u = s.written (0x8400 + 0x10 * i) v → u.tlmRefused i list = none →
        exec (.tlmEnable i v list) s = .next ((u.wr (R.HST_TLM_STAT_DROPPED i) 0).setStream i
          { items := (list.getD []).take (u.rd (R.HST_TLM_CTL_ITEMS i)), gap := 0, last := 0 }).settle)
      ∧ (∀ x, x = s.stream i → s.is (R.HST_TLM_CTL_ENABLE i) = true → (s.power = .run ∨ s.power = .hold) →
          s.sys.k % s.rd (R.HST_TLM_CTL_DECIM i) = 0 → x.last ≠ s.sys.k + 1 →
          (∀ p rest, s.postedOf (4 + i) = p :: rest → s.canDma = true → s.is (R.HST_RING_STATE_HALTED (4 + i)) = false →
            blockBytes x.items ≤ p.desc.le 12 4 → exec (.telemetryBlockWrite i) s = .next
              ((((s.emit (.telemetry (p.desc.le 4 8) (s.blockOf i x))).setStream i { x with gap := 0, last := s.sys.k + 1 }).completePosted
                (4 + i) (blockBytes x.items) 0 (if x.gap = 0 then 0 else 8) 0 s.cycleNum).settle))
          ∧ ((s.postedOf (4 + i) = [] ∨ s.canDma = false ∨ s.is (R.HST_RING_STATE_HALTED (4 + i)) = true) →
            exec (.telemetryBlockWrite i) s = .next
              ((s.setStream i { x with gap := x.gap + 1, last := s.sys.k + 1 }).inc (R.HST_TLM_STAT_DROPPED i)).settle)))

/-- The watchdog (R118, R119, R121): half of TIMEOUT warns once with an event and vector 24; TIMEOUT counts, raises
its fault, tells the host, resolves every kept command, and leads to a swap where R121 asks for one, else to the plan,
or to nothing more at a standby; the end of a plan's ramp is that of its mark while marks run, and else brings the
set-points to zero and ends in the plan's idle. -/
def Obligations.WatchdogWarnsAndExpires : Prop :=
  ∀ s : State, s.collects = true →
    (s.watching = true → s.hst.warned = false → exec .watchWarn s =
      .next ((((({ s with hst := { s.hst with warned := true } } : State).showWatch).event 0 5 []).sendVec 24).settle))
    ∧ (∀ u w x plan, s.watching = true → plan = s.rd R.HST_WATCH_PLAN →
        u = (s.wrB R.HST_WATCH_STAT_EXPIRED true).inc R.HST_WATCH_STAT_EXPIRIES →
        w = ((({ u with hst := { u.hst with warned := true } } : State).raise 0x00D plan).event 0 6
          [(16, 1, plan), (17, 1, if s.watchSwaps then 1 else 0)]).sendVec 24 →
        x = w.resolveWhere (fun _ => true) (vMode 2) →
        (w.role = .standby → exec .watchExpired s = .next
          (({ x with hst := { x.hst with armed := false, warned := false } } : State).showWatch).settle)
        ∧ (w.role ≠ .standby → s.watchSwaps = false → exec .watchExpired s = .next x.planDue.settle)
        ∧ (w.role ≠ .standby → s.watchSwaps = true → exec .watchExpired s =
            .next (State.swapStart { x with hst := { x.hst with watchSwap := some x.sys.k } } 0 true).settle))
    ∧ (∀ p u, s.hst.plan = some p → p.waiting = false → p.complete = false →
        u = s.advanceTo (s.markTime p.since + (s.planRamp : Int)) →
        (u.marksRun = true → exec .planRampEnd s =
          .next (State.settle { u with hst := { u.hst with plan := some { p with ended := true } } }))
        ∧ (u.marksRun = false → exec .planRampEnd s = .next ((u.rampStep p.start 1 1).planIdle p).settle))

/-! ### Resets, boot, clocks and power -/

/-- POWER_ON_RESET (R44, R77): the straps and the feeds are as sampled at its release, and every register but the part
number, the straps, the partner's line and what shows the fuses is at its reset value; fuses, what has left the part
and the queue are kept. Supplies and die temperature (R50, R51, R53): a trip out of OFF resets the main domains and
records its rails, of which only three are active in TOWPATH; the rails' return releases the reset of a fed part; the
loss of one of two feeds is a fault, and the loss of the last a power-on reset, which the first to return releases;
the temperature is shown, and above a limit raises that limit's fault. -/
def Obligations.PowerOnStartsAnew : Prop :=
  (∀ (s t : State) (straps : BitVec 3) (feeds : BitVec 2), t = s.powerOn straps feeds →
      exec (.powerOnReset straps feeds) s = .next t.settle
      ∧ t.sys.boot = .reset ∧ t.sys.feeds = feeds ∧ t.sys.railsOk = s.sys.railsOk
      ∧ t.hst = { perstHigh := s.hst.perstHigh } ∧ t.flt = {} ∧ t.tsn = {}
      ∧ t.cnl = {} ∧ t.loop = {} ∧ t.cell = {} ∧ t.nrg = {} ∧ t.mtr = {} ∧ t.aux = { pins := s.aux.pins }
      ∧ t.out = s.out ∧ t.pending = s.pending ∧ t.sec.rowOpen = s.sec.rowOpen ∧ t.sec.rowLocked = s.sec.rowLocked
      ∧ t.sec.rowRetired = s.sec.rowRetired ∧ t.sec.counter = s.sec.counter ∧ t.sec.slots = s.sec.slots
      ∧ (∀ off, off ≠ 0 → off ≠ 0x20 → off ≠ 0x3C008 → (off < 0x3F000 ∨ 0x3F040 < off) → t.reg off = regReset off)
      ∧ (s.regsWf = true → t.reg 0x20 = straps.setWidth 32))
  ∧ (∀ s : State,
      (∀ (rails m : BitVec 6) sys u, m = (if s.power = .towpath then rails &&& 0x31 else rails) → m ≠ 0 →
        u = s.resetMain.setCause true sys false →
        (s.sys.boot ≠ .off → exec (.supplyMonitorTrip rails sys) s = .next (State.settle { u.wr R.SYS_RESET_CAUSE_MON_RAIL
            (u.rd R.SYS_RESET_CAUSE_MON_RAIL ||| m.toNat) with
          sys := { u.sys with railsOk := s.sys.railsOk &&& ~~~m, cutShort := s.sys.cutShort || s.sys.move.isSome } }))
        ∧ (s.sys.boot = .off → exec (.supplyMonitorTrip rails sys) s = .next (State.settle { s with sys := { s.sys with
            railsOk := s.sys.railsOk &&& ~~~m } })))
      ∧ (s.sys.boot = .reset → s.sys.feeds ≠ 0 → exec .mainResetRelease s = .next (State.timeReset { s with sys := { s.sys with
          railsOk := 0x3F, boot := .search, tr := s.tsn.local_ } }).settle)
      ∧ (s.sys.boot = .reset → s.sys.feeds = 0 → exec .mainResetRelease s = .next (State.settle { s with sys := { s.sys with
          railsOk := 0x3F } }))
      ∧ (∀ (f : Fin 2) u, s.sys.feeds.getLsbD f = true → u = s.dropFeed f →
          (u.sys.feeds ≠ 0 → exec (.aonFeedLost ⟨f, false⟩) s = .next u.judgeFeeds.settle)
          ∧ (u.sys.feeds = 0 → exec (.aonFeedLost ⟨f, false⟩) s = .next (u.powerOn ((u.reg 0x20).setWidth 3) 0).settle))
      ∧ (∀ f : Fin 2, s.sys.feeds.getLsbD f = false →
          (s.sys.feeds ≠ 0 → exec (.aonFeedLost ⟨f, true⟩) s = .next ((State.showFeeds { s with sys := { s.sys with
              feeds := setBit s.sys.feeds f true } }).judgeFeeds).settle)
          ∧ (s.sys.feeds = 0 → exec (.aonFeedLost ⟨f, true⟩) s = .next ((s.powerOn ((s.reg 0x20).setWidth 3)
              (BitVec.ofNat 2 (2 ^ f.val))).showFeeds).settle))
      ∧ (∀ (temp : BitVec 12) u v, u = (s.wr R.SYS_TEMP_TEMP temp.toNat).setActive 0x007
            (decide (920 < sx 12 temp.toNat)) → 920 < sx 12 temp.toNat →
          (v = (u.raise 0x007 0).setActive 0x008 (decide (1040 < sx 12 temp.toNat)) →
            exec (.dieTemperatureHigh temp) s = .next (State.settle
              (if 1040 < sx 12 temp.toNat ∧ (u.raise 0x007 0).active 0x008 = false then v.raise 0x008 0 else v)))
          ∧ (v = (if (s.wr R.SYS_TEMP_TEMP temp.toNat).active 0x007 then u else u.raise 0x007 0) → 1040 < sx 12 temp.toNat →
            exec (.dieTemperatureLimit temp) s = .next ((v.setActive 0x008 true).raise 0x008 0).settle)))

/-- Boot, steps 1 to 3 and the failures (R79, R80): boot starts the search of PLL_PCIE, a reference found starts that
of the system loops, step 3 leads to the read of the image, and a step not done in time fails the boot with its CODE,
in HOLD and SAFE. The image (R46, R411) and step 7 (R79): a primary copy that passes its checks is applied, and with
both copies failed the boot fails with the CODE of the primary; an image over JTAG that passes them is applied; the
loops of step 6 search once step 5 is over; boot DONE is HOLD, with the time since TR, the trackers started and the
event, and a request that a trip cut short ends REJECTED_MODE. -/
def Obligations.BootRunsItsSteps : Prop :=
  (∀ s : State, s.collects = true →
      (s.sys.boot = .search → s.sys.refFound = false → exec .bootStart s = .next (((State.showFeeds { s with
          sys := { s.sys with tr := s.tsn.local_ } }).judgeFeeds).search 10).settle)
      ∧ (∀ k : Fin 2, s.sys.boot = .search → s.sys.refFound = false → exec (.bootReferenceFound k) s =
          .next (((State.wr { s with sys := { s.sys with refFound := true } } R.CLK_REF_STAT_SEL k).search 0).search 1).settle)
      ∧ (s.sys.boot = .sram → s.is R.SYS_STRAP_BOOT_SRC = false → exec (.sramInitDone true) s =
          .next (State.settle { s with sys := { s.sys with boot := .image } }))
      ∧ (s.sys.boot = .sram → exec (.sramInitDone false) s = .next (s.bootFail 5).settle)
      ∧ (∀ code, (s.sys.boot = .search ∧ code = (if s.sys.refFound then 7 else 1)) ∨ (s.sys.boot = .sram ∧ code = 5) ∨
            (s.sys.boot = .image ∧ code = 2) →
          exec .bootFail s = .next (((((State.wr { s with sys := { s.sys with boot := .failed } } R.SYS_BOOT_STAT_CODE
            code).wrB R.SYS_BOOT_STAT_FAILED true).wr R.SYS_PWR_STAT_STATE 2).wrBit R.FLT_SAFE_CAUSE_CAUSE 4 true).settle)))
  ∧ (∀ s : State, s.collects = true →
      (∀ p b bad u, s.sys.boot = .image → u = (s.fixRows bad).showFuses →
        (u.imageReason p = 0 → exec (.settingsLoaded p b bad) s = .next ((((u.wr R.SEC_IMG_STAT_REASON_P 0).wr
          R.SEC_IMG_STAT_REASON_B 7).useImage (p.getD []) 0 bad).settle))
        ∧ (∀ n v, u.imageReason p = n → n ≠ 0 → v = u.wr R.SEC_IMG_STAT_REASON_P n → v.imageReason b ≠ 0 →
            exec (.settingsLoaded p b bad) s =
              .next ((v.wr R.SEC_IMG_STAT_REASON_B (v.imageReason b)).bootFail (reasonCode n)).settle))
      ∧ (∀ im bad u, s.sys.boot = .jtagWait → u = (s.fixRows bad).showFuses → u.imageReason (some im) = 0 →
          exec (.jtagImageReceived im bad) s = .next ((((((u.wr R.SEC_IMG_STAT_REASON_P 0).wr R.SEC_IMG_STAT_REASON_B 7).wr
            R.SYS_BOOT_STAT_CODE 0).wrB R.SYS_BOOT_STAT_FAILED false).useImage im 0 bad).settle))
      ∧ (∀ t u v, u = s.stepSix → u.sys.boot = .applied → t = min 65535 ((u.tsn.local_ - u.sys.tr) * 2 / 10000) →
          v = (if u.sys.cutShort then u.wr R.SYS_PWR_STAT_LAST_STATUS 4 else u) →
          exec .bootDone s = .next ((((((State.wrB { v with sys := { v.sys with boot := .done, cutShort := false } }
            R.SYS_BOOT_STAT_DONE true).wr R.SYS_BOOT_STAT_TIME t).wr R.SYS_PWR_STAT_STATE 2).startTrackers).event 0 1
              [(16, 2, t)]).settle))
      ∧ (∀ u : State, s.sys.boot = .settings → u = s.startUp → s.stepSix = u))

/-- Loops (R65, R67, R69 to R71): a search that finds a band locks its loop, with its domains where they had not been
lost, and one that fails raises its fault and puts the domain in the state of Table 3.4; a loop that loses lock goes
to the backup clock and searches, with the outputs of Table 3.4 and its fault, and an asked return is abandoned; the
loss of the backup clock is a fault of its own. References and alignment (R66, R72, R73, R76): a reference that fails
is lost with its fault, and in use it gives way to the other or to holdover; one that qualifies ends holdover with a
slew of which the time domain is told, at whose end the error is 0; a standby aligns its dividers to `SYNC_IN`, and no
other seat does. -/
def Obligations.LoopsAndReferences : Prop :=
  (∀ (s : State) (n : Fin 12), s.collects = true → ∀ t, t = s.stepSix →
      (∀ u v, t.bitOf R.CLK_PLL_STAT_SEARCH n = true →
        u = (t.wrBit R.CLK_PLL_STAT_SEARCH n false).wrBit R.CLK_PLL_STAT_LOCKED n true →
        v = { u with clk := { u.clk with failed := setBit u.clk.failed n false, lost := setBit u.clk.lost n false } } →
        exec (.bandSearchDone n) s = .next (((if t.clk.failed.getLsbD n && !t.clk.lost.getLsbD n && !t.clk.away.getLsbD n
          then v.returnDomain n else v).judgeLoops.quadStarts n).bootLoops).settle)
      ∧ (∀ u, t.bitOf R.CLK_PLL_STAT_SEARCH n = true → u = (State.judgeLoops (State.wrBit { t with clk := { t.clk with
          failed := setBit t.clk.failed n true } } R.CLK_FB_STAT_DOMAIN n true)).raise 0x1A0 n →
        exec (.bandSearchFailed n) s = .next (State.settle (if t.onBackup n then u else u.lockEffect n)))
      ∧ (t.bitOf R.CLK_PLL_STAT_SEARCH n = false → exec (.bandSearchDone n) s = .next t.settle
          ∧ exec (.bandSearchFailed n) s = .next t.settle)
      ∧ (∀ u v w, s.loopLocked n = true → u = (s.search n).wrBit R.CLK_FB_STAT_DOMAIN n true →
          v = { u with clk := { u.clk with
            returning := (setBit u.clk.returning n false), lost := (setBit u.clk.lost n true)
            away := (setBit u.clk.away n true), fabBackup := (u.clk.fabBackup || decide (n.val = 0)) } } →
          w = (if s.clk.returning.getLsbD n then v.inc R.CLK_FB_STAT_RET_REFUSED else v) →
          exec (.pllLockLost n) s = .next (((w.raise (lockSource n) n).lockEffect n).judgeLoops).settle)
      ∧ (s.loopLocked n = false → exec (.pllLockLost n) s = .next s.settle)
      ∧ (exec .backupClockLost s = .next ((s.setActive 0x1A3 true).raise 0x1A3 0).settle))
  ∧ (∀ (s : State) (k : Fin 2), s.collects = true →
      (∀ u v w, (s.is (refOk k) || (decide (s.refSel = k) && s.sys.refFound && !s.clk.refLost.getLsbD k)) = true →
        u = (s.wrB (refOk k) false).wrB (refLostFld k) true →
        v = { u with clk := { u.clk with refLost := setBit u.clk.refLost k true } } → w = v.judgeRefLost.raise 0x1A1 k →
        ((s.refSel ≠ k.val ∨ s.sys.refFound = false) → exec (.referenceLost k) s = .next w.settle)
        ∧ (s.refSel = k.val → s.sys.refFound = true → w.refGood (1 - k) = true →
            exec (.referenceLost k) s = .next ((State.dropSlew { w with clk := { w.clk with failedOver := true } }).wr
              R.CLK_REF_STAT_SEL (1 - k)).settle)
        ∧ (s.refSel = k.val → s.sys.refFound = true → w.refGood (1 - k) = false →
            exec (.referenceLost k) s = .next w.holdover.settle))
      ∧ (∀ u v err, u = s.wrB (refOk k) true →
          v = State.judgeRefLost { u with clk := { u.clk with refLost := setBit u.clk.refLost k false } } →
          ((v.is R.CLK_REF_STAT_HOLDOVER && !v.is R.CLK_REF_STAT_SLEWING && v.refGood k) = true →
            exec (.referenceQualified k err) s = .next ((((v.wr R.CLK_REF_STAT_SEL k).wr R.CLK_REF_STAT_PHASE_ERR
              (ux 16 err)).wrB R.CLK_REF_STAT_SLEWING true).tellSlew
                (if err < 0 then -(v.rd R.CLK_SLEW_MAX_RATE : Int) else v.rd R.CLK_SLEW_MAX_RATE)).settle)
          ∧ ((v.is R.CLK_REF_STAT_HOLDOVER && !v.is R.CLK_REF_STAT_SLEWING && v.refGood k) = false →
            exec (.referenceQualified k err) s = .next v.judgeRef.settle))
      ∧ (s.is R.CLK_REF_STAT_SLEWING = true → exec .slewComplete s = .next ((((((s.wrB R.CLK_REF_STAT_SLEWING false).wrB
          R.CLK_REF_STAT_HOLDOVER false).wr R.CLK_REF_STAT_PHASE_ERR 0).tellSlew 0).setActive 0x1A2 false).judgeRef.settle))
      ∧ (∀ a b, s.role ≠ .standby → exec (.syncInPulse a b) s = .next s.settle)
      ∧ (s.role = .standby → s.is R.CLK_SYNC_ALIGN_EN = true → s.is R.CLK_UPDATE_BUSY = false → s.onBackup 1 = false →
          s.onBackup 11 = false →
          exec (.syncInPulse false false) s = .next (s.wrB R.CLK_SYNC_IN_PHASE true).settle
          ∧ exec (.syncInPulse true false) s = .next (((s.wrB R.CLK_SYNC_IN_PHASE false).inc R.CLK_SYNC_ALIGNED_CNT).wrB
            R.CLK_SYNC_MOVED true).settle
          ∧ ∀ u a, u = s.wrB R.CLK_SYNC_IN_PHASE false → exec (.syncInPulse a true) s = .next (State.settle ((State.inc { u with
              mtr := { u.mtr with dividerAt := some u.tsn.local_ } } R.CLK_SYNC_ALIGNED_CNT).wrB R.CLK_SYNC_MOVED true)))
      ∧ (∀ a b, s.role = .standby → s.is R.CLK_SYNC_ALIGN_EN = true →
          (s.is R.CLK_UPDATE_BUSY || s.onBackup 1 || s.onBackup 11) = true →
          exec (.syncInPulse a b) s = .next (s.inc R.CLK_SYNC_IGNORED).settle))

/-- Transitions end (R83, R84): a completed transition lets the pending request run, and one that leaves TOWPATH ends
only when the loops that it started run again, FAB then on its own loop; after the 16 cycles of HOLD barges the steps
of TOWPATH entry stop every loop that runs but two, with FAB on the backup clock and PCIe in L1, and TOWPATH is
entered. -/
def Obligations.PowerTransitionsEnd : Prop :=
  ∀ (s u : State), s.collects = true →
    (∀ t, s.sys.move = some (.completing t) → t ≠ .hold → u = s.setMove none →
      exec .powerTransitionDone s = .next u.runPending.settle)
    ∧ (∀ v, s.sys.move = some (.completing .hold) → s.stillSearching = false → v = { s with clk := { s.clk with
          fabBackup := s.clk.fabBackup && (!s.loopLocked 0 || s.onBackup 0) } } →
        exec .powerTransitionDone s = .next (v.setMove none).runPending.settle)
    ∧ (s.sys.move = some (.completing .hold) → s.stillSearching = true → exec .powerTransitionDone s = .next s.settle)
    ∧ (Power.ofReq (u.rd R.SYS_PWR_STAT_PENDING) = none → u.runPending = u)
    ∧ (∀ v w, s.sys.move = some (.holdBarges 0) → u = (s.calAbandon.accsIdle.portsDown 6).allLanesOff →
        v = { u with clk := { u.clk with fabBackup := true }, hst := { u.hst with l1 := true } } →
        w = each (clkLoops.filter fun n => n ≠ 1 ∧ n ≠ 10 ∧ (v.loopLocked n || v.bitOf R.CLK_PLL_STAT_SEARCH n))
          State.stopLoop v →
        exec .towpathEntryHoldDone s =
          .next (((w.judgeLoops.cmpWatch).setPower .towpath false).setMove (some (.completing .towpath))).settle)
    ∧ (s.sys.move ≠ some (.holdBarges 0) → exec .towpathEntryHoldDone s = .next s.settle)

/-! ### The cycle and the fault collector -/

/-- The marks and windows of a cycle (R17 to R19, R22 to R24, R167, R169, R202, R223, R250), in the order of Table
1.2: the SAMPLE mark moves the count forward and does what is due there; the compute window runs the stages once, at
the end of the longest uplink, and where no commands will be formed in it the Basin checks the caps; the schedule's
end forms the commands of the cycle, and a window that ends before it is an overrun; the downlink follows the compute
window, at its instant, and goes out once; the service window goes out on every end; the APPLY mark follows the
downlink, loads what is set and beats. -/
def Obligations.CycleFollowsItsMarks : Prop :=
  ∀ s : State, s.collects = true → s.marksRun = true →
    (∀ xs u v, u = s.markFirst → v = ((u.takeMetered.markCommands.closeWindows).markValues xs).markBasin →
      exec (.sampleMark xs) s = .next (State.settle (if u.marksRun then ((each v.poundList State.steer v).frameAtMark
        (decide (s.power ≠ .run) && decide (v.power = .run))).attestAtMark.syncOut else u)))
    ∧ (∀ u, u = s.toMark → s.sys.k < u.sys.k
        ∧ (s.regsWf = true → u.rd R.SYS_CYCLE_STAT_CYCLE_NUM = u.sys.k % 65536)
        ∧ u.sys.windowOpen = false ∧ u.sys.scheduleDone = false ∧ u.sys.downlinkSent = false ∧ u.sys.applied = false)
    ∧ (∀ m flagged t u v, s.sys.windowOpen = false → s.sys.downlinkSent = false → s.sys.applied = false →
        t = s.advanceTo (s.markTime s.sys.k + 1000 + s.windowLen rateU) →
        u = (State.judgeMisses { t with sys := { t.sys with
          windowOpen := true } }).failCells.writeLegSums.updateLedger.energyAtMark.runForward.judgeCopy →
        v = (if u.engineRuns then u.engineWindow m flagged else u) →
        exec (.computeWindowOpen m flagged) s = .next (State.settle (if v.engineRuns && !v.sys.overrun then v else v.capCheck)))
    ∧ (s.engineRuns = true → s.sys.windowOpen = true → s.sys.scheduleDone = false → s.sys.overrun = false →
        s.sys.downlinkSent = false →
        exec .loopScheduleDone s = .next (State.settle (State.runInverse { s with sys := { s.sys with
          scheduleDone := true } }).formCommands.capCheck.sendCopy)
        ∧ exec .cycleOverrun s = .next (((State.inc { s with sys := { s.sys with overrun := true } }
          R.SYS_CYCLE_OVR_COUNT).raise 0x003 0).settle))
    ∧ (∀ u, s.sys.windowOpen = true → s.sys.downlinkSent = false → s.sys.applied = false → u = s.overrun.stageSlots →
        exec .downlinkWindowStart s =
          .next (u.advanceTo (s.markTime (s.sys.k + 1) - 450 - s.windowLen rateD)).downlink.settle)
    ∧ (∀ u v, s.sys.downlinkSent = false → u = { s with sys := { s.sys with downlinkSent := true } } →
        v = each (u.poundList.filter fun p => u.sendsNow p && (u.gateOpen || u.is R.RED_PARTNER_LINE)) State.noteDownlink u →
        s.downlink = if v.gateOpen then each (v.poundList.filter v.sendsNow) State.downlinkPound v else v)
    ∧ (∀ p l e w, l = s.rd (R.CNL_POUND_CTL_FITTED p) → e = s.rd (R.CNL_POUND_STAT_SPLIT_E p) →
        w = s.rd (R.CNL_POUND_STAT_SPLIT_W p) → s.downlinkPound p =
          each (List.range w) (fun u i => u.downlinkCell (2 * p + 1) (16 * p + (l - w + i)) i)
            (each (List.range e) (fun u i => u.downlinkCell (2 * p) (16 * p + (e - 1 - i)) i) s))
    ∧ (∀ u, u = (if s.poundList.all fun p => s.isOut p then s
          else s.advanceTo ((s.plantNs : Int) + ((s.poundList.map s.windowWait).foldl max 0 : Nat))) →
        exec .serviceWindowOpen s =
          .next (each (u.poundList.flatMap fun p => [2 * p, 2 * p + 1]) State.serviceEnd u).settle)
    ∧ (∀ u v, s.sys.downlinkSent = true → s.sys.applied = false → u = s.advanceTo (s.markTime (s.sys.k + 1) - 200) →
        v = each [0, 1, 2] State.redistDone (State.pwmApply { u with sys := { u.sys with applied := true } }) →
        exec .applyMark s = .next (State.settle (State.beat (if v.goodCycle then
          { v with red := { v.red with refreshedAt := v.tsn.local_ } } else v))))

/-- Fault sources (R385, R387, R391, R392, R399): a source that asserts raises its fault, a standing one only once for
its instance, and one that clears shows inactive; a reserved source never asserts; a pair found broken stands and is
reported; a collector fault opens the hardwired safe state; a shadow window and a capture window end. -/
def Obligations.SourcesReachTheCollector : Prop :=
  ∀ s : State, s.collects = true →
    (∀ (n : Fin 512) (inst : BitVec 16) (a : BitVec 64) (m x : BitVec 4) i c, sourceClass n = some c →
      i = { addr := a.toNat, master := m.toNat, access := x.toNat } →
      exec (.faultSourceAsserted n inst 0 a m x) s = .next (s.raiseWith n inst.toNat i).settle
      ∧ ((s.active n = false ∨ SMap.get (fun _ => 0) s.flt.lastInst n ≠ inst.toNat + 1) →
          exec (.faultSourceAsserted n inst 1 a m x) s = .next ((s.setActive n true).raiseWith n inst.toNat i).settle)
      ∧ (s.active n = true → SMap.get (fun _ => 0) s.flt.lastInst n = inst.toNat + 1 →
          exec (.faultSourceAsserted n inst 1 a m x) s = .next s.settle)
      ∧ exec (.faultSourceAsserted n inst 2 a m x) s = .next (State.settle (State.setActive { s with flt :=
          { s.flt with broken := s.flt.broken.filter (· ≠ n.val) } } n false)))
    ∧ (∀ (n : Fin 512) inst p a m x, sourceClass n = none →
        exec (.faultSourceAsserted n inst p a m x) s = .next s.settle)
    ∧ (∀ (n : Fin 512) c, sourceClass n = some c → s.flt.broken.contains n.val = false →
        exec (.faultSignalPairBroken n) s = .next ((((State.setActive { s with flt :=
          { s.flt with broken := s.flt.broken ++ [n.val] } } n true).raise n 0).raise 0x160 n).settle))
    ∧ (∀ u, u = ((s.wrB R.FLT_STAT_HW_SAFE true).wrBit R.FLT_SAFE_CAUSE_CAUSE 5 true).pwmOffAll.raise 0x161 0 →
        (u.role ≠ .active → exec .faultCollectorIntegrity s = .next u.settle)
        ∧ (u.role = .active → exec .faultCollectorIntegrity s = .next (u.releaseClaim 4).settle))
    ∧ (∀ b : Fin 16, (∀ w ∈ s.flt.shadows, w.block ≠ b.val) → exec (.shadowEnd b) s = .next s.settle)
    ∧ (∀ (b : Fin 16) w v, s.flt.shadows.find? (fun w => w.block = b.val) = some w → (w.hits.map (·.1)).Nodup →
        v = each (w.hits.filter fun h => s.active h.1)
          (fun t h => (t.inc (R.FLT_SHADOW_CNT_LATE b)).raiseWith h.1 h.2.1 { flags := 0x10 })
          { s with flt := { s.flt with shadows := s.flt.shadows.filter fun x => x.block ≠ b.val } } →
        exec (.shadowEnd b) s = .next (v.event 0xB 5 [(16, 1, b), (18, 2, min 0xFFFF w.hits.length),
          (20, 2, min 0xFFFF (w.hits.filter fun h => s.active h.1).length)]).settle)
    ∧ (s.marksRun = true → exec .captureWindowEnd s = .next s.settle)
    ∧ (s.marksRun = false → s.is R.FLT_FIRST0_VALID = true → s.is R.FLT_FIRST0_PROVISIONAL = true →
        exec .captureWindowEnd s = .next (((s.wrB R.FLT_FIRST0_PROVISIONAL false).modLog (s.rd R.FLT_FIRST6_ENTRY)
          fun e => { e with flags := e.flags ||| 1 }).settle))

/-! ### Lanes, barges and the towpath -/

/-- Training (R123, R125 to R129, R159): signal leads a lane to ALIGN, 64 aligned symbols to ENUM with HELLO and
DELAY_REQ sent (a lock-link lane to RUNNING); a training state that times out leaves it ABSENT with back-off, but not
an ENUM in which HELLO has come, and at the back-off's end it enters DETECT; HELLO starts enumeration, a REPORT is
reach, which is settled when no new one comes; a pound not covered repeats ENUM, and a covered one counts its repeats
afresh. -/
def Obligations.LanesTrain : Prop :=
  ∀ s : State, s.collects = true →
    (∀ (n : Fin 28) xs, s.laneState n = .detect → exec (.laneAligned ⟨n, xs⟩) s = .next (s.setLane n .align).settle)
    ∧ (∀ (n : Fin 28) xs u, s.laneState n = .align →
        u = ((s.setLane n .enum).modLane n fun l => { l with hello := false }).endWake (poundOf n) →
        exec (.laneAligned ⟨n, xs⟩) s = .next (State.settle (if alignedBy xs then
          (if isLink n then s.enterRunning n else (u.sendTrain n (u.trainHello n)).sendDelayReq n) else s)))
    ∧ (∀ (n : Fin 28) u, s.laneState n = .detect ∨ s.laneState n = .align ∨ (s.laneState n = .enum ∧ (s.lane n).hello = false) →
        u = (((s.inc (R.CNL_LANE_STAT_RETRIES n)).laneOff n).setLane n .absent).wrB (R.CNL_LANE_STAT_WAS_ABSENT n) true →
        exec (.laneAbsent n) s = .next (u.event 1 3 [(16, 1, n), (17, 1, (s.laneState n).code),
          (18, 2, backoffMs (u.rd (R.CNL_LANE_STAT_RETRIES n)))]).settle)
    ∧ (∀ n : Fin 28, s.laneState n = .enum → (s.lane n).hello = true → exec (.laneAbsent n) s = .next s.settle)
    ∧ (∀ n : Fin 28, s.laneState n = .absent → exec (.backoffExpiry n) s = .next (s.enterDetect n).settle)
    ∧ (∀ (n : LaneIx) b, bargeOk b → s.laneState n = .enum → exec (.helloReceived n b) s = .next (((s.modLane n fun l => { l with
          hello := true, peerRate := leAt b.payload 3 1, settled := false, answered := [] }).sendEnum n).settle))
    ∧ (∀ (n : LaneIx) b u, bargeOk b → s.laneState n = .enum ∨ s.laneState n = .running ∨ s.laneState n = .step →
        u = ((if s.is R.RED_CTL_PAIRED then s.sendRelay 1 n b else s).nodeReport n b).showReach n →
        exec (.reportReceived n b) s = .next (State.settle (if u.fullyReached (poundOf n) then
          each (u.ownLanes (poundOf n)) (fun v m => v.modLane m fun l => { l with enumTries := 0 }) u else u)))
    ∧ (∀ n (b : Barge) p x u, p = leAt b.payload 2 1 → x = NodeReport.mk (leAt b.payload 1 1 % 4) (leAt b.payload 3 1 % 4)
          (leAt b.payload 4 4) (BitVec.ofNat 8 (leAt b.payload 8 1)) →
        u = s.modPound (poundOf n) (fun q => { q with nodes := SMap.ins q.nodes p x }) → s.nodeReport n b = u.modLane n fun l =>
          { l with settled := false, answered := if l.answered.contains p then l.answered else l.answered ++ [p] })
    ∧ (∀ (n : LaneIx) u, u = s.modLane n (fun l => { l with settled := true }) →
        exec (.reachSettled n) s =
          .next ((if u.laneState n = .enum then u.leaveEnum n else u).judgeDark (poundOf n)).settle)
    ∧ (∀ n : LaneIx, s.runs n = true → s.fullyReached (poundOf n) = false →
        exec (.enumRetry n) s = .next ((s.modLane n fun l => { l with enumTries := l.enumTries + 1, settled := false }).sendEnum n).settle)
    ∧ (∀ n : LaneIx, s.fullyReached (poundOf n) = true → exec (.enumRetry n) s = .next s.settle)

/-- Rate steps (R124, R130, R131, R134): the lead sends STEP to the next rate on all its lanes of a pound, for a time
200 to 300 µs ahead; at it the lanes switch and ask for the far taps; with every reached node aligned at the rate
CONFIRM ends the step, and without it by 4 ms the lanes return to the old rate at 5 ms and are capped; the others
follow a STEP and a CONFIRM. -/
def Obligations.RateSteps : Prop :=
  ∀ s : State, s.collects = true →
    (∀ (p : PoundIx) wait ls r time, time = s.plantNs + max 200000 (min 300000 wait) →
        ls = (s.ownLanes p).filter (fun n => (s.laneState n = .step || s.runs n) && !(s.lane n).alone) → ls ≠ [] →
        s.leads = true → r < s.aimRate p →
        (∀ n ∈ ls, (s.lane n).settled = true ∧ s.rd (R.CNL_LANE_STAT_RATE n) = r) →
        (s.lane (2 * p)).step = none → (s.lane (2 * p + 1)).step = none →
        exec (.stepIssue p wait) s = .next (State.settle (each ls (fun t n =>
          ((t.setLane n .step).modLane n fun l => { l with
              step := some (StepSt.mk (r + 1) r time false false true false), eq := {} }).sendTrain n
            (trainStep false (r + 1) time)) (s.forgetAligned p))))
    ∧ (∀ p : PoundIx, s.nextStep p = none → exec (.stepTime p) s = .next s.settle)
    ∧ (∀ (p : PoundIx) x u v, s.nextStep p = some x.time → (s.lane (2 * p)).step = some x → x.switched = false →
        u = (s.advanceTo x.time).modLane (2 * p) (fun l => { l with step := some { x with switched := true }, eq := {} }) →
        (s.lane (2 * p + 1)).step = none → v = u.setRate (2 * p) x.newRate (u.startTaps (2 * p) x.newRate) →
        exec (.stepTime p) s = .next (State.settle (if 2 ≤ x.newRate then v.sendTrain (2 * p)
          (layBytes 16 [(0, 1, 6), (12, 1, (v.lane (2 * p)).reqSeq.toNat)]) else v)))
    ∧ (∀ (n : LaneIx) b x, bargeOk b → (s.lane n).step = none → s.laneState n = .running ∨ s.laneState n = .enum →
        x = StepSt.mk (leAt b.payload 2 1 % 4) (s.rd (R.CNL_LANE_STAT_RATE n)) (leAt b.payload 4 8)
          ((leAt b.payload 1 1).testBit 4) false false false → exec (.stepReceived n b) s =
          .next (((s.setLane n .step).modLane n fun l => { l with step := some x, eq := {} }).forgetAligned (poundOf n)).settle)
    ∧ (∀ (p : PoundIx) n ls x r v, s.steppedLanes p = n :: ls → (s.lane n).step = some x → r = s.rd (R.CNL_LANE_STAT_RATE n) →
        s.allAligned p r = true → (x.reverted = true ∨ s.plantNs ≤ x.time + 4000000) →
        v = State.modPound (each (n :: ls) (fun t m => t.sendTrain m (trainConfirm r x.time)) s) p
          (fun q => { q with confirmed := r }) →
        exec (.confirm p) s =
          .next (State.settle (each (n :: ls) State.endStep (if x.reverted then v else v.poundRate p r false))))
    ∧ (∀ (p : PoundIx) n ls x, s.steppedLanes p = n :: ls → (s.lane n).step = some x →
        (s.allAligned p (s.rd (R.CNL_LANE_STAT_RATE n)) = false ∨ (x.reverted = false ∧ x.time + 4000000 < s.plantNs)) →
        exec (.confirm p) s = .next s.settle)
    ∧ (∀ (n : LaneIx) b x r, (s.lane n).step = some x → bargeOk b → x.lead = false → r = leAt b.payload 2 1 % 4 →
        exec (.confirmReceived n b) s = .next (State.settle (State.enterRunning
          (((if s.rd (R.CNL_LANE_STAT_RATE n) = r then s else s.setRate n r (SMap.get (fun _ => preset r) (s.lane n).taps r)).modPound
            (poundOf n) fun q => { q with confirmed := r }).modLane n fun l => { l with step := none }) n)))
    ∧ (∀ (p : PoundIx) x u v w, s.lateLanes p = [2 * p.val] → (s.lane (2 * p)).step = some x →
        u = (s.advanceTo ((x.time : Int) + 5000000)).modLane (2 * p) (fun l => { l with step := some { x with reverted := true } }) →
        v = ((u.setRate (2 * p) x.oldRate (SMap.get (fun _ => preset x.oldRate) (u.lane (2 * p)).taps x.oldRate)).inc
          (R.CNL_LANE_ERR_STEP_FAIL (2 * p))).forgetAligned p →
        w = each (v.ownLanes p) (fun t n => t.wr (R.CNL_LANE_STAT_CAP_RATE n) x.oldRate) v →
        exec (.stepRevert p) s = .next (State.settle (if x.lead then (w.raise 0x022 p).poundRate p x.oldRate true else v)))
    ∧ (∀ p : PoundIx, s.lateLanes p = [] → exec (.stepRevert p) s = .next s.settle)

/-- Taps, hops and loss of lock (R123, R132 to R136, R138, R139): an EQ_REQ moves the taps by a step and is answered,
at the rates whose taps are not fixed; forced taps are held; an EQ_RSP is the receiver's to judge, and once tuning
ends by R134 the far taps go to the best setting seen; a lane alone sends a hop-scope STEP to the pound's rate,
switches with it and is confirmed, or fails and backs off; invalid symbols are counted, and a running lane that loses
lock says so, and starts again. -/
def Obligations.TapsAndLoss : Prop :=
  ∀ s : State, s.collects = true →
    (∀ (n : Fin 28) b, bargeOk b → n.val < 24 → 2 ≤ s.rd (R.CNL_LANE_STAT_RATE n) →
      (∀ t, (s.lane n).forced = some t → exec (.eqReqReceived n b) s = .next (s.sendTrain n (layBytes 16 [(0, 1, 7),
          (2, 1, s.rd (R.CNL_LANE_TAPS_TX_PRE n)), (3, 1, s.rd (R.CNL_LANE_TAPS_TX_POST n)), (4, 1, 2),
          (12, 1, leAt b.payload 12 1)])).settle)
      ∧ (∀ x y, (s.lane n).forced = none → x = moveTap 7 (s.rd (R.CNL_LANE_TAPS_TX_PRE n)) (leAt b.payload 2 1) →
          y = moveTap 15 (s.rd (R.CNL_LANE_TAPS_TX_POST n)) (leAt b.payload 3 1) →
          exec (.eqReqReceived n b) s = .next ((s.setTaps n (x.1, y.1)).sendTrain n (layBytes 16 [(0, 1, 7),
            (2, 1, x.1), (3, 1, y.1), (4, 1, if x.2 || y.2 then 1 else 0), (12, 1, leAt b.payload 12 1)])).settle))
    ∧ (∀ (n : Fin 28) b, bargeOk b → (24 ≤ n.val ∨ s.rd (R.CNL_LANE_STAT_RATE n) < 2) →
        exec (.eqReqReceived n b) s = .next s.settle)
    ∧ (∀ (n : LaneIx) b eye (x y : Fin 3) u e f done, bargeOk b →
        u = ((s.wr (R.CNL_LANE_TAPS_FAR_PRE n) (leAt b.payload 2 1)).wr (R.CNL_LANE_TAPS_FAR_POST n)
          (leAt b.payload 3 1)).wr (R.CNL_LANE_TAPS_EYE n) (min eye 255) → e = (s.lane n).eq →
        f = (if e.settling then e else if e.best < eye then {
            asked := e.asked + 1, noGain := 0, best := eye, bestPre := leAt b.payload 2 1, bestPost := leAt b.payload 3 1 }
          else { e with asked := e.asked + 1, noGain := e.noGain + 1 }) →
        done = (f.settling || decide (96 ≤ f.best) || decide (8 ≤ f.noGain) || decide (64 ≤ f.asked)) →
        exec (.eqRspReceived n b eye x y) s = .next (State.settle
          (if done = false then (u.modLane n fun l => { l with eq := { f with settling := done } }).sendEqReq n x y
            else if leAt b.payload 4 1 = 2 ∨ (leAt b.payload 2 1 = f.bestPre ∧ leAt b.payload 3 1 = f.bestPost) then
              u.modLane n fun l => { l with eq := { f with settling := done } }
            else (u.modLane n fun l => { l with eq := { f with settling := done } }).sendEqReq n
              (towardTap (leAt b.payload 2 1) f.bestPre) (towardTap (leAt b.payload 3 1) f.bestPost))))
    ∧ (∀ (n : LaneIx) r t, (s.lane n).alone = true → s.laneState n = .step → r = (s.pound (poundOf n)).confirmed →
        t = s.plantNs + 200000 →
        ((s.lane n).step = none → (∀ m ∈ s.ownLanes (poundOf n), (s.lane m).step = none) → s.rd (R.CNL_LANE_STAT_RATE n) ≠ r →
          exec (.hopRejoin n true) s = .next ((s.modLane n fun l => { l with
              step := some (StepSt.mk r (s.rd (R.CNL_LANE_STAT_RATE n)) t true false true false), eq := {} }).sendTrain n
            (trainStep true r t)).settle)
        ∧ (∀ x, (s.lane n).step = some x → x.switched = true → exec (.hopRejoin n true) s =
            .next ((s.sendTrain n (trainConfirm x.newRate x.time)).enterRunning n).settle)
        ∧ (∀ u, u = ((((s.inc (R.CNL_LANE_STAT_RETRIES n)).inc (R.CNL_LANE_ERR_STEP_FAIL n)).laneOff n).setLane n .absent).wrB
              (R.CNL_LANE_STAT_WAS_ABSENT n) true →
            exec (.hopRejoin n false) s = .next (u.event 1 3 [(16, 1, n), (17, 1, 4), (18, 2, backoffMs
              (u.rd (R.CNL_LANE_STAT_RETRIES n)))]).settle))
    ∧ (∀ (n : Fin 28) (c : Fin 4) xs t u, s.laneState n = .running ∨ s.laneState n = .step →
        t = s.incBy (R.CNL_LANE_ERR_INVALID n) (invalidCount xs) →
        u = ((((t.wrB (R.CNL_LANE_STAT_LOST n) true).inc (R.CNL_LANE_ERR_LOSS_CNT n)).event 1 2
          [(16, 1, n), (17, 1, c.val + 1)]).raise (if isLink n then 0x021 else 0x020) n) →
        exec (.laneLost n ⟨c, xs⟩) s = .next (State.settle (if c = 1 ∧ burst xs = false then t
          else if c = 3 then (u.laneOff n).modLane n fun l => { l with quadOff := true } else u.enterDetect n)))

/-- Upstream barges (R152, R153, R155, R168, R173, R176 to R178): a barge with a bad CRC or LENGTH is discarded, and
counted where its CRC is inverted or its LENGTH wrong; one heard on a running lane of its pound is passed to the
partner in a pair and taken by its type; a state that is due and in its window is accepted, any other is discarded; a
FAULT known already is not taken again; the answer to a request ends it, and so does its time-out; a relayed barge is
taken as heard or transmitted. Hop delays (R157, R159, R165): half of the round trip less the turn is the delay that
answers the request sent last; the first one is kept, one far from the mean is discarded; a request is answered with
the turn. -/
def Obligations.BargesAreTaken : Prop :=
  (∀ s : State, s.collects = true →
      (∀ (n : LaneIx) b t u, s.runs n = true → b.pound = poundOf n → s.looped (poundOf n) = false →
        u = (if s.is R.RED_CTL_PAIRED && b.crc = b.goodCrc then s.sendRelay 1 n b else s) →
        (b.typ = 2 ∨ b.typ = 3 → exec (.stateBargeReceived n b t) s = .next (u.stateFrom (isWest n) b t).settle)
        ∧ (b.typ = 7 → exec (.faultBargeReceived n b) s = .next (u.faultFrom b).settle)
        ∧ (b.typ = 6 → exec (.serviceRspReceived n b) s = .next (u.serviceFrom b).settle))
      ∧ (∀ (n : LaneIx) b t, (s.runs n = false ∨ b.pound ≠ poundOf n ∨ s.looped (poundOf n) = true) →
        exec (.stateBargeReceived n b t) s = .next s.settle ∧ exec (.faultBargeReceived n b) s = .next s.settle
        ∧ exec (.serviceRspReceived n b) s = .next s.settle)
      ∧ (∀ p b f, (bargeOk b → s.screen p b f = f s)
        ∧ (b.crc ≠ b.goodCrc → b.crc = ~~~b.goodCrc → p < s.poundCount → s.screen p b f = s.inc (R.CNL_POUND_ERR_STOMPED p))
        ∧ (b.crc ≠ b.goodCrc → b.crc ≠ ~~~b.goodCrc → s.screen p b f = s)
        ∧ (b.crc = b.goodCrc → b.length ≠ bargeWords b.typ →
            s.screen p b f = { s with cnl := { s.cnl with malformed := s.cnl.malformed + 1 } }))
      ∧ (∀ west b t g k, bargeOk b → b.pound < s.poundCount → b.position < 16 → g = 16 * b.pound + b.position →
          s.reached g = true → s.is (R.CNL_CELL_STAT_END g) = west → k = s.dueSample b.pound → b.cycle = k % 65536 →
          b.hops = s.rd (R.CNL_CELL_STAT_DEPTH g) → s.isOut b.pound = false →
          s.stateFrom west b t = if s.inUplink b.pound t then
            ((((s.acceptState g k b).showNode g).cellNews g k).takeClosure g).prechargeDone b.pound else s)
      ∧ (∀ b seq, bargeOk b → b.pound < s.poundCount → seq = leAt b.payload 3 1 →
          b.position < s.rd (R.CNL_POUND_CTL_FITTED b.pound) →
          (∃ p, s.flt.acks.find? (fun p => p.1 = 16 * b.pound + b.position) = some p ∧ p.2.contains seq = true) →
          s.faultFrom b = s)
      ∧ (∀ b g r, bargeOk b → g = 16 * b.pound + b.position → (s.link g).service = some r → r.sent = some b.seq →
          s.serviceFrom b = s.serviceDone g r (leAt b.payload 2 1) (if r.op = 1 then leAt b.payload 8 (4 * r.len) else 0))
      ∧ (∀ (g : CellIx) r, (s.link g).service = some r →
          exec (.serviceReqTimeout g) s = .next (State.settle (if r.sent.isSome then s.serviceDone g r 0x10 0 else s)))
      ∧ (∀ (l : Fin 4) (n : LaneIx) b t, s.runs (24 + l) = true → s.ownEnd n = false →
          exec (.relayReceived l 1 n ⟨b, t⟩) s = .next (s.upstream n b t).settle)
      ∧ (∀ (l : Fin 4) k (n : LaneIx) x, s.runs (24 + l) = true → k ≠ 1 → k ≠ 2 → exec (.relayReceived l k n x) s =
          .next (State.settle { s with cnl := { s.cnl with malformed := s.cnl.malformed + 1 } }))
      ∧ (∀ (l : Fin 4) (n : LaneIx) b t c, s.runs (24 + l) = true → s.ownEnd n = true → s.runs n = true → bargeOk b →
          (s.gateOpen = true ∨ s.is R.RED_PARTNER_LINE = true ∨ b.typ = 4) → c = { b with flags := b.flags ||| 4 } →
          exec (.relayReceived l 2 n ⟨b, t⟩) s = .next (s.emit (.barge n { c with crc := c.goodCrc })).settle)
      ∧ (∀ n b t, (b.typ = 2 ∨ b.typ = 3 → s.upstream n b t = s.stateFrom (isWest n) b t)
        ∧ (b.typ = 7 → s.upstream n b t = s.faultFrom b) ∧ (b.typ = 6 → s.upstream n b t = s.serviceFrom b)
        ∧ (b.typ = 10 → bargeOk b → leAt b.payload 0 1 = 3 → s.upstream n b t = s.nodeReport n b)))
  ∧ (∀ (s : State) (n : LaneIx) b, s.collects = true → bargeOk b →
      (∀ rtt d u v, leAt b.payload 0 1 = 9 → (s.lane n).delaySeq.map (·.toNat) = some (leAt b.payload 12 1) →
        u = s.modLane n (fun l => { l with delaySeq := none }) → d = (stamped rtt - leAt b.payload 4 4) / 2 →
        v = u.modLane n (fun l => { l with delays := (d :: l.delays).take 8 }) →
        exec (.delayMeasurement n rtt b) s = .next (State.settle
          (if !(u.lane n).delays.isEmpty && (u.laneDelay n + 65536 < d || d + 65536 < u.laneDelay n) then
            u.modLane n fun l => { l with discarded := l.discarded + 1 }
          else (v.showPaths (poundOf n)).capByDelay (poundOf n))))
      ∧ (∀ rtt, (leAt b.payload 0 1 ≠ 9 ∨ (s.lane n).delaySeq.map (·.toNat) ≠ some (leAt b.payload 12 1)) →
          exec (.delayMeasurement n rtt b) s = .next s.settle)
      ∧ (∀ turn, s.laneState n ≠ .off → s.laneState n ≠ .detect → s.laneState n ≠ .absent →
          exec (.delayReqReceived n turn b) s = .next (s.sendTrain n (layBytes 16 [(0, 1, 9), (4, 4, stamped turn),
            (12, 1, leAt b.payload 12 1)])).settle))

/-- The towpath (R144, R145, R148): a keep-alive starts on each enabled port, with its bits on the line; a frame with
a bad CRC is counted, a good one shows what it carries, and the second in a row brings the port up; with none in 40.96
µs the port is lost. -/
def Obligations.TowpathPorts : Prop :=
  ∀ s : State, s.collects = true →
    (s.towpathSends = true → exec .towpathKeepaliveSend s = .next (State.settle (each ((List.range 12).filter fun p => s.portOn p)
      (fun t p => (t.emit (.keepAlive p (t.keepAlive p) (towpathLine (t.keepAlive p)))).modPort p fun q => { q with seq := q.seq + 1 }) s)))
    ∧ (s.towpathSends = false → exec .towpathKeepaliveSend s = .next s.settle)
    ∧ (∀ (p : PoundIx) f, s.portOn p = false → exec (.towpathFrameReceived p f) s = .next s.settle)
    ∧ (∀ (p : PoundIx) f, s.portOn p = true → (f.length ≠ 12 ∨ leAt f 10 2 ≠ (keepAliveCrc f).toNat) →
        exec (.towpathFrameReceived p f) s = .next ((s.inc (R.CNL_TP_ERR_CRC_ERR p)).modPort p fun q => { q with good := 0 }).settle)
    ∧ (∀ (p : PoundIx) f u v, s.portOn p = true → f.length = 12 → leAt f 10 2 = (keepAliveCrc f).toNat →
        u = (((s.wr (R.CNL_TP_STAT_STATE p) (leAt f 8 1)).wr (R.CNL_TP_STAT_SEQ p) (leAt f 3 1)).wrB (R.CNL_TP_STAT_ORIGIN p)
          ((leAt f 1 1).testBit 3)).wrB (R.CNL_TP_STAT_TURNED p) ((leAt f 1 1).testBit 2) →
        v = ((u.wr (R.CNL_TP_MAP_ALIVE p) (leAt f 4 2)).wr (R.CNL_TP_MAP_FAULT p) (leAt f 6 2)).modPort p
          (fun q => { q with good := min 2 (q.good + 1) }) →
        ((v.port p).good < 2 ∨ v.is (R.CNL_TP_STAT_UP p) = true → exec (.towpathFrameReceived p f) s = .next v.settle)
        ∧ (2 ≤ (v.port p).good → v.is (R.CNL_TP_STAT_UP p) = false → exec (.towpathFrameReceived p f) s =
          .next ((v.wrB (R.CNL_TP_STAT_UP p) true).event 1 6 [(16, 1, p), (17, 2, leAt f 4 2)]).settle))
    ∧ (∀ p : PoundIx, s.is (R.CNL_TP_STAT_UP p) = true → exec (.towpathLost p) s = .next
        ((((((s.wrB (R.CNL_TP_STAT_UP p) false).wrB (R.CNL_TP_STAT_LOST p) true).inc (R.CNL_TP_ERR_LOSS_CNT p)).modPort p
          fun q => { q with good := 0 }).event 1 5 [(16, 1, p)]).raise 0x023 p).settle)
    ∧ (∀ p : PoundIx, s.is (R.CNL_TP_STAT_UP p) = false →
        exec (.towpathLost p) s = .next (s.modPort p fun q => { q with good := 0 }).settle)

/-! ### Cells, energy and records -/

/-- Time limits of cells and pounds (R227, R228, R232, R234, R235, R241, R261): a pre-charge too long disables the
pound; STOPPING ends with the pound DISABLED, and the cells that have not reported FAILED; a bypass not confirmed and
a rejoin too long are reported; a pound long OUT is told to bypass; a shut-down's ramp ends in IDLE, at the next mark
while marks run; a sluicing cell too slow ends with its fault. Signed records (R265, R266, R414): a record that is
ready is signed and written where it was asked for, its sequence number moves on, and the ready event tells the tag
and whether the write succeeded. -/
def Obligations.CellTimersEnd : Prop :=
  (∀ s : State, s.collects = true →
      (∀ (p : PoundIx) u, s.poundState p = 1 → u = { s with tsn := { s.tsn with
          local_ := max s.tsn.local_ ((s.pmgr p).since + s.rd R.CELL_TMO_PRECH_TMO * 500000) } } →
        exec (.prechargeTimeout p) s = .next ((((u.setRoles (u.cellsIn (poundCells p) [.charging]) .disabled).setPound p 0 3).raise
          0x062 p).regroupAll.settle))
      ∧ (∀ (p : PoundIx) t u, s.poundState p = 4 → t = (if (s.pmgr p).waiting = [] then s else { s with tsn := { s.tsn with
            local_ := max s.tsn.local_ ((s.pmgr p).since + s.rd R.CELL_TMO_BYP_TMO * 500000) } }) →
          u = each ((s.pmgr p).waiting.filter fun g => t.cellRole g ≠ .failed) (fun v g =>
            ((v.setRole g .failed).roleEvent g (v.cellRole g) .failed 0xFF06).raise 0x060 g) t →
          exec (.stoppingEnd p) s = .next (((((u.setRoles (u.cellsIn (poundCells p) [.disabled, .parked, .charging, .ready, .active, .rejoining])
            (if u.grid = 0 then .disabled else .parked)).modPmgr p fun x => { x with waiting := [] }).setPound p 0 4).regroupAll.retryAll
              0x40 (fun d => d.le 4 1 = p.val) (ownPoundEnable false)).settle))
      ∧ (∀ (g : CellIx) t u, (s.cellAt g).bypassAt = some t → (s.cellAt g).bypassTold = false → u = { s with tsn :=
            { s.tsn with local_ := max s.tsn.local_ (t + s.rd R.CELL_TMO_BYP_TMO * 500000) } } →
          exec (.bypassTimeout g) s = .next (((u.modCell g fun c => { c with bypassTold := true }).event 3 7 [(16, 2, g)]).raise 0x063 g).settle)
      ∧ (∀ (g : CellIx) back u, s.cellRole g = .rejoining → back = CellRole.ofCode (s.cellAt g).former → u = { s with tsn :=
            { s.tsn with local_ := max s.tsn.local_ ((s.cellAt g).since + s.rd R.CELL_TMO_PRECH_TMO * 500000) } } →
          exec (.rejoinTimeout g) s = .next ((u.setRole g back).roleEvent g .rejoining back 0xFF08).regroupAll.settle)
      ∧ (∀ p : PoundIx, s.isOut p = true → s.grid ≠ 0 → s.rd R.CELL_TIMING_OUT_TMO ≤ (s.pound p).outCycles →
          exec (.outTimeout p) s = .next (s.modPmgr p fun x => { x with outBypass := true }).settle)
      ∧ (∀ x u, s.cell.shut = some x → u = s.advanceTo ((x.since : Int) + (s.rd R.CELL_IDLE_RAMP_RAMP : Int) * 1000000) →
          (s.marksRun = true → exec .shutdownRampEnd s = .next (State.settle { u with cell := { u.cell with
            shut := some { x with ended := true } } }))
          ∧ (s.marksRun = false → exec .shutdownRampEnd s = .next ((u.rampStep x.start 1 1).reachIdle).settle))
      ∧ (s.cell.shut = none → exec .shutdownRampEnd s = .next s.settle)
      ∧ (∀ (g : CellIx) u, s.rd R.NRG_STAT_SLUICE = 1 → s.cellRole g = .sluicing → u = { s with tsn := { s.tsn with
            local_ := max s.tsn.local_ ((s.cellAt g).since + s.rd R.NRG_SLUICE_TMO * 500000) } } →
          exec (.sluiceCellTimeout g) s = .next ((u.sluiceCellEnd g false).raise 0x084 g).settle))
  ∧ (∀ s : State, s.collects = true →
      (∀ j b u v, s.nrg.record = some j → j.body = some b → u = (s.signature b).2 →
        (v = u.emit (.record j.addr (b ++ (s.signature b).1)) → exec (.recordReady true) s = .next (State.settle (State.event
          { v with nrg := { v.nrg with record := none, recordSeq := v.nrg.recordSeq + 1 } } 4 8
            [(16, 4, leAt b 4 4), (20, 2, j.tag), (22, 1, 0)])))
        ∧ (v = u.raiseWith 0x00B 0 { addr := j.addr, access := 4 } → exec (.recordReady false) s = .next (State.settle (State.event
          { v with nrg := { v.nrg with record := none, recordSeq := v.nrg.recordSeq + 1 } } 4 8
            [(16, 4, leAt b 4 4), (20, 2, j.tag), (22, 1, 1)]))))
      ∧ (∀ j b u v, s.attestAtMark.sec.attest = some j → j.body = some b → u = (s.signature b).2 →
        (v = u.emit (.record j.addr (b ++ (s.signature b).1)) → exec (.attestReady true) s = .next (State.settle (State.event
          { v with sec := { v.sec with attest := none, attestSeq := v.sec.attestSeq + 1 } } 0xC 3
            [(16, 4, leAt b 4 4), (20, 2, j.tag), (22, 1, 0)])))
        ∧ (v = u.raiseWith 0x00B 0 { addr := j.addr, access := 4 } → exec (.attestReady false) s = .next (State.settle (State.event
          { v with sec := { v.sec with attest := none, attestSeq := v.sec.attestSeq + 1 } } 0xC 3
            [(16, 4, leAt b 4 4), (20, 2, j.tag), (22, 1, 1)])))))

/-! ### Metering, pulse outputs, comparators and drives -/

/-- Fine and fast results (R272 to R280, R283, R285): each channel's result is scaled and judged, goes to its routes
and its trackers, then into every accumulator, and the windows that end with it close; an instant is taken once, in
RUN and HOLD; a fast result feeds the trackers of that path, that of an interleaved modulator those of the channel
below it. -/
def Obligations.ResultsAreTaken : Prop :=
  ∀ s : State, s.collects = true →
    (∀ n xs u res v w x, s.fineDue = true → n ≠ s.mtr.fine → u = s.advanceTo (((n * 250000 : Nat) : Int) + 1550000) →
      res = State.fineValues { u with mtr := { u.mtr with fine := n } } xs →
      v = each res State.takeFine { u with mtr := { u.mtr with fine := n } } →
      w = each v.accsInUse (fun t a => t.accTake n (fineNumber res) a) v →
      x = each ((List.range 32).filter fun k => w.is (R.MTR_TRK_CFG_EN k)) (fun t k => t.trackerEnd n k) w →
      exec (.fineResult n xs) s = .next x.injectedPassed.settle)
    ∧ (∀ n xs, s.fineDue = false ∨ n = s.mtr.fine → exec (.fineResult n xs) s = .next s.settle)
    ∧ (∀ xs c v ok, (c, v, ok) ∈ s.fineValues xs ↔ ∃ x ∈ (xs : List Sample), x.channel = c ∧ isChannel c = true
        ∧ s.interleaved c = false ∧ v = s.scaled c x.x ∧ ok = s.resultValid c (x.clean && !s.divided fineSpan))
    ∧ (∀ c v ok u, u = (s.wrB (R.MTR_CH_STAT_VALID c) ok).writeRoutes 2 c v ok →
        s.takeFine (c, v, ok) = if ok then u.feedTrackers 1 c v else u)
    ∧ (∀ n val a u, u = s.accAdd a val → s.accTake n val a = if u.rd (R.MTR_ACC_CFG_WIN a) ≠ 0 ∧
        n % u.rd (R.MTR_ACC_CFG_WIN a) = 0 then u.accBoundary a (n * 250000) else u)
    ∧ (∀ (x : Sample) c, c = (if s.interleaved x.channel then x.channel - 1 else x.channel) →
        exec (.fastPathResult x) s = .next (State.settle (if s.metering && s.validBy x.channel c (x.clean && !s.divided fastSpan)
          then s.feedTrackers 0 c (s.scaledBy x.channel c x.x) else s)))

/-- Inputs and calibration (R272, R284, R285): an overload of an on-chip channel or a stuck stream of another is
shown, told and faulted; a clear channel shows neither; the sources' ACTIVE bits follow the channels' status (log
entry 35); the rotation takes one slice at a time and measures it with the spare in its place, within its limits. -/
def Obligations.InputsAndCalibration : Prop :=
  ∀ s : State, s.collects = true →
    (∀ c : Fin 64, isChannel c = true →
      (c.val < 40 → exec (.inputState c 1) s = .next (((s.wrB (R.MTR_CH_STAT_OVR c) true).event 5 4
        [(16, 1, c), (17, 1, 1)]).raise 0x0A0 c).judgeInputs.settle ∧ exec (.inputState c 2) s = .next s.judgeInputs.settle)
      ∧ (40 ≤ c.val → exec (.inputState c 2) s = .next (((s.wrB (R.MTR_CH_STAT_STUCK c) true).event 5 4
        [(16, 1, c), (17, 1, 2)]).raise 0x0A1 c).judgeInputs.settle ∧ exec (.inputState c 1) s = .next s.judgeInputs.settle)
      ∧ (s.is (R.MTR_CH_STAT_OVR c) = true ∨ s.is (R.MTR_CH_STAT_STUCK c) = true → exec (.inputState c 0) s =
          .next (((s.wrB (R.MTR_CH_STAT_OVR c) false).wrB (R.MTR_CH_STAT_STUCK c) false).event 5 4 [(16, 1, c)]).judgeInputs.settle))
    ∧ (∀ g o u, s.mtr.calStep = 0 → s.is R.MTR_CTL_CAL_EN = true → s.calBlocked = false →
        u = ((s.wrB R.MTR_CAL_STAT_PAUSED false).wrB R.MTR_CAL_STAT_RUNNING true).wr R.MTR_CAL_STAT_SLICE s.mtr.calNext →
        s.mtr.calNext < 40 → exec (.calSliceStep g o) s = .next (State.settle { u with mtr := { u.mtr with calStep := 1 } }))
    ∧ (∀ g o n u, n = s.rd R.MTR_CAL_STAT_SLICE →
        (s.mtr.calStep = 1 → u = (s.wrB (R.MTR_CH_STAT_SUBST n) true).markCal n →
          exec (.calSliceStep g o) s = .next (State.settle { u with mtr := { u.mtr with calStep := 2 } }))
        ∧ (s.mtr.calStep = 2 → exec (.calSliceStep g o) s = .next (State.settle { s with mtr := { s.mtr with calStep := 3 } }))
        ∧ (s.mtr.calStep = 3 → u = s.calAccept n g o → exec (.calSliceStep g o) s = .next (State.settle
          (match u.mtr.waiting with
            | some c => State.diagStart { u with mtr := { u.mtr with calStep := 4 } } c
            | none => { u with mtr := { u.mtr with calStep := 4 } })))
        ∧ (s.mtr.calStep = 4 → n < 40 → exec (.calSliceStep g o) s = .next (State.settle { s with mtr := { s.mtr with calStep := 5 } }))
        ∧ (n < 40 → fFinite g = true → fFinite o = true →
          fLe (fAbs g) 0x3BA3D70A#32 = true → fLe (fAbs o) 0x3B03126F#32 = true → s.calAccept n g o =
            State.wr (State.wr { s with mtr := { s.mtr with corr := SMap.put (fun _ => (0#32, 0#32)) s.mtr.corr n (g, o) } }
              (R.MTR_CH_STAT_GAIN_CORR n) (uxSat 16 (roundRat (fRat g * 5000000)))) (R.MTR_CH_STAT_OFS_CORR n)
              (uxSat 8 (roundRat (fRat o * 50000))))
        ∧ (s.mtr.calStep = 5 →
          exec (.calSliceStep g o) s = .next ((s.wrB (R.MTR_CH_STAT_SUBST n) false).markCal n).calSliceEnd.settle))

/-- Pulse outputs and comparators (R292, R295, R301, R302, R306, R308, R310): a running group loads at its boundary if
armed and then restarts; a stopped one does nothing; a trip pin shows its level and cuts; a live comparator channel
follows its inputs, and one not powered reports nothing. -/
def Obligations.BoundariesAndTrips : Prop :=
  ∀ s : State, s.collects = true →
    (∀ (g : Fin 8) blank, s.pwmRuns g = true →
      exec (.pwmPeriodBoundary g blank) s = .next (s.pwmBoundary g (!s.is (R.PWM_GRP_CTL_SYNC g)) blank).settle)
    ∧ (∀ (g : Fin 8) blank, s.pwmRuns g = false → exec (.pwmPeriodBoundary g blank) s = .next s.settle)
    ∧ (∀ (g : Fin 8) load u, u = (if load && s.is (R.PWM_GRP_STAT_ARMED g) then s.loadGroup g else s) →
        (∀ c, c < 64 → u.is (R.CMP_CH_CFG_EN c) = false) →
        s.pwmBoundary g load 0 = each (u.pwmMembers g) State.pwmRestart u)
    ∧ (∀ (n : Fin 8) u, exec (.tripInAsserted n true) s = .next (State.readTripIn { s with pwm := { s.pwm with
          pins := s.pwm.pins ||| BitVec.ofNat 8 (2 ^ n.val) } }).settle
        ∧ (u = ({ s with pwm := { s.pwm with pins := s.pwm.pins &&& ~~~BitVec.ofNat 8 (2 ^ n.val) } } : State) →
          exec (.tripInAsserted n false) s = .next u.readTripIn.settle))
    ∧ (∀ (c : Fin 64) hi lo bl, s.cmpLive c = true → exec (.comparatorAsserted c hi lo bl) s =
        .next (((s.cmpSide c true hi bl).cmpSide c false lo bl).showCmp [c.val]).settle)
    ∧ (∀ (c : Fin 64) hi lo bl, s.cmpLive c = false → exec (.comparatorAsserted c hi lo bl) s = .next s.settle)
    ∧ (∀ (c : Fin 64) hi on bl, s.cmpLive c = true → s.is (cmpUnres c hi) = true → exec (.comparatorResolved c hi on bl) s =
        .next (((s.wrB (cmpUnres c hi) false).cmpSide c hi on bl).showCmp [c.val]).settle)
    ∧ (∀ c hi on bl, s.is (cmpUnres c hi) = false → s.senses c hi = true → s.is (R.CMP_CH_STAT_ESCALATED c) = false →
        ∀ u, u = s.wrB (cmpRaw c hi) on → u.senses c hi = true → u.is (R.CMP_CH_STAT_ESCALATED c) = false →
        s.cmpSide c hi on bl = if on = true ∧ (bl = false ∨ u.cmp.watch.isSome = true) then u.setLatchOf c hi else u)

/-- Drives (R318, R319, R328, R330): a fault input that is enabled faults its drive; a decision runs the observer and
the control of a turning drive; a probe set with too little current finds a rotor at rest; alignment ends in RUNNING;
a coast ends stopped or in a new catch; a second without loss clears the count; at a seat that takes
the claim a drive that its partner had stopped is stopped with what the partner's copy held of it (R373). -/
def Obligations.DrivesTakeTheirSteps : Prop :=
  ∀ (s : State) (d : Fin 4), s.collects = true →
    (∀ a t u, t = State.wrB { s with aux := { s.aux with
          pins := (if a then s.aux.pins ||| BitVec.ofNat 4 (2 ^ d.val) else s.aux.pins &&& ~~~BitVec.ofNat 4 (2 ^ d.val)) } }
            (R.AUX_STAT_FLT_IN d) a →
        u = t.setActive 0x100 ([0, 1, 2, 3].any fun e => t.is (R.AUX_STAT_FLT_IN e) && t.is (R.AUX_CTL_FLT_EN e)) →
      (a = true → u.is (R.AUX_CTL_FLT_EN d) = true →
        exec (.auxFaultIn d a) s = .next ((u.event 8 5 [(16, 1, d)]).driveFault d 0x100 4).settle)
      ∧ (a = false ∨ u.is (R.AUX_CTL_FLT_EN d) = false → exec (.auxFaultIn d a) s = .next u.settle))
    ∧ (∀ xs, (s.drive d).adopt = none →
        (s.driveState d = .running ∨ s.driveState d = .stopping → exec (.auxDecision d xs) s =
          .next ((s.takeShunt d xs).decide_ d).settle)
        ∧ (s.driveState d ≠ .running → s.driveState d ≠ .stopping → s.driveState d ≠ .aligning →
          exec (.auxDecision d xs) s = .next s.settle))
    ∧ (∀ st a b r i u, (s.drive d).adopt = some (st, a, b, r, i) → s.driveState d ≠ .fault → Drive.ofCode st = .stopped →
        u = ((s.modDrive d fun v => { v with adopt := none }).setDrive d .stopped 1).modDrive d
          (fun v => { v with psiA := a, psiB := b, ramped := r, integ := i }) → s.adoptDrive d = u)
    ∧ (∀ xs p, s.driveState d = .catching → s.probeOf d xs = some p → p.m2 < s.par (R.AUX_CATCH_I_MIN d) * s.par (R.AUX_CATCH_I_MIN d) →
        exec (.auxProbeSet d xs) s = .next (s.probeLow d p).settle)
    ∧ (∀ xs p, s.driveState d = .catching → s.probeOf d xs = some p → ¬ p.m2 < s.par (R.AUX_CATCH_I_MIN d) * s.par (R.AUX_CATCH_I_MIN d) →
        (s.drive d).prevSet = none → exec (.auxProbeSet d xs) s =
          .next (s.modDrive d fun y => { y with low := 0, prevSet := some (p.iA, p.iB) }).settle)
    ∧ (∀ p, (s.drive d).low = 0 → s.probeLow d p = s.modDrive d fun y => { y with low := 1, prevSet := some (p.iA, p.iB) })
    ∧ (∀ u, s.driveState d = .aligning → u = s.advanceByTicks ((s.drive d).since + 500000 * s.rd (R.AUX_CTL_ALIGN_T d)) →
        exec (.auxAlignDone d) s = .next (u.driveRuns d 0 (u.f32 (R.AUX_PSI_M d)) 0 1).settle)
    ∧ (∀ u, s.driveState d = .coasting → u = s.advanceByTicks ((s.drive d).since + 5000000 * s.rd (R.AUX_TIME_COAST_T d)) →
        ((u.drive d).recatch = false → exec (.auxCoastEnd d) s = .next ((u.setDrive d .stopped 5).auxStopped d).settle)
        ∧ ((u.drive d).recatch = true → exec (.auxCoastEnd d) s = .next ((u.setDrive d .catching 3).modDrive d fun v =>
            { v with recatch := false, low := 0, prevSet := none, disagree := 0, rots := [], cur := [] }).settle))
    ∧ (s.driveState d = .running → exec (.recatchReset d) s =
        .next ((s.advanceByTicks ((s.drive d).since + 500000000)).wr (R.AUX_STAT_RECATCH_CNT d) 0).settle)

/-! ### The pair -/

/-- The claim (R357, R359 to R361, R363): a seat that sees its partner's line asserted while it claims is CONTESTED,
and seat B of a pair then releases; the line gone, a CONTESTED seat waits; a RELEASED seat that meets every condition
claims, and one whose partner shows a claim with its line gone for 2 µs has a line fault; the gate opens 2 µs after
the line went; a contest too long, a keeper not refreshed and the end of START_T have their effect. -/
def Obligations.ClaimsFollowTheLine : Prop :=
  ∀ s : State, s.collects = true →
    (∀ u v, s.is R.RED_PARTNER_LINE = false → u = s.wrB R.RED_PARTNER_LINE true →
      v = { u with red := { u.red with deassertedAt := none, everHeld := true } } →
      (v.paired = true → (v.setActive 0x143 false).claim = 0 →
        exec .partnerClaimAsserted s = .next (v.setActive 0x143 false).settle)
      ∧ (v.paired = true → ∀ w, w = v.setActive 0x143 false → w.claim ≠ 0 → exec .partnerClaimAsserted s =
          .next (if (w.claimTo 3 0).seatB then (w.claimTo 3 0).releaseClaim 8 else w.claimTo 3 0).settle)
      ∧ (v.paired = false → v.claim ≠ 0 →
          exec .partnerClaimAsserted s = .next (((v.claimTo 3 0).setActive 0x143 true).raise 0x143 0).settle))
    ∧ (∀ u v, s.is R.RED_PARTNER_LINE = true → u = s.wrB R.RED_PARTNER_LINE false →
        v = { u with red := { u.red with deassertedAt := some u.tsn.local_ } } → v.paired = true →
        (v.claim = 3 → exec .partnerClaimDeasserted s = .next (v.claimTo 1 0).settle)
        ∧ (v.claim ≠ 3 → exec .partnerClaimDeasserted s = .next v.settle))
    ∧ (∀ t, s.red.deassertedAt = some t → s.claim = 0 → s.paired = true → s.bootDone = true →
        (∀ u v, s.partnerReleased = true → s.mayClaim = true → u = s.advanceByTicks (t + 500) →
          v = { u with red := { u.red with coldTaken := !u.is R.RED_STAT_TAKE_READY && u.red.everHeld } } → exec .claimAssert s =
            .next (State.claimTo { v with red := { v.red with refreshedAt := v.tsn.local_ } } 1 1).settle)
        ∧ (s.partnerReleased = true → s.mayClaim = false → exec .claimAssert s = .next s.settle)
        ∧ (s.partnerReleased = false →
            exec .claimAssert s = .next (State.settle (if t + 1000 < s.tsn.local_ then s.lineFault else s))))
    ∧ (s.lineFault = if s.active 0x143 then s else ((s.inc R.RED_CNT_CONTEST).setActive 0x143 true).raise 0x143 0)
    ∧ (s.claim ≠ 0 ∨ s.red.deassertedAt = none → exec .claimAssert s = .next s.settle)
    ∧ (∀ t u v c, s.red.deassertedAt = some t → s.claim = 1 → u = (s.advanceByTicks (t + 1000)).claimTo 2 2 →
        (u.paired = false → exec .gateOpen s = .next u.settle)
        ∧ (u.paired = true → c = (if !u.red.everHeld then 3 else if u.is R.RED_STAT_LINK_UP then 2 else 1) →
            v = State.inc { u with red := { u.red with everHeld := true }, tsn := { u.tsn with holderSel := none } }
              R.RED_STAT_SWITCHES → ∀ w x, w = v.judgeSelection v.anyLocked → x = (if w.red.coldTaken then
                { w with red := { w.red with coldTaken := false }, sys := { w.sys with follow := some .hold } } else w) →
            exec .gateOpen s = .next (x.event 0xA 3 [(16, 1, c), (18, 2, min 65535 (if c = 3 then 0 else u.switchGap t))]).settle))
    ∧ (s.claim ≠ 1 → exec .gateOpen s = .next s.settle)
    ∧ (∀ u, s.paired = true → s.seatB = false → s.claim = 3 → u = (s.releaseClaim 8).raise 0x142 0 →
        exec .claimContestedTimeout s = .next (State.settle { u with red := { u.red with onlyLinked := true } }))
    ∧ (∀ u, s.paired = true → s.claim ≠ 0 → s.power ≠ .towpath → u = s.advanceByTicks (s.red.refreshedAt + s.keeperNs / 2) →
        exec .claimKeeperExpired s = .next (((u.inc R.RED_CNT_KEEPER).raise 0x141 0).releaseClaim 3).settle)
    ∧ (s.bootDone = true → exec .startTExpiry s = .next (State.settle { s with red := { s.red with startT := true } }))

/-- Messages of the pair (R358, R365 to R368, R370, R371, R376): a heartbeat shows the partner, is checked and
followed; a NOTICE shows its claim; a mirrored command waits for its mark at the standby; HEALTH is the holder's to
show; COPY segments gather; what is not for this seat leaves it as it is. Swaps (R379, R380): at APPLY of its cycle
the holder releases a confirmed claim and aborts an unconfirmed one; a swap ends with its result once the partner's
gate is open, or this seat's, and with its fault where it is not in time. -/
def Obligations.PairMessagesAreTaken : Prop :=
  (∀ s : State, s.collects = true →
      (∀ b r u v w x, s.paired = true → s.linkLanes ≠ [] → b.length = 128 → r = s.forgetFar b →
        u = ({ r with red := { r.red with partner := b, missed := 0 } } : State) →
        v = ((((u.wr R.RED_PARTNER_PART (leAt b 0 2)).wr R.RED_PARTNER_REV (leAt b 2 1)).wr R.RED_PARTNER_SEAT
          (leAt b 3 1 % 2)).wrB R.RED_PARTNER_VALID true) →
        w = ((((v.wrB R.RED_PARTNER_TAKE_READY ((leAt b 3 1).testBit 3)).wr R.RED_PARTNER_HEALTH
          (leAt b 5 1 % 4)).judgeLink.checkIdentity b).partnerClaim (leAt b 3 1 / 2 % 4)) →
        x = (if leAt b 3 1 / 2 % 4 = 2 then w.noteSent (w.fullCycle (leAt b 6 2)) else w).followHolder b →
        exec (.heartbeatReceived b) s = .next (State.settle (State.judgeTake
          (if v.is R.RED_PARTNER_TAKE_READY && !(leAt b 3 1).testBit 3 then x.swapAbort else x))))
      ∧ (∀ b, s.paired = false ∨ s.linkLanes = [] ∨ b.length ≠ 128 → exec (.heartbeatReceived b) s = .next s.settle)
      ∧ (∀ b u, s.paired = true → b.length = 4 → leAt b 1 1 ≠ 5 →
          u = (if s.rd R.RED_PARTNER_CLAIM = 2 ∧ leAt b 0 1 % 4 = 0 then s.noteSent (s.windowsAt s.nowNs).toNat else s) →
          exec (.noticeReceived b) s = .next (u.partnerClaim (leAt b 0 1 % 4)).settle)
      ∧ (∀ b d m, s.role = .standby → b.length = 36 → d = Desc.mk (BitVec.ofNat 8 (leAt b 0 1)) (BitVec.ofNat 8 (leAt b 1 1))
            (BitVec.ofNat 16 (leAt b 2 2)) ((b.drop 4).take 20) →
          m = Mirror.mk d (leAt b 24 1) (s.fullCycle (leAt b 28 2)) (BitVec.ofNat 32 (leAt b 32 4)) →
          exec (.mirrorReceived b) s = .next (State.settle { s with red := { s.red with mirrors := s.red.mirrors ++ [m] } }))
      ∧ (∀ b, s.role ≠ .standby → exec (.mirrorReceived b) s = .next s.settle ∧ exec (.copyReceived b) s = .next s.settle)
      ∧ (∀ b, s.role = .active → s.is R.RED_STAT_LINK_UP = true → b.length = 16 → exec (.healthReceived b) s =
          .next (s.setHealth (leAt b 14 1 % 4) (leAt b 6 2) (BitVec.ofNat 32 (leAt b 8 4))).settle)
      ∧ (∀ b x, s.is R.RED_STAT_LINK_UP = true → s.role = .standby → 8 ≤ b.length → s.red.copyIn = none →
          x = CopyIn.mk (leAt b 0 2) (leAt b 4 2) [(leAt b 2 2, b.drop 8)] →
          exec (.copyReceived b) s = .next (State.settle { s with red := { s.red with copyIn := some x } })))
  ∧ (∀ (s : State) x, s.collects = true → s.red.swap = some x →
      (s.gateOpen = true → x.released = false → x.s ≤ s.sys.k →
        (∀ y, x.confirmed = true → y = { x with released := true } → exec .roleSwapRun s =
            .next (State.releaseClaim { s with red := { s.red with swap := some y } } 5).settle)
        ∧ (x.confirmed = false → exec .roleSwapRun s = .next (s.swapEnd 2).settle))
      ∧ (x.released = true → s.rd R.RED_PARTNER_CLAIM = 2 →
          exec .roleSwapDone s = .next ((s.inc R.RED_STAT_SWITCHES).swapEnd 0).settle)
      ∧ (x.released = true → s.rd R.RED_PARTNER_CLAIM ≠ 2 →
          exec .roleSwapDone s = .next ((s.swapEnd 1).raise 0x148 0).settle)
      ∧ (x.released = false → s.role = .standby → s.gateOpen = false →
          exec .roleSwapDone s = .next ((s.swapEnd 1).raise 0x148 0).settle))

/-! ### Ports, frames, time and debug -/

/-- Ports and frames (R75, R334 to R336, R338, R346, R350 to R353): a port comes up after its lock, at the rate of its
divider, and goes down by its cause, no master heard on it any more; a frame with a bad FCS, of a wrong length or
filtered is counted and dropped, any other is delivered; a launch that its queue's gate stops or that has no port UP
completes so; one that a busy port or the guard holds back stays, and one with no launch time goes out on its port at
once. -/
def Obligations.FramesComeAndGo : Prop :=
  ∀ s : State, s.collects = true →
    (∀ (p : Fin 2) (c : Fin 6) u v, u = (if c.val = 0 then s.wrB (R.TSN_PORT_STAT_LOS p) true else s).deafen p →
      (u.is (R.TSN_PORT_STAT_UP p) = false → exec (.portDown p c) s = .next u.settle)
      ∧ (u.is (R.TSN_PORT_STAT_UP p) = true →
          v = (u.wrB (R.TSN_PORT_STAT_UP p) false).event 9 5 [(16, 1, p), (17, 1, 0), (18, 1, c.val + 1)] →
          exec (.portDown p c) s = .next (if v.is (R.TSN_PORT_CTL_EN p) then
            ((v.wrB (R.TSN_PORT_STAT_LOST p) true).setActive 0x123 true).raise 0x123 p else v).settle))
    ∧ (∀ (p : Fin 2) u, u = s.wr (R.TSN_PORT_STAT_SPEED p)
          (s.rd (if p.val = 0 then R.CLK_DIV_NOW_ETH0_RATE else R.CLK_DIV_NOW_ETH1_RATE)) →
        exec (.portUp p) s = .next (State.settle
          (if s.is (R.TSN_PORT_CTL_EN p) && s.trackersRun && s.ethRuns && !s.is (R.TSN_PORT_STAT_UP p) then
            (((u.wrB (R.TSN_PORT_STAT_LOS p) false).wrB (R.TSN_PORT_STAT_UP p) true).setActive 0x123 false).event 9 5
              [(16, 1, p), (17, 1, 1)] else s)))
    ∧ (∀ (p : Fin 2) b f x, s.is (R.TSN_PORT_STAT_UP p) = false → exec (.ethernetFrameReceived p b f x) s = .next s.settle)
    ∧ (∀ (p : Fin 2) b x, s.is (R.TSN_PORT_STAT_UP p) = true →
        exec (.ethernetFrameReceived p b false x) s = .next (s.inc (R.TSN_PORT_ERR_FCS p)).settle
        ∧ ((s.bodyOf b).length < 60 ∨ 1518 < (s.bodyOf b).length →
          exec (.ethernetFrameReceived p b true x) s = .next (s.inc (R.TSN_PORT_ERR_LENGTH p)).settle)
        ∧ (60 ≤ (s.bodyOf b).length → (s.bodyOf b).length ≤ 1518 →
          (s.filtersOut p b = true →
            exec (.ethernetFrameReceived p b true x) s = .next (s.inc (R.TSN_PORT_DROP_FILTERED p)).settle)
          ∧ (s.filtersOut p b = false → s.trailerOf b = none →
            exec (.ethernetFrameReceived p b true x) s = .next (s.takeFrame p (s.bodyOf b) x).settle)))
    ∧ (∀ (q : Fin 8) x0 x1 h t, s.postedOf (13 + q) = h :: t →
        (s.queueGated q = true → exec (.frameLaunch q x0 x1) s = .next (s.completePosted (13 + q) 0 4 0 4 0).settle)
        ∧ (s.queueGated q = false → s.txPorts h.desc = [] →
            exec (.frameLaunch q x0 x1) s = .next (s.completePosted (13 + q) 0 4 0 0xB 0).settle)
        ∧ (s.queueGated q = false → s.txPorts h.desc = [0] → launchOf h.desc = 0 →
            (s.heldBack q h 0 (s.egressPlant 0 x0) = true → exec (.frameLaunch q x0 x1) s = .next s.settle)
            ∧ (∀ u, s.heldBack q h 0 (s.egressPlant 0 x0) = false → h.desc.le 14 1 = 0 → h.desc.le 15 1 = 0 →
              u = s.advanceByTicks (x0 / 131072).toNat → exec (.frameLaunch q x0 x1) s =
                .next ((u.emit (.frameOut 0 h.frame (u.egressPlant 0 x0))).completePosted (13 + q) 0 0 0 0 0).settle)))
    ∧ (∀ (q : Fin 8) x0 x1, s.postedOf (13 + q) = [] → exec (.frameLaunch q x0 x1) s = .next s.settle)

/-- Trackers and plant time (R341, R343 to R348): a message that a tracker does not consume leaves it; an Announce, a
Sync and the delay messages have their part on the port they come in on; a master lost on both ports is HOLDOVER; 60 s
of HOLDOVER, a revert and the end of a slew act as their rules say; delay requests go out on each port of the tracker.
A step request (R342): in HOLD, with the selected tracker LOCKED and this seat no standby, it is kept for a SAMPLE
mark, and selection is judged again; otherwise it is refused and counted. -/
def Obligations.TrackersFollow : Prop :=
  (∀ (s : State) (i : Fin 2), s.collects = true →
      (∀ (p : Fin 2) m x y, s.consumes i p m = false → exec (.ptpMessageReceived i p m x y) s = .next s.settle)
      ∧ (∀ (p : Fin 2) m x y, s.consumes i p m = true →
          (∀ a, m.body = .announce a → exec (.ptpMessageReceived i p m x y) s = .next (s.announce i p a).settle)
          ∧ (∀ o, m.body = .sync true o → s.fromMaster i m = true → exec (.ptpMessageReceived i p m x y) s =
              .next (s.modPtpLink i p fun l => { l with sync := some (m.seq, s.ingress i p x, m.correction) }).settle)
          ∧ (∀ o, m.body = .sync false o → s.fromMaster i m = true →
              exec (.ptpMessageReceived i p m x y) s = .next (s.syncDone i p o (s.ingress i p x) m.correction).settle)
          ∧ (∀ o t2 k, m.body = .followUp o → (s.ptpLink i p).sync = some (m.seq, t2, k) → s.fromMaster i m = true →
              exec (.ptpMessageReceived i p m x y) s = .next (s.syncDone i p o t2 (k + m.correction)).settle)
          ∧ (∀ r t3, m.body = .delayResp r true → (s.ptpLink i p).delayReq = some (m.seq, t3) → s.fromMaster i m = true →
              s.peerDelay i = false → exec (.ptpMessageReceived i p m x y) s = .next (s.delayKnown i p
                (((s.ptpLink i p).down + (r - t3 - m.correction + sx 32 (s.rd (R.TSN_PORT_ASYM p)))) / 2)).settle)
          ∧ (∀ r t1, m.body = .pdelayResp false r true → (s.ptpLink i p).delayReq = some (m.seq, t1) → s.peerDelay i = true →
              exec (.ptpMessageReceived i p m x y) s =
                .next (s.delayKnown i p ((s.ingress i p x - t1 - m.correction) / 2)).settle)
          ∧ (m.body = .pdelayReq → s.peerDelay i = true → exec (.ptpMessageReceived i p m x y) s =
              .next (s.emit (.ptpOut i p 3 m.seq (m.correction + (s.egress i p y - s.ingress i p x)))).settle))
      ∧ (∀ k : Fin 3, s.dom i ≠ .acquiring → s.dom i ≠ .locked → exec (.announceTimeout i k) s = .next s.settle)
      ∧ (∀ u, s.dom i = .locked ∨ s.dom i = .acquiring → s.rd (R.TSN_DOM_CTL_PORTS i) ≠ 3 →
          u = s.modTracker i (fun t => { t with
            foreign := t.foreign.filter fun x => !(t.master.any fun m => x.1.clock = m.clock ∧ x.1.port = m.port)
            master := none, heard := 0 }) →
          exec (.announceTimeout i 0) s = .next (((u.dropPtpLink i 0).dropPtpLink i 1).setDom i .holdover).settle)
      ∧ (s.dom i = .holdover → exec (.holdoverTimeout i) s = .next (s.setDom i .listening).settle)
      ∧ (s.dom i ≠ .holdover → exec (.holdoverTimeout i) s = .next s.settle)
      ∧ (∀ p, p = s.rd R.TSN_TIME_CTL_PREF → s.role ≠ .standby → s.is R.TSN_TIME_CTL_AUTO = true →
          s.rd R.TSN_TIME_CTL_REVERT_S ≠ 0 → s.domLocked p = true → s.selected ≠ p → exec .revertTimer s = .next
            (((s.advanceByTicks ((s.tracker p).lockedAt + s.rd R.TSN_TIME_CTL_REVERT_S * 500000000)).select p).judgeTime).settle)
      ∧ (∀ u v, s.tsn.slew.isSome = true → u = s.runSlew.endSlew →
          v = (u.setCorr (u.tracker u.selected).corr).wrB R.TSN_TIME_STAT_SLEWING false →
          exec .slewDone s = .next (v.showDiff.event 9 4 [(16, 1, v.selected)]).settle)
      ∧ (∀ x, s.trackersRun = true → s.is (R.TSN_DOM_CTL_EN i) = true →
          (s.peerDelay i = true ∨ (s.tracker i).master.isSome = true) →
          exec (.ptpDelayReqSend i x) s = .next (each ([0, 1].filter fun p => (s.rd (R.TSN_DOM_CTL_PORTS i)).testBit p)
            (fun t p => t.delayRequest i x p) s).settle)
      ∧ (∀ x, (s.trackersRun = false ∨ s.is (R.TSN_DOM_CTL_EN i) = false) →
          exec (.ptpDelayReqSend i x) s = .next s.settle))
  ∧ (∀ (s u w : State) v, s.collects = true → s.decodes 0x3A000 = true →
      u = s.written 0x3A000 (v ||| 0x20000000#32) →
      w = State.judgeSelection (if u.power = .hold ∧ u.role ≠ .standby ∧ u.domLocked u.selected = true then
          { u with tsn := { u.tsn with stepAsked := true } } else u.inc R.TSN_TIME_STAT_STEP_REFUSED)
        (if u.power = .hold ∧ u.role ≠ .standby ∧ u.domLocked u.selected = true then u.anyLocked
          else (u.inc R.TSN_TIME_STAT_STEP_REFUSED).anyLocked) →
      exec (.stepReq v) s = .next (State.settle
        (if w.tsn.slew.isSome && decide (w.rd R.TSN_TIME_CTL_SLEW ≠ s.rd R.TSN_TIME_CTL_SLEW) then w.startSlew else w)))

/-- Debug (R416 to R420, R422): halts and steps need the claim RELEASED in a pair and level 2, a pin-driving scan
needs level 2 before boot is done or in OFF; what is not allowed is refused, counted and faulted; an access shows its
outcome. -/
def Obligations.DebugNeedsItsLevel : Prop :=
  ∀ s : State, s.collects = true →
    (∀ i : Fin 2, (s.mayHalt i = true → s.loop.halted = none →
        exec (.leHalt i) s = .next (s.haltAt i (s.loopOrder.getLast?.getD 0)).settle)
      ∧ (s.mayHalt i = false → exec (.leHalt i) s = .next ((s.inc R.SEC_DBG_STAT_REFUSED).raise 0x186 i).settle))
    ∧ (∀ (i : Fin 2) m, (s.loop.halted = none → exec (.leStep i m) s = .next (s.debugRefused i).settle)
        ∧ (∀ d e u, s.loop.halted = some d → s.mayHalt i = true → nextLoop s.loopOrder d = some e →
            u = (if m then s.lockstepMismatch e else s.runLoop s e) →
            exec (.leStep i m) s = .next (State.settle { u with loop := { u.loop with halted := some e } })))
    ∧ (s.loop.halted.isSome = true → s.mayHalt s.sec.haltBy = false → exec .leHaltEnd s = .next s.leResume.settle)
    ∧ (2 ≤ s.debugLevel 1 → s.bootDone = false ∨ s.power = .off →
        exec .jtagBoundaryScan s = .next (State.settle { s with sec := { s.sec with scan := true } }))
    ∧ (s.debugLevel 1 < 2 → exec .jtagBoundaryScan s = .next (s.debugRefused 1).settle)
    ∧ exec .testLogicReset s = .next (State.settle { s with sec := { s.sec with scan := false } })
    ∧ (∀ u, s.decodes 0x3F05C = true →
        (u = s.written 0x3F05C 1#32 → exec .secDbgGoRead s = .next u.dbgGoRead.settle)
        ∧ (u = s.written 0x3F05C 2#32 → exec .secDbgGoWrite s = .next u.dbgGoWrite.settle))
    ∧ (∀ u, s.debugLevel 0 = 0 → u = s.debugRefused 0 →
        s.dbgGoRead = (u.wrB R.SEC_DBG_CMD_DONE true).wrB R.SEC_DBG_CMD_REFUSED true)
    ∧ (∀ (a : Nat) r, s.debugLevel 1 ≠ 0 → a < 0x100000 → r = s.readReg (s.debugger 1) a →
        exec (.jtagDbgAccess (BitVec.ofNat 64 a) false 0) s =
          .next (State.settle { r.2 with sec := { r.2.sec with jtagData := some r.1 } }))
    ∧ (∀ (ops : Bytes) resp d, d = Desc.mk 0x91 0 0 ops → d.ops.length = 20 → reservedOk d [(7, 1), (18, 6)] = none →
        d.le 5 1 = 0 → d.le 4 1 = 2 → d.le 6 1 < 2 →
        exec (.jtagDbgUnlock ops resp) s = .next (s.relock (d.le 6 1)).settle)
end

