-- ==== Sys2Proof/Laws/Maps.lean ====
section
/-! SUPPORT. Sparse maps: a read after a write, and the canonical form that every write keeps; the fold of a run of
bytes. -/

set_option Elab.async false

namespace Sys2Proof.Machine

variable {α : Type}

theorem SMap.get_ins_same (d : Nat → α) (m : List (Nat × α)) (i : Nat) (x : α) :
    SMap.get d (SMap.ins m i x) i = x := by
  induction m with
  | nil => simp [SMap.ins, SMap.get]
  | cons a t ih =>
    obtain ⟨k, v⟩ := a
    simp only [SMap.ins]
    split
    · simp [SMap.get]
    · split
      · rename_i h; simp [SMap.get, h]
      · rename_i h1 h2
        have : ¬ k = i := fun e => h2 e.symm
        simp [SMap.get, this, ih]

theorem SMap.get_ins_other (d : Nat → α) (m : List (Nat × α)) {i j : Nat} (x : α) (h : j ≠ i) :
    SMap.get d (SMap.ins m i x) j = SMap.get d m j := by
  induction m with
  | nil => have hij : ¬ i = j := fun e => h e.symm
           simp [SMap.ins, SMap.get, hij]
  | cons a t ih =>
    obtain ⟨k, v⟩ := a
    simp only [SMap.ins]
    have hij : ¬ i = j := fun e => h e.symm
    split
    · simp [SMap.get, hij]
    · split
      · rename_i h2; subst h2; simp [SMap.get, hij]
      · simp only [SMap.get, ih]

theorem SMap.get_drop_other (d : Nat → α) (m : List (Nat × α)) {i j : Nat} (h : j ≠ i) :
    SMap.get d (SMap.drop m i) j = SMap.get d m j := by
  induction m with
  | nil => simp [SMap.drop]
  | cons a t ih =>
    obtain ⟨k, v⟩ := a
    simp only [SMap.drop]
    split
    · rename_i h2; subst h2
      have hkj : ¬ k = j := fun e => h e.symm
      simp [SMap.get, hkj]
    · simp only [SMap.get, ih]

/-- A key below every listed key reads as unlisted. -/
theorem SMap.get_below (d : Nat → α) (m : List (Nat × α)) {b i : Nat} (h : SMap.risesFrom (some b) m = true)
    (hi : i ≤ b) : SMap.get d m i = d i := by
  induction m generalizing b with
  | nil => rfl
  | cons a t ih =>
    obtain ⟨k, v⟩ := a
    simp only [SMap.risesFrom, Bool.and_eq_true, decide_eq_true_eq] at h
    have hk : ¬ k = i := by omega
    simp only [SMap.get, hk, if_false]
    exact ih h.2 (by omega)

theorem SMap.rises_weaken {b : Option Nat} {c : Nat} {m : List (Nat × α)} (h : SMap.risesFrom (some c) m = true)
    (hb : ∀ x, b = some x → x < c ∨ x = c) : SMap.risesFrom b m = true := by
  cases m with
  | nil => rfl
  | cons a t =>
    obtain ⟨k, v⟩ := a
    simp only [SMap.risesFrom, Bool.and_eq_true, decide_eq_true_eq] at h ⊢
    refine ⟨?_, h.2⟩
    cases b with
    | none => rfl
    | some x => have := hb x rfl; simp only [decide_eq_true_eq]; omega

theorem SMap.get_drop_same (d : Nat → α) (m : List (Nat × α)) {b : Option Nat} (i : Nat)
    (h : SMap.risesFrom b m = true) : SMap.get d (SMap.drop m i) i = d i := by
  induction m generalizing b with
  | nil => rfl
  | cons a t ih =>
    obtain ⟨k, v⟩ := a
    simp only [SMap.risesFrom, Bool.and_eq_true] at h
    simp only [SMap.drop]
    split
    · rename_i hk; exact SMap.get_below d t h.2 (by omega)
    · rename_i hk
      simp only [SMap.get, hk, if_false]
      exact ih h.2

theorem SMap.rises_drop {b : Option Nat} (m : List (Nat × α)) (i : Nat) (h : SMap.risesFrom b m = true) :
    SMap.risesFrom b (SMap.drop m i) = true := by
  induction m generalizing b with
  | nil => rfl
  | cons a t ih =>
    obtain ⟨k, v⟩ := a
    simp only [SMap.risesFrom, Bool.and_eq_true] at h
    simp only [SMap.drop]
    split
    · refine SMap.rises_weaken h.2 fun x hx => ?_
      subst hx
      have := h.1
      simp only [decide_eq_true_eq] at this
      exact Or.inl this
    · simp only [SMap.risesFrom, Bool.and_eq_true]
      exact ⟨h.1, ih h.2⟩

/-- The bound on a head key, in words. -/
theorem SMap.rises_cons {b : Option Nat} {k : Nat} {v : α} {t : List (Nat × α)} :
    SMap.risesFrom b ((k, v) :: t) = true ↔ (∀ j, b = some j → j < k) ∧ SMap.risesFrom (some k) t = true := by
  cases b <;> simp [SMap.risesFrom]

theorem SMap.rises_ins {b : Option Nat} (m : List (Nat × α)) (i : Nat) (x : α) (h : SMap.risesFrom b m = true)
    (hb : ∀ y, b = some y → y < i) : SMap.risesFrom b (SMap.ins m i x) = true := by
  induction m generalizing b with
  | nil => exact SMap.rises_cons.2 ⟨hb, rfl⟩
  | cons a t ih =>
    obtain ⟨k, v⟩ := a
    have h' := SMap.rises_cons.1 h
    simp only [SMap.ins]
    split
    · rename_i hik
      exact SMap.rises_cons.2 ⟨hb, SMap.rises_cons.2 ⟨fun j e => by cases e; exact hik, h'.2⟩⟩
    · split
      · exact SMap.rises_cons.2 h'
      · rename_i h1 h2
        exact SMap.rises_cons.2 ⟨h'.1, ih h'.2 fun y e => by cases e; omega⟩

theorem SMap.noDefault_drop [DecidableEq α] (d : Nat → α) (m : List (Nat × α)) (i : Nat)
    (h : SMap.noDefault d m = true) : SMap.noDefault d (SMap.drop m i) = true := by
  induction m with
  | nil => rfl
  | cons a t ih =>
    obtain ⟨k, v⟩ := a
    simp only [SMap.noDefault, Bool.and_eq_true] at h
    simp only [SMap.drop]
    split
    · exact h.2
    · simp only [SMap.noDefault, Bool.and_eq_true]; exact ⟨h.1, ih h.2⟩

theorem SMap.noDefault_ins [DecidableEq α] (d : Nat → α) (m : List (Nat × α)) (i : Nat) (x : α) (hx : x ≠ d i)
    (h : SMap.noDefault d m = true) : SMap.noDefault d (SMap.ins m i x) = true := by
  induction m with
  | nil => simp [SMap.ins, SMap.noDefault, hx]
  | cons a t ih =>
    obtain ⟨k, v⟩ := a
    have h0 := h
    simp only [SMap.noDefault, Bool.and_eq_true] at h
    simp only [SMap.ins]
    split
    · simp only [SMap.noDefault, Bool.and_eq_true, decide_eq_true_eq] at h ⊢; exact ⟨hx, h⟩
    · split
      · rename_i h2; subst h2; simp only [SMap.noDefault, Bool.and_eq_true, decide_eq_true_eq]; exact ⟨hx, h.2⟩
      · simp only [SMap.noDefault, Bool.and_eq_true]; exact ⟨h.1, ih h.2⟩

/-- A write keeps the canonical form. -/
theorem SMap.put_wf [DecidableEq α] (d : Nat → α) (m : List (Nat × α)) (i : Nat) (x : α)
    (h : SMap.wf d m = true) : SMap.wf d (SMap.put d m i x) = true := by
  simp only [SMap.wf, Bool.and_eq_true] at h ⊢
  unfold SMap.put
  split
  · exact ⟨SMap.rises_drop m i h.1, SMap.noDefault_drop d m i h.2⟩
  · rename_i hx
    exact ⟨SMap.rises_ins m i x h.1 (fun y hy => by cases hy), SMap.noDefault_ins d m i x hx h.2⟩

theorem SMap.rises_filter {b : Option Nat} (m : List (Nat × α)) (p : Nat × α → Bool)
    (h : SMap.risesFrom b m = true) : SMap.risesFrom b (m.filter p) = true := by
  induction m generalizing b with
  | nil => rfl
  | cons a t ih =>
    obtain ⟨k, v⟩ := a
    simp only [SMap.risesFrom, Bool.and_eq_true] at h
    simp only [List.filter_cons]
    split
    · simp only [SMap.risesFrom, Bool.and_eq_true]; exact ⟨h.1, ih h.2⟩
    · refine ih (SMap.rises_weaken h.2 fun x hx => ?_)
      subst hx
      have := h.1
      simp only [decide_eq_true_eq] at this
      exact Or.inl this

theorem SMap.noDefault_filter [DecidableEq α] (d : Nat → α) (m : List (Nat × α)) (p : Nat × α → Bool)
    (h : SMap.noDefault d m = true) : SMap.noDefault d (m.filter p) = true := by
  induction m with
  | nil => rfl
  | cons a t ih =>
    obtain ⟨k, v⟩ := a
    simp only [SMap.noDefault, Bool.and_eq_true] at h
    simp only [List.filter_cons]
    split
    · simp only [SMap.noDefault, Bool.and_eq_true]; exact ⟨h.1, ih h.2⟩
    · exact ih h.2

/-- Leaving entries out, as a reset does, keeps the canonical form. -/
theorem SMap.filter_wf [DecidableEq α] (d : Nat → α) (m : List (Nat × α)) (p : Nat × α → Bool)
    (h : SMap.wf d m = true) : SMap.wf d (m.filter p) = true := by
  simp only [SMap.wf, Bool.and_eq_true] at h ⊢
  exact ⟨SMap.rises_filter m p h.1, SMap.noDefault_filter d m p h.2⟩

/-- A write leaves every other key alone. -/
theorem SMap.get_put_other [DecidableEq α] (d : Nat → α) (m : List (Nat × α)) {i j : Nat} (x : α) (h : j ≠ i) :
    SMap.get d (SMap.put d m i x) j = SMap.get d m j := by
  unfold SMap.put
  split
  · exact SMap.get_drop_other d m h
  · exact SMap.get_ins_other d m x h

/-- A read after a write gives the value written. -/
theorem SMap.get_put_same [DecidableEq α] (d : Nat → α) (m : List (Nat × α)) (i : Nat) (x : α)
    (h : SMap.wf d m = true) : SMap.get d (SMap.put d m i x) i = x := by
  simp only [SMap.wf, Bool.and_eq_true] at h
  unfold SMap.put
  split
  · rename_i hx; rw [SMap.get_drop_same d m i h.1, hx]
  · exact SMap.get_ins_same d m i x

/-- The empty map is canonical. -/
theorem SMap.wf_nil [DecidableEq α] (d : Nat → α) : SMap.wf d ([] : List (Nat × α)) = true := rfl

/-- Feeding a register is a left fold. -/
theorem feedBytes_eq_foldl {n : Nat} (f : BitVec n → Byte → BitVec n) (bs : Bytes) (c : BitVec n) :
    feedBytes f bs c = bs.foldl f c := by
  induction bs generalizing c with
  | nil => rfl
  | cons b t ih =>
    simp only [feedBytes, List.foldl]
    split
    · next h => rw [ih]; congr 1; exact (BitVec.eq_of_toNat_eq (by rw [h]; simp)).symm
    · next k h =>
      rw [ih]; congr 1
      exact (BitVec.eq_of_toNat_eq (by rw [h, BitVec.toNat_ofNat, Nat.mod_eq_of_lt (by have := (f c b).isLt; omega)])).symm

end Sys2Proof.Machine
end

