-- ==== Sys2Proof/Laws/Fields.lean ====
section
/-! SUPPORT. Register fields: a read after a write of the same field, of another field, of another register. -/

set_option Elab.async false

namespace Sys2Proof.Machine

open Sys2Proof

theorem Fld.regroup (q a b r m : Nat) : q * (a * b) + r * a + m = m + a * (q * b + r) := by
  rw [Nat.mul_add, Nat.mul_comm r a, Nat.mul_left_comm q a b]; omega

theorem Fld.low_lt (w v l n : Nat) : v % 2 ^ n * 2 ^ l + w % 2 ^ l < 2 ^ (l + n) := by
  have h1 : w % 2 ^ l < 2 ^ l := Nat.mod_lt _ (Nat.two_pow_pos l)
  have h2 : v % 2 ^ n < 2 ^ n := Nat.mod_lt _ (Nat.two_pow_pos n)
  have h3 : (v % 2 ^ n + 1) * 2 ^ l ≤ 2 ^ n * 2 ^ l := Nat.mul_le_mul_right _ h2
  have h4 : 2 ^ n * 2 ^ l = 2 ^ (l + n) := by rw [← Nat.pow_add, Nat.add_comm]
  have h5 : (v % 2 ^ n + 1) * 2 ^ l = v % 2 ^ n * 2 ^ l + 2 ^ l := Nat.succ_mul _ _
  omega

theorem Fld.put_lt (w v l n : Nat) (hw : w < 2 ^ 32) (h : l + n ≤ 32) :
    w / 2 ^ (l + n) * 2 ^ (l + n) + v % 2 ^ n * 2 ^ l + w % 2 ^ l < 2 ^ 32 := by
  have h1 := Fld.low_lt w v l n
  have h2 : 2 ^ (32 - (l + n)) * 2 ^ (l + n) = 2 ^ 32 := by rw [← Nat.pow_add]; congr 1; omega
  have h3 : w / 2 ^ (l + n) < 2 ^ (32 - (l + n)) := by
    rw [Nat.div_lt_iff_lt_mul (Nat.two_pow_pos _), h2]; exact hw
  have h4 : (w / 2 ^ (l + n) + 1) * 2 ^ (l + n) ≤ 2 ^ (32 - (l + n)) * 2 ^ (l + n) := Nat.mul_le_mul_right _ h3
  have h5 : (w / 2 ^ (l + n) + 1) * 2 ^ (l + n) = w / 2 ^ (l + n) * 2 ^ (l + n) + 2 ^ (l + n) := Nat.succ_mul _ _
  omega

theorem Fld.put_toNat (f : Fld) (hf : f.fits) (w : Word) (v : Nat) :
    (f.put w v).toNat = w.toNat / 2 ^ (f.lsb + f.width) * 2 ^ (f.lsb + f.width)
      + v % 2 ^ f.width * 2 ^ f.lsb + w.toNat % 2 ^ f.lsb := by
  unfold Fld.put
  rw [BitVec.toNat_ofNat, Nat.mod_eq_of_lt (Fld.put_lt _ _ _ _ w.isLt hf)]

theorem Fld.mid_div (w v l n : Nat) :
    (w / 2 ^ (l + n) * 2 ^ (l + n) + v % 2 ^ n * 2 ^ l + w % 2 ^ l) / 2 ^ l = w / 2 ^ (l + n) * 2 ^ n + v % 2 ^ n := by
  have e : w / 2 ^ (l + n) * 2 ^ (l + n) + v % 2 ^ n * 2 ^ l + w % 2 ^ l
      = w % 2 ^ l + 2 ^ l * (w / 2 ^ (l + n) * 2 ^ n + v % 2 ^ n) := by
    rw [Nat.pow_add, Fld.regroup]
  rw [e, Nat.add_mul_div_left _ _ (Nat.two_pow_pos l), Nat.div_eq_of_lt (Nat.mod_lt _ (Nat.two_pow_pos l)), Nat.zero_add]

/-- A field reads the value written to it, taken modulo its width. -/
theorem Fld.get_put_same (f : Fld) (hf : f.fits) (w : Word) (v : Nat) : f.get (f.put w v) = v % 2 ^ f.width := by
  unfold Fld.get
  rw [Fld.put_toNat f hf, Fld.mid_div, Nat.mul_comm, Nat.mul_add_mod, Nat.mod_mod]

theorem Fld.get_eq_mod_div (g : Fld) (w : Word) : g.get w = w.toNat % 2 ^ (g.lsb + g.width) / 2 ^ g.lsb := by
  unfold Fld.get
  rw [Nat.pow_add, Nat.mod_mul_right_div_self]

/-- A field reads as before when another field of its register is written. -/
theorem Fld.get_put_apart (f g : Fld) (hf : f.fits) (w : Word) (v : Nat)
    (h : f.lsb + f.width ≤ g.lsb ∨ g.lsb + g.width ≤ f.lsb) : g.get (f.put w v) = g.get w := by
  rcases h with h | h
  · have hd : (f.put w v).toNat / 2 ^ g.lsb = w.toNat / 2 ^ g.lsb := by
      have e : g.lsb = (f.lsb + f.width) + (g.lsb - (f.lsb + f.width)) := by omega
      rw [e, Nat.pow_add, ← Nat.div_div_eq_div_mul, ← Nat.div_div_eq_div_mul, Fld.put_toNat f hf]
      congr 1
      rw [Nat.add_assoc, Nat.mul_comm, Nat.mul_add_div (Nat.two_pow_pos _),
        Nat.div_eq_of_lt (Fld.low_lt _ _ _ _), Nat.add_zero]
    unfold Fld.get
    rw [hd]
  · rw [Fld.get_eq_mod_div, Fld.get_eq_mod_div, Fld.put_toNat f hf]
    congr 1
    have hsub : ∀ a : Nat, a % 2 ^ f.lsb % 2 ^ (g.lsb + g.width) = a % 2 ^ (g.lsb + g.width) := fun a =>
      Nat.mod_mod_of_dvd a (Nat.pow_dvd_pow 2 h)
    refine (hsub _).symm.trans (Eq.trans ?_ (hsub w.toNat))
    congr 1
    have e : w.toNat / 2 ^ (f.lsb + f.width) * 2 ^ (f.lsb + f.width) + v % 2 ^ f.width * 2 ^ f.lsb
        + w.toNat % 2 ^ f.lsb
        = 2 ^ f.lsb * (w.toNat / 2 ^ (f.lsb + f.width) * 2 ^ f.width + v % 2 ^ f.width) + w.toNat % 2 ^ f.lsb := by
      rw [Nat.pow_add, Fld.regroup, Nat.add_comm]
    rw [e, Nat.mul_add_mod, Nat.mod_mod]

theorem State.setReg_regsWf {s : State} (h : s.regsWf = true) (off : Nat) (v : Word) : (s.setReg off v).regsWf = true :=
  SMap.put_wf _ _ _ _ h

theorem State.wr_regsWf {s : State} (h : s.regsWf = true) (f : Fld) (v : Nat) : (s.wr f v).regsWf = true :=
  State.setReg_regsWf h _ _

/-- A register reads the word stored in it. -/
theorem State.reg_setReg_same {s : State} (h : s.regsWf = true) (off : Nat) (v : Word) : (s.setReg off v).reg off = v :=
  SMap.get_put_same _ _ _ _ h

/-- Another register reads as before. -/
theorem State.reg_setReg_other (s : State) {off o : Nat} (v : Word) (h : o ≠ off) :
    (s.setReg off v).reg o = s.reg o := SMap.get_put_other _ _ _ h

/-- A field reads the value written to it. -/
theorem State.rd_wr_same {s : State} (h : s.regsWf = true) (f : Fld) (hf : f.fits) (v : Nat) :
    (s.wr f v).rd f = v % 2 ^ f.width := by
  unfold State.wr State.rd
  rw [State.reg_setReg_same h, Fld.get_put_same f hf]

/-- Every other field reads as before. -/
theorem State.rd_wr_apart {s : State} (h : s.regsWf = true) (f g : Fld) (hf : f.fits) (v : Nat) (ha : f.apart g) :
    (s.wr f v).rd g = s.rd g := by
  unfold State.wr State.rd
  by_cases ho : g.off = f.off
  · rw [ho, State.reg_setReg_same h]
    rcases ha with ha | ha
    · exact absurd ho.symm ha
    · exact Fld.get_put_apart f g hf _ _ ha
  · rw [State.reg_setReg_other s _ ho]

end Sys2Proof.Machine
end

