-- ==== Sys2Proof/Laws/Keeps.lean ====
section
/-! SUPPORT. What the effect of every command keeps, and that the shared operations keep it. -/

set_option Elab.async false

namespace Sys2Proof.Machine

open Sys2Proof

/-- What the effect of every command keeps, from a state `b₀` on: the queue, the canonical form of the registers and
of the descriptor banks, a local counter that never goes back (R340), free values that are never used again, and what
has left the part. -/
structure Keeps (b₀ t : State) : Prop where
  queue : t.pending = b₀.pending
  regs : b₀.regsWf = true → t.regsWf = true
  banks : b₀.banksWf = true → t.banksWf = true
  clock : b₀.tsn.local_ ≤ t.tsn.local_
  free : b₀.free ≤ t.free
  sent : b₀.out <:+ t.out

theorem Keeps.refl (s : State) : Keeps s s := ⟨rfl, id, id, Nat.le_refl _, Nat.le_refl _, List.suffix_refl _⟩

theorem Keeps.trans {a b c : State} (h : Keeps a b) (g : Keeps b c) : Keeps a c :=
  ⟨g.queue.trans h.queue, fun x => g.regs (h.regs x), fun x => g.banks (h.banks x), Nat.le_trans h.clock g.clock,
    Nat.le_trans h.free g.free, h.sent.trans g.sent⟩

theorem Keeps.upd {b₀ t : State} (hG : Keeps b₀ t)
    {sys clk hst flt tsn red cnl loop cell nrg mtr pwm cmp aux sec free} (hl : loop.words = t.loop.words)
    (ht : t.tsn.local_ ≤ tsn.local_) (hf : t.free ≤ free) :
    Keeps b₀ (State.mk t.regs sys clk hst flt tsn red cnl loop cell nrg mtr pwm cmp aux sec t.out free t.pending) :=
  ⟨hG.queue, hG.regs, fun h => by have := hG.banks h; rwa [State.banksWf, ← hl] at this, Nat.le_trans hG.clock ht,
    Nat.le_trans hG.free hf, hG.sent⟩

theorem Keeps.cutl {b₀ s t : State} (hG : Keeps b₀ s) (g : Keeps b₀ s → Keeps b₀ t) : Keeps b₀ t := g hG

theorem Keeps.bindl {b₀ : State} {P : State → Prop} (v : State) (hv : Keeps b₀ v) (h : ∀ x, Keeps b₀ x → P x) : P v :=
  h v hv

theorem Keeps.of2 {b₀ : State} {α : Type} {q : α × State} {a t} (e : q = (a, t)) (hG : Keeps b₀ q.2) : Keeps b₀ t := by
  subst e; exact hG

theorem Keeps.of22 {b₀ : State} {α β : Type} {q : α × β × State} {a b t} (e : q = (a, b, t)) (hG : Keeps b₀ q.2.2) :
    Keeps b₀ t := by
  subst e; exact hG

theorem Keeps.of1 {b₀ : State} {α : Type} {q : State × α} {a t} (e : q = (t, a)) (hG : Keeps b₀ q.1) : Keeps b₀ t := by
  subst e; exact hG

theorem Keeps.setReg {b₀ : State} {s : State} (o : Nat) (v : Word) (hG : Keeps b₀ s) : Keeps b₀ (s.setReg o v) :=
  ⟨hG.queue, fun h => SMap.put_wf _ _ _ _ (hG.regs h), hG.banks, hG.clock, hG.free, hG.sent⟩

theorem Keeps.wr {b₀ : State} {s : State} (f : Fld) (v : Nat) (hG : Keeps b₀ s) : Keeps b₀ (s.wr f v) := hG.setReg _ _
theorem Keeps.wrB {b₀ : State} {s : State} (f : Fld) (v : Bool) (hG : Keeps b₀ s) : Keeps b₀ (s.wrB f v) := hG.setReg _ _
theorem Keeps.wrBit {b₀ : State} {s : State} (f : Fld) (i : Nat) (v : Bool) (hG : Keeps b₀ s) :
    Keeps b₀ (s.wrBit f i v) := hG.setReg _ _
theorem Keeps.incBy {b₀ : State} {s : State} (f : Fld) (n : Nat) (hG : Keeps b₀ s) : Keeps b₀ (s.incBy f n) := hG.setReg _ _
theorem Keeps.inc {b₀ : State} {s : State} (f : Fld) (hG : Keeps b₀ s) : Keeps b₀ (s.inc f) := hG.setReg _ _
theorem Keeps.emit {b₀ : State} {s : State} (o : Out) (hG : Keeps b₀ s) : Keeps b₀ (s.emit o) :=
  ⟨hG.queue, hG.regs, hG.banks, hG.clock, hG.free, hG.sent.trans (List.suffix_cons _ _)⟩

theorem Keeps.modRing {b₀ : State} {s : State} (r : Nat) (f : RingSt → RingSt) (hG : Keeps b₀ s) :
    Keeps b₀ (s.modRing r f) :=
  ⟨hG.queue, hG.regs, hG.banks, hG.clock, hG.free, hG.sent⟩

theorem Keeps.each {b₀ : State} {α : Type} {xs : List α} {f : State → α → State} {s : State}
    (hf : ∀ s x, Keeps b₀ s → Keeps b₀ (f s x)) (hG : Keeps b₀ s) : Keeps b₀ (each xs f s) := by
  induction xs generalizing s with
  | nil => exact hG
  | cons x t ih => exact ih (hf s x hG)

theorem Keeps.id_ {b₀ : State} {s : State} (hG : Keeps b₀ s) : Keeps b₀ (id s) := hG

theorem Keeps.when {b₀ : State} {s : State} {b : Bool} {f : State → State} (hf : ∀ s, Keeps b₀ s → Keeps b₀ (f s))
    (hG : Keeps b₀ s) : Keeps b₀ (s.when b f) := by
  unfold State.when
  split
  · exact hf s hG
  · exact hG

end Sys2Proof.Machine
end

