-- ==== Sys2Proof/Laws/KeepOps.lean ====
section
/-! SUPPORT. What each operation of Machine/Ops.lean keeps (Laws/Keeps.lean). -/

set_option Elab.async false

namespace Sys2Proof.Machine

open Sys2Proof

theorem Keeps.fresh {b₀ s : State} (w : Nat) (hG : Keeps b₀ s) : Keeps b₀ (State.fresh s (w)).2 := by
  unfold State.fresh
  repeat' (first | (with_reducible assumption) | (refine fun s x h => ?_) | (refine fun s h => ?_)
                 | ((try lift_lets); intro x; refine Keeps.cutl (s := x) ?_ ?_; rotate_left; (intro hx; clear_value x); rotate_left; unfold x)
                 | ((try lift_lets); intro x) | split
                 | (with_reducible refine Keeps.upd ?_ ?_ ?_ ?_; rotate_left; exact rfl; (first | exact Nat.le_refl _ | exact Nat.le_max_left _ _ | exact Nat.le_add_right _ _); (first | exact Nat.le_refl _ | exact Nat.le_succ _); first | (with_reducible assumption) | (with_reducible refine Keeps.of2 ‹_ = (_, _)› ?_) | (with_reducible refine Keeps.of22 ‹_ = (_, _, _)› ?_) | (with_reducible refine Keeps.of1 ‹_ = (_, _)› ?_))
                 | (with_reducible refine Keeps.of2 ‹_ = (_, _)› ?_)
                 | (with_reducible refine Keeps.of22 ‹_ = (_, _, _)› ?_)
                 | (with_reducible refine Keeps.of1 ‹_ = (_, _)› ?_) | (dsimp -zeta only) | (dsimp +zetaDelta only))

theorem Keeps.advanceTo {b₀ s : State} (m : Int) (hG : Keeps b₀ s) : Keeps b₀ (State.advanceTo s (m)) := by
  unfold State.advanceTo
  repeat' (first | (with_reducible assumption) | (refine fun s x h => ?_) | (refine fun s h => ?_)
                 | ((try lift_lets); intro x; refine Keeps.cutl (s := x) ?_ ?_; rotate_left; (intro hx; clear_value x); rotate_left; unfold x)
                 | ((try lift_lets); intro x) | split
                 | (with_reducible refine Keeps.upd ?_ ?_ ?_ ?_; rotate_left; exact rfl; (first | exact Nat.le_refl _ | exact Nat.le_max_left _ _ | exact Nat.le_add_right _ _); (first | exact Nat.le_refl _ | exact Nat.le_succ _); first | (with_reducible assumption) | (with_reducible refine Keeps.of2 ‹_ = (_, _)› ?_) | (with_reducible refine Keeps.of22 ‹_ = (_, _, _)› ?_) | (with_reducible refine Keeps.of1 ‹_ = (_, _)› ?_))
                 | (with_reducible refine Keeps.of2 ‹_ = (_, _)› ?_)
                 | (with_reducible refine Keeps.of22 ‹_ = (_, _, _)› ?_)
                 | (with_reducible refine Keeps.of1 ‹_ = (_, _)› ?_) | (dsimp -zeta only) | (dsimp +zetaDelta only))

theorem Keeps.advanceBy {b₀ s : State} (n : Nat) (hG : Keeps b₀ s) : Keeps b₀ (State.advanceBy s (n)) := by
  unfold State.advanceBy
  repeat' (first | (with_reducible assumption) | (refine fun s x h => ?_) | (refine fun s h => ?_)
                 | ((try lift_lets); intro x; refine Keeps.cutl (s := x) ?_ ?_; rotate_left; (intro hx; clear_value x); rotate_left; unfold x)
                 | ((try lift_lets); intro x) | split
                 | (with_reducible refine Keeps.upd ?_ ?_ ?_ ?_; rotate_left; exact rfl; (first | exact Nat.le_refl _ | exact Nat.le_max_left _ _ | exact Nat.le_add_right _ _); (first | exact Nat.le_refl _ | exact Nat.le_succ _); first | (with_reducible assumption) | (with_reducible refine Keeps.of2 ‹_ = (_, _)› ?_) | (with_reducible refine Keeps.of22 ‹_ = (_, _, _)› ?_) | (with_reducible refine Keeps.of1 ‹_ = (_, _)› ?_))
                 | (with_reducible refine Keeps.of2 ‹_ = (_, _)› ?_)
                 | (with_reducible refine Keeps.of22 ‹_ = (_, _, _)› ?_)
                 | (with_reducible refine Keeps.of1 ‹_ = (_, _)› ?_) | (dsimp -zeta only) | (dsimp +zetaDelta only))

theorem Keeps.advanceByTicks {b₀ s : State} (t : Nat) (hG : Keeps b₀ s) : Keeps b₀ (State.advanceByTicks s (t)) := by
  unfold State.advanceByTicks
  repeat' (first | (with_reducible assumption) | (refine fun s x h => ?_) | (refine fun s h => ?_)
                 | ((try lift_lets); intro x; refine Keeps.cutl (s := x) ?_ ?_; rotate_left; (intro hx; clear_value x); rotate_left; unfold x)
                 | ((try lift_lets); intro x) | split
                 | (with_reducible refine Keeps.upd ?_ ?_ ?_ ?_; rotate_left; exact rfl; (first | exact Nat.le_refl _ | exact Nat.le_max_left _ _ | exact Nat.le_add_right _ _); (first | exact Nat.le_refl _ | exact Nat.le_succ _); first | (with_reducible assumption) | (with_reducible refine Keeps.of2 ‹_ = (_, _)› ?_) | (with_reducible refine Keeps.of22 ‹_ = (_, _, _)› ?_) | (with_reducible refine Keeps.of1 ‹_ = (_, _)› ?_))
                 | (with_reducible refine Keeps.of2 ‹_ = (_, _)› ?_)
                 | (with_reducible refine Keeps.of22 ‹_ = (_, _, _)› ?_)
                 | (with_reducible refine Keeps.of1 ‹_ = (_, _)› ?_) | (dsimp -zeta only) | (dsimp +zetaDelta only))

theorem Keeps.sendVec {b₀ s : State} (v : Nat) (hG : Keeps b₀ s) : Keeps b₀ (State.sendVec s (v)) := by
  unfold State.sendVec
  repeat' first | with_reducible assumption | with_reducible apply Keeps.emit | split
                | refine Keeps.upd ?_ rfl (Nat.le_refl _) (Nat.le_refl _)

theorem Keeps.indexWord {b₀ s : State} (r : Nat) (hG : Keeps b₀ s) : Keeps b₀ (State.indexWord s (r)) := by
  unfold State.indexWord
  repeat' first | with_reducible assumption | with_reducible apply Keeps.emit | refine fun s x h => ?_
                | refine fun s h => ?_ | split | refine Keeps.upd ?_ rfl (Nat.le_refl _) (Nat.le_refl _)

theorem Keeps.indexAll {b₀ s : State} (hG : Keeps b₀ s) : Keeps b₀ (State.indexAll s) := by
  unfold State.indexAll
  with_reducible repeat' first | assumption | apply Keeps.each | apply Keeps.indexWord | refine fun s x h => ?_
                               | refine fun s h => ?_ | split

theorem Keeps.flushIndex {b₀ s : State} (hG : Keeps b₀ s) : Keeps b₀ (State.flushIndex s) := by
  unfold State.flushIndex
  repeat' first | with_reducible assumption | with_reducible apply Keeps.each | with_reducible apply Keeps.indexWord
                | refine fun s x h => ?_ | refine fun s h => ?_ | split
                | refine Keeps.upd ?_ rfl (Nat.le_refl _) (Nat.le_refl _)

theorem Keeps.ringMessage {b₀ s : State} (r : Nat) (hG : Keeps b₀ s) : Keeps b₀ (State.ringMessage s (r)) := by
  unfold State.ringMessage
  with_reducible repeat' first | assumption | apply Keeps.modRing | apply Keeps.sendVec | refine fun s x h => ?_
                               | refine fun s h => ?_

theorem Keeps.gather {b₀ s : State} (r : Nat) (now : Bool) (hG : Keeps b₀ s) : Keeps b₀ (State.gather s (r) (now))
    := by
  unfold State.gather
  dsimp only
  with_reducible repeat' first | assumption | apply Keeps.modRing | apply Keeps.ringMessage | refine fun s x h => ?_
                               | refine fun s h => ?_ | split

theorem Keeps.issueWb {b₀ s : State} (w : WriteBack) (hG : Keeps b₀ s) : Keeps b₀ (State.issueWb s (w)) := by
  unfold State.issueWb
  with_reducible repeat' first | assumption | apply Keeps.emit | apply Keeps.writeBack | apply Keeps.wr
                               | apply Keeps.indexWord | apply Keeps.gather

theorem Keeps.writeBack {b₀ s : State} (w : WriteBack) (hG : Keeps b₀ s) : Keeps b₀ (State.writeBack s (w)) := by
  unfold State.writeBack
  repeat' first | with_reducible assumption | with_reducible apply Keeps.issueWb | split
                | refine Keeps.upd ?_ rfl (Nat.le_refl _) (Nat.le_refl _)

theorem Keeps.flushWb {b₀ s : State} (hG : Keeps b₀ s) : Keeps b₀ (State.flushWb s) := by
  unfold State.flushWb
  repeat' first | with_reducible assumption | with_reducible apply Keeps.each | with_reducible apply Keeps.issueWb
                | refine fun s x h => ?_ | refine fun s h => ?_ | split
                | refine Keeps.upd ?_ rfl (Nat.le_refl _) (Nat.le_refl _)

theorem Keeps.writeEvent {b₀ s : State} (e : Event) (hG : Keeps b₀ s) : Keeps b₀ (State.writeEvent s (e)) := by
  unfold State.writeEvent
  with_reducible repeat' first | assumption | apply Keeps.emit | apply Keeps.event | apply Keeps.wr
                               | apply Keeps.indexWord | apply Keeps.gather

theorem Keeps.takeSeq {b₀ s : State} (hG : Keeps b₀ s) : Keeps b₀ (State.takeSeq s).2 := by
  unfold State.takeSeq
  repeat' first | with_reducible assumption | refine Keeps.upd ?_ rfl (Nat.le_refl _) (Nat.le_refl _)

theorem Keeps.placeEvent {b₀ s : State} (e : Event) (hG : Keeps b₀ s) : Keeps b₀ (State.placeEvent s (e)) := by
  unfold State.placeEvent
  repeat' first | with_reducible assumption | with_reducible apply Keeps.writeEvent | split
                | refine Keeps.upd ?_ rfl (Nat.le_refl _) (Nat.le_refl _)

theorem Keeps.placeLost {b₀ s : State} (hG : Keeps b₀ s) : Keeps b₀ (State.placeLost s) := by
  unfold State.placeLost
  repeat' first | with_reducible assumption | with_reducible apply Keeps.takeSeq
                | with_reducible apply Keeps.placeEvent | split
                | refine Keeps.upd ?_ rfl (Nat.le_refl _) (Nat.le_refl _)

theorem Keeps.showHeld {b₀ s : State} (hG : Keeps b₀ s) : Keeps b₀ (State.showHeld s) := by
  unfold State.showHeld
  with_reducible repeat' first | assumption | apply Keeps.wr

theorem Keeps.event {b₀ s : State} (cls : Nat) (code : Nat) (pay : List (Nat × Nat × Nat)) (hG : Keeps b₀ s) :
    Keeps b₀ (State.event s (cls) (code) (pay)) := by
  unfold State.event
  repeat' first | with_reducible assumption | with_reducible apply Keeps.takeSeq | with_reducible apply Keeps.inc
                | with_reducible apply Keeps.placeLost | with_reducible apply Keeps.placeEvent
                | with_reducible apply Keeps.showHeld | refine fun s x h => ?_ | refine fun s h => ?_ | split
                | refine Keeps.upd ?_ rfl (Nat.le_refl _) (Nat.le_refl _)

theorem Keeps.drainStore {b₀ s : State} (n : Nat) (hG : Keeps b₀ s) : Keeps b₀ (State.drainStore s n) := by
  induction n generalizing s with
  | zero => exact hG
  | succ n ih =>
    unfold State.drainStore
    repeat' first | with_reducible assumption | with_reducible apply Keeps.writeEvent | with_reducible apply ih
                  | split | refine Keeps.upd ?_ rfl (Nat.le_refl _) (Nat.le_refl _)

end Sys2Proof.Machine
end

