-- ==== Sys2Proof/Laws/KeepFaults.lean ====
section
/-! SUPPORT. What each operation of Machine/Faults.lean keeps (Laws/Keeps.lean). -/

set_option Elab.async false

namespace Sys2Proof.Machine

open Sys2Proof

theorem Keeps.setLatch {b₀ s : State} (n : Nat) (b : Bool) (hG : Keeps b₀ s) : Keeps b₀ (State.setLatch s (n) (b))
    := by
  unfold State.setLatch
  with_reducible repeat' first | assumption | apply Keeps.wrBit

theorem Keeps.setActive {b₀ s : State} (n : Nat) (b : Bool) (hG : Keeps b₀ s) : Keeps b₀ (State.setActive s (n)
    (b)) := by
  unfold State.setActive
  with_reducible repeat' first | assumption | apply Keeps.wrBit

theorem Keeps.setLog {b₀ s : State} (i : Nat) (e : LogEntry) (hG : Keeps b₀ s) : Keeps b₀ (State.setLog s (i) (e))
    := by
  unfold State.setLog
  repeat' first | with_reducible assumption | refine Keeps.upd ?_ rfl (Nat.le_refl _) (Nat.le_refl _)

theorem Keeps.modLog {b₀ s : State} (i : Nat) (f : LogEntry → LogEntry) (hG : Keeps b₀ s) : Keeps b₀ (State.modLog
    s (i) (f)) := by
  unfold State.modLog
  with_reducible repeat' first | assumption | apply Keeps.setLog | split

theorem Keeps.showLog {b₀ s : State} (hG : Keeps b₀ s) : Keeps b₀ (State.showLog s) := by
  unfold State.showLog
  with_reducible repeat' first | assumption | apply Keeps.wr | refine fun s x h => ?_ | refine fun s h => ?_

theorem Keeps.writeLog {b₀ s : State} (e : LogEntry) (hG : Keeps b₀ s) : Keeps b₀ (State.writeLog s (e)).2 := by
  unfold State.writeLog
  repeat' first | with_reducible assumption | with_reducible apply Keeps.inc | with_reducible apply Keeps.setLog
                | with_reducible apply Keeps.wr | with_reducible apply Keeps.showLog | split
                | refine Keeps.upd ?_ rfl (Nat.le_refl _) (Nat.le_refl _)

theorem Keeps.takeCapture {b₀ s : State} (i : Nat) (e : LogEntry) (hG : Keeps b₀ s) : Keeps b₀ (State.takeCapture s
    (i) (e)) := by
  unfold State.takeCapture
  repeat' first | with_reducible assumption | with_reducible apply Keeps.setReg | with_reducible apply Keeps.wrB
                | with_reducible apply Keeps.wr | refine Keeps.upd ?_ rfl (Nat.le_refl _) (Nat.le_refl _)

theorem Keeps.capture {b₀ s : State} (i : Nat) (e : LogEntry) (hG : Keeps b₀ s) : Keeps b₀ (State.capture s (i)
    (e)) := by
  unfold State.capture
  with_reducible repeat' first | assumption | apply Keeps.takeCapture | split

theorem Keeps.faultIrq {b₀ s : State} (acts : BitVec 8) (hG : Keeps b₀ s) : Keeps b₀ (State.faultIrq s (acts)) := by
  unfold State.faultIrq
  with_reducible repeat' first | assumption | apply Keeps.wrB | apply Keeps.sendVec | split

theorem Keeps.faultRaised {b₀ s : State} (i : Nat) (e : LogEntry) (hG : Keeps b₀ s) : Keeps b₀ (State.faultRaised s
    (i) (e)) := by
  unfold State.faultRaised
  with_reducible repeat' first | assumption | apply Keeps.event

theorem Keeps.logFault {b₀ s : State} (e : LogEntry) (hG : Keeps b₀ s) : Keeps b₀ (State.logFault s (e)).2 := by
  unfold State.logFault
  repeat' (first | (with_reducible assumption) | (with_reducible apply Keeps.writeLog)
                 | (with_reducible apply Keeps.faultIrq) | (with_reducible apply Keeps.faultRaised)
                 | (refine fun s x h => ?_) | (refine fun s h => ?_)
                 | ((try lift_lets); intro x; refine Keeps.cutl (s := x) ?_ ?_; rotate_left; (intro hx; clear_value x); rotate_left; unfold x)
                 | ((try lift_lets); intro x) | split
                 | (with_reducible refine Keeps.upd ?_ ?_ ?_ ?_; rotate_left; exact rfl; (first | exact Nat.le_refl _ | exact Nat.le_max_left _ _ | exact Nat.le_add_right _ _); (first | exact Nat.le_refl _ | exact Nat.le_succ _); first | (with_reducible assumption) | (with_reducible apply Keeps.writeLog) | (with_reducible apply Keeps.faultIrq) | (with_reducible apply Keeps.faultRaised) | (with_reducible refine Keeps.of2 ‹_ = (_, _)› ?_) | (with_reducible refine Keeps.of22 ‹_ = (_, _, _)› ?_) | (with_reducible refine Keeps.of1 ‹_ = (_, _)› ?_))
                 | (with_reducible refine Keeps.of2 ‹_ = (_, _)› ?_)
                 | (with_reducible refine Keeps.of22 ‹_ = (_, _, _)› ?_)
                 | (with_reducible refine Keeps.of1 ‹_ = (_, _)› ?_) | (dsimp -zeta only) | (dsimp +zetaDelta only))

theorem Keeps.suppress {b₀ s : State} (n : Nat) (inst : Nat) (hG : Keeps b₀ s) : Keeps b₀ (State.suppress s (n)
    (inst)) := by
  unfold State.suppress
  repeat' first | with_reducible assumption | with_reducible apply Keeps.each | with_reducible apply Keeps.inc
                | refine fun s x h => ?_ | refine fun s h => ?_ | split
                | refine Keeps.upd ?_ rfl (Nat.le_refl _) (Nat.le_refl _)

theorem Keeps.countLogged {b₀ s : State} (n : Nat) (inst : Nat) (hG : Keeps b₀ s) : Keeps b₀ (State.countLogged s
    (n) (inst)) := by
  unfold State.countLogged
  repeat' first | with_reducible assumption | refine Keeps.upd ?_ rfl (Nat.le_refl _) (Nat.le_refl _)

theorem Keeps.latchFault {b₀ s : State} (n : Nat) (inst : Nat) (i : FaultInfo) (hG : Keeps b₀ s) : Keeps b₀
    (State.latchFault s (n) (inst) (i)) := by
  unfold State.latchFault
  dsimp only
  repeat' first | with_reducible assumption | with_reducible apply Keeps.setLatch
                | with_reducible apply Keeps.countLogged | with_reducible apply Keeps.logFault
                | with_reducible apply Keeps.capture | split
                | refine Keeps.upd ?_ rfl (Nat.le_refl _) (Nat.le_refl _)

theorem Keeps.repeatFault {b₀ s : State} (n : Nat) (inst : Nat) (i : FaultInfo) (hG : Keeps b₀ s) : Keeps b₀
    (State.repeatFault s (n) (inst) (i)) := by
  unfold State.repeatFault
  with_reducible repeat' first | assumption | apply Keeps.inc | apply Keeps.countLogged | apply Keeps.logFault | split

theorem Keeps.raiseWith {b₀ s : State} (n : Nat) (inst : Nat) (i : FaultInfo) (hG : Keeps b₀ s) : Keeps b₀
    (State.raiseWith s (n) (inst) (i)) := by
  unfold State.raiseWith
  with_reducible repeat' first | assumption | apply Keeps.suppress | apply Keeps.repeatFault | apply Keeps.latchFault
                               | refine fun s x h => ?_ | refine fun s h => ?_ | split

theorem Keeps.raise {b₀ s : State} (n : Nat) (inst : Nat) (hG : Keeps b₀ s) : Keeps b₀ (State.raise s (n) (inst))
    := by
  unfold State.raise
  with_reducible repeat' first | assumption | apply Keeps.raiseWith

end Sys2Proof.Machine
end

