-- ==== Sys2Proof/Laws/KeepWire.lean ====
section
/-! SUPPORT. What each operation of Machine/Wire.lean keeps (Laws/Keeps.lean). -/

set_option Elab.async false

namespace Sys2Proof.Machine

open Sys2Proof

theorem Keeps.modLane {b₀ s : State} (n : Nat) (f : LaneSt → LaneSt) (hG : Keeps b₀ s) : Keeps b₀ (State.modLane s
    (n) (f)) := by
  unfold State.modLane
  repeat' first | with_reducible assumption | refine Keeps.upd ?_ rfl (Nat.le_refl _) (Nat.le_refl _)

theorem Keeps.modPound {b₀ s : State} (n : Nat) (f : PoundSt → PoundSt) (hG : Keeps b₀ s) : Keeps b₀
    (State.modPound s (n) (f)) := by
  unfold State.modPound
  repeat' first | with_reducible assumption | refine Keeps.upd ?_ rfl (Nat.le_refl _) (Nat.le_refl _)

theorem Keeps.modLink {b₀ s : State} (g : Nat) (f : LinkSt → LinkSt) (hG : Keeps b₀ s) : Keeps b₀ (State.modLink s
    (g) (f)) := by
  unfold State.modLink
  repeat' first | with_reducible assumption | refine Keeps.upd ?_ rfl (Nat.le_refl _) (Nat.le_refl _)

theorem Keeps.modPort {b₀ s : State} (p : Nat) (f : PortSt → PortSt) (hG : Keeps b₀ s) : Keeps b₀ (State.modPort s
    (p) (f)) := by
  unfold State.modPort
  repeat' first | with_reducible assumption | refine Keeps.upd ?_ rfl (Nat.le_refl _) (Nat.le_refl _)

theorem Keeps.setLane {b₀ s : State} (n : Nat) (x : LaneState) (hG : Keeps b₀ s) : Keeps b₀ (State.setLane s (n)
    (x)) := by
  unfold State.setLane
  with_reducible repeat' first | assumption | apply Keeps.wr

theorem Keeps.bargeSeq {b₀ s : State} (typ : Nat) (hG : Keeps b₀ s) : Keeps b₀ (State.bargeSeq s (typ)).2 := by
  unfold State.bargeSeq
  repeat' first | with_reducible assumption | refine Keeps.upd ?_ rfl (Nat.le_refl _) (Nat.le_refl _)

theorem Keeps.occupy {b₀ s : State} (l : Nat) (n : Nat) (hG : Keeps b₀ s) : Keeps b₀ (State.occupy s (l) (n)) := by
  unfold State.occupy
  repeat' first | with_reducible assumption | refine fun s x h => ?_ | refine fun s h => ?_ | split
                | refine Keeps.upd ?_ rfl (Nat.le_refl _) (Nat.le_refl _)

theorem Keeps.sendBarge {b₀ s : State} (lane : Nat) (typ : Nat) (position : Nat) (pound : Nat) (dir : Nat) (cycle :
    Nat) (payload : Bytes) (hG : Keeps b₀ s) : Keeps b₀ (State.sendBarge s (lane) (typ) (position) (pound) (dir)
    (cycle) (payload)) := by
  unfold State.sendBarge
  with_reducible repeat' first | assumption | apply Keeps.bargeSeq | apply Keeps.occupy | apply Keeps.emit
                               | refine fun s x h => ?_ | refine fun s h => ?_ | split

theorem Keeps.screen {b₀ s : State} (p : Nat) (b : Barge) (f : State → State) (hf : ∀ s, Keeps b₀ s → Keeps b₀ (f s))
    (hG : Keeps b₀ s) : Keeps b₀ (State.screen s (p) (b) (f)) := by
  unfold State.screen
  repeat' first | with_reducible assumption | with_reducible apply Keeps.inc | with_reducible apply hf
                | refine fun s x h => ?_ | refine fun s h => ?_ | split
                | refine Keeps.upd ?_ rfl (Nat.le_refl _) (Nat.le_refl _)

theorem Keeps.sendKind {b₀ s : State} (lane : Nat) (kind : Nat) (cycle : Nat) (body : Bytes) (hG : Keeps b₀ s) :
    Keeps b₀ (State.sendKind s (lane) (kind) (cycle) (body)) := by
  unfold State.sendKind
  with_reducible repeat' first | assumption | apply Keeps.sendBarge

theorem Keeps.sendAll {b₀ s : State} (kind : Nat) (cycle : Nat) (body : Bytes) (hG : Keeps b₀ s) : Keeps b₀
    (State.sendAll s (kind) (cycle) (body)) := by
  unfold State.sendAll
  with_reducible repeat' first | assumption | apply Keeps.each | apply Keeps.sendKind | refine fun s x h => ?_
                               | refine fun s h => ?_

theorem Keeps.sendOne {b₀ s : State} (kind : Nat) (cycle : Nat) (body : Bytes) (hG : Keeps b₀ s) : Keeps b₀
    (State.sendOne s (kind) (cycle) (body)) := by
  unfold State.sendOne
  with_reducible repeat' first | assumption | apply Keeps.sendKind | split

theorem Keeps.sendRelay {b₀ s : State} (kind : Nat) (lane : Nat) (b : Barge) (hG : Keeps b₀ s) : Keeps b₀
    (State.sendRelay s (kind) (lane) (b)) := by
  unfold State.sendRelay
  with_reducible repeat' first | assumption | apply Keeps.sendBarge | split

theorem Keeps.sendNotice {b₀ s : State} (claim : Nat) (cause : Nat) (cycle : Nat) (hG : Keeps b₀ s) : Keeps b₀
    (State.sendNotice s (claim) (cause) (cycle)) := by
  unfold State.sendNotice
  with_reducible repeat' first | assumption | apply Keeps.sendAll

end Sys2Proof.Machine
end

