-- ==== Sys2Proof/Laws/KeepRings.lean ====
section
/-! SUPPORT. What each operation of Machine/Rings.lean keeps (Laws/Keeps.lean). -/

set_option Elab.async false

namespace Sys2Proof.Machine

open Sys2Proof

theorem Keeps.mirror {b₀ s : State} (d : Desc) (v : Verdict) (effect : Nat) (hG : Keeps b₀ s) : Keeps b₀
    (State.mirror s (d) (v) (effect)) := by
  unfold State.mirror
  with_reducible repeat' first | assumption | apply Keeps.sendOne | split

theorem Keeps.countAdmit {b₀ s : State} (hG : Keeps b₀ s) : Keeps b₀ (State.countAdmit s) := by
  unfold State.countAdmit
  repeat' first | with_reducible assumption | refine Keeps.upd ?_ rfl (Nat.le_refl _) (Nat.le_refl _)

theorem Keeps.showKept {b₀ s : State} (hG : Keeps b₀ s) : Keeps b₀ (State.showKept s) := by
  unfold State.showKept
  with_reducible repeat' first | assumption | apply Keeps.wr | apply Keeps.wrB | apply Keeps.each
                               | refine fun s x h => ?_ | refine fun s h => ?_

theorem Keeps.complete {b₀ s : State} (ring : Nat) (idx : Nat) (d : Desc) (v : Verdict) (hG : Keeps b₀ s) : Keeps
    b₀ (State.complete s (ring) (idx) (d) (v)) := by
  unfold State.complete
  with_reducible repeat' first | assumption | apply Keeps.countAdmit | apply Keeps.inc | apply Keeps.writeBack
                               | apply Keeps.mirror | split

theorem Keeps.resolve {b₀ s : State} (e : Kept) (v : Verdict) (hG : Keeps b₀ s) : Keeps b₀ (State.resolve s (e)
    (v)) := by
  unfold State.resolve
  repeat' first | with_reducible assumption | with_reducible apply Keeps.countAdmit
                | with_reducible apply Keeps.event | with_reducible apply Keeps.mirror
                | with_reducible apply Keeps.showKept | refine Keeps.upd ?_ rfl (Nat.le_refl _) (Nat.le_refl _)

theorem Keeps.resolveWhere {b₀ s : State} (p : Kept → Bool) (v : Verdict) (hG : Keeps b₀ s) : Keeps b₀
    (State.resolveWhere s (p) (v)) := by
  unfold State.resolveWhere
  with_reducible repeat' first | assumption | apply Keeps.each | apply Keeps.resolve | refine fun s x h => ?_
                               | refine fun s h => ?_

theorem Keeps.supersede {b₀ s : State} (p : Kept → Bool) (hG : Keeps b₀ s) : Keeps b₀ (State.supersede s (p)) := by
  unfold State.supersede
  with_reducible repeat' first | assumption | apply Keeps.resolveWhere

theorem Keeps.check {b₀ s : State} (row : Nat) (fmt : Format) (own : Owner) (c : Cmd) (hown : ∀ c t, Keeps b₀ t →
    Keeps b₀ (own c t).1) (hG : Keeps b₀ s) : Keeps b₀ (State.check s (row) (fmt) (own) (c)) := by
  unfold State.check
  dsimp only
  repeat' first | with_reducible assumption | with_reducible apply Keeps.complete
                | with_reducible apply Keeps.showKept | with_reducible apply hown | refine fun s x h => ?_
                | refine fun s h => ?_ | split | refine Keeps.upd ?_ rfl (Nat.le_refl _) (Nat.le_refl _)

theorem Keeps.takeUp {b₀ s : State} (r : Nat) (hG : Keeps b₀ s) : Keeps b₀ (State.takeUp s (r)).2.2 := by
  unfold State.takeUp
  repeat' first | with_reducible assumption | with_reducible apply Keeps.modRing
                | refine Keeps.upd ?_ rfl (Nat.le_refl _) (Nat.le_refl _)

theorem Keeps.wbPosted {b₀ s : State} (ring : Nat) (idx : Nat) (d : Desc) (mid : Nat) (status : Nat) (flags : Nat)
    (detail : Nat) (data : Nat) (hG : Keeps b₀ s) : Keeps b₀ (State.wbPosted s (ring) (idx) (d) (mid) (status)
    (flags) (detail) (data)) := by
  unfold State.wbPosted
  with_reducible repeat' first | assumption | apply Keeps.writeBack

theorem Keeps.popPosted {b₀ s : State} (r : Nat) (hG : Keeps b₀ s) : Keeps b₀ (State.popPosted s (r)) := by
  unfold State.popPosted
  repeat' first | with_reducible assumption | refine fun s x h => ?_ | refine fun s h => ?_ | split
                | refine Keeps.upd ?_ rfl (Nat.le_refl _) (Nat.le_refl _)

theorem Keeps.flushBad {b₀ s : State} (r : Nat) (n : Nat) (hG : Keeps b₀ s) : Keeps b₀ (State.flushBad s (r) n) := by
  induction n generalizing s with
  | zero => exact hG
  | succ n ih =>
    unfold State.flushBad
    repeat' first | with_reducible assumption | with_reducible apply Keeps.popPosted
                  | with_reducible apply Keeps.wbPosted | with_reducible apply ih | split
                  | refine Keeps.upd ?_ rfl (Nat.le_refl _) (Nat.le_refl _)

theorem Keeps.completePosted {b₀ s : State} (r : Nat) (mid : Nat) (status : Nat) (flags : Nat) (detail : Nat) (data
    : Nat) (hG : Keeps b₀ s) : Keeps b₀ (State.completePosted s (r) (mid) (status) (flags) (detail) (data)) := by
  unfold State.completePosted
  with_reducible repeat' first | assumption | apply Keeps.popPosted | apply Keeps.wbPosted | apply Keeps.flushBad
                               | split

theorem Keeps.enqueue {b₀ s : State} (p : Posted) (hG : Keeps b₀ s) : Keeps b₀ (State.enqueue s (p)) := by
  unfold State.enqueue
  repeat' first | with_reducible assumption | with_reducible apply Keeps.flushBad
                | refine Keeps.upd ?_ rfl (Nat.le_refl _) (Nat.le_refl _)

theorem Keeps.submit {b₀ s : State} (r : Nat) (row : Nat) (d : Desc) (fmt : Format) (own : Owner) (resp : Bytes)
    (hown : ∀ c t, Keeps b₀ t → Keeps b₀ (own c t).1) (hG : Keeps b₀ s) : Keeps b₀ (State.submit s (r) (row) (d)
    (fmt) (own) (resp)) := by
  unfold State.submit
  dsimp only
  repeat' first | with_reducible assumption | with_reducible apply Keeps.takeUp | with_reducible apply Keeps.enqueue
                | with_reducible apply Keeps.check | with_reducible apply hown | split
                | refine Keeps.upd ?_ rfl (Nat.le_refl _) (Nat.le_refl _)

end Sys2Proof.Machine
end

