-- ==== Sys2Proof/Laws/KeepLanes.lean ====
section
/-! SUPPORT. What each operation of Machine/Lanes.lean keeps (Laws/Keeps.lean). -/

set_option Elab.async false

namespace Sys2Proof.Machine

open Sys2Proof

theorem Keeps.setTaps {b₀ s : State} (n : Nat) (t : Nat × Nat) (hG : Keeps b₀ s) : Keeps b₀ (State.setTaps s (n)
    (t)) := by
  unfold State.setTaps
  with_reducible repeat' first | assumption | apply Keeps.wr | apply Keeps.modLane | refine fun s x h => ?_
                               | refine fun s h => ?_

theorem Keeps.laneOff {b₀ s : State} (n : Nat) (hG : Keeps b₀ s) : Keeps b₀ (State.laneOff s (n)) := by
  unfold State.laneOff
  with_reducible repeat' first | assumption | apply Keeps.wr | apply Keeps.wrBit | apply Keeps.setLane
                               | apply Keeps.modLane | refine fun s x h => ?_ | refine fun s h => ?_ | split

theorem Keeps.enterDetect {b₀ s : State} (n : Nat) (hG : Keeps b₀ s) : Keeps b₀ (State.enterDetect s (n)) := by
  unfold State.enterDetect
  with_reducible repeat' first | assumption | apply Keeps.laneOff | apply Keeps.modLane | apply Keeps.setLane
                               | apply Keeps.wr | apply Keeps.setTaps | refine fun s x h => ?_ | refine fun s h => ?_

theorem Keeps.restartLane {b₀ s : State} (n : Nat) (hG : Keeps b₀ s) : Keeps b₀ (State.restartLane s (n)) := by
  unfold State.restartLane
  dsimp only
  with_reducible repeat' first | assumption | apply Keeps.laneOff | apply Keeps.wr | apply Keeps.modLane
                               | apply Keeps.enterDetect | refine fun s x h => ?_ | refine fun s h => ?_ | split

theorem Keeps.restartLanes {b₀ s : State} (hG : Keeps b₀ s) : Keeps b₀ (State.restartLanes s) := by
  unfold State.restartLanes
  with_reducible repeat' first | assumption | apply Keeps.each | apply Keeps.restartLane

theorem Keeps.startQuad {b₀ s : State} (q : Nat) (hG : Keeps b₀ s) : Keeps b₀ (State.startQuad s (q)) := by
  unfold State.startQuad
  with_reducible repeat' first | assumption | apply Keeps.each | apply Keeps.restartLane | refine fun s x h => ?_
                               | refine fun s h => ?_ | split

theorem Keeps.allLanesOff {b₀ s : State} (hG : Keeps b₀ s) : Keeps b₀ (State.allLanesOff s) := by
  unfold State.allLanesOff
  with_reducible repeat' first | assumption | apply Keeps.each | apply Keeps.laneOff

theorem Keeps.enterRunning {b₀ s : State} (n : Nat) (hG : Keeps b₀ s) : Keeps b₀ (State.enterRunning s (n)) := by
  unfold State.enterRunning
  with_reducible repeat' first | assumption | apply Keeps.setLane | apply Keeps.wr | apply Keeps.modLane
                               | apply Keeps.wrBit | apply Keeps.event | refine fun s x h => ?_
                               | refine fun s h => ?_ | split

theorem Keeps.laneAbsent {b₀ s : State} (n : Nat) (hG : Keeps b₀ s) : Keeps b₀ (State.laneAbsent s (n)) := by
  unfold State.laneAbsent
  with_reducible repeat' first | assumption | apply Keeps.inc | apply Keeps.laneOff | apply Keeps.setLane
                               | apply Keeps.wrB | apply Keeps.event | split

theorem Keeps.backoffEnd {b₀ s : State} (n : Nat) (hG : Keeps b₀ s) : Keeps b₀ (State.backoffEnd s (n)) := by
  unfold State.backoffEnd
  with_reducible repeat' first | assumption | apply Keeps.enterDetect | split

theorem Keeps.sendTrain {b₀ s : State} (n : Nat) (payload : Bytes) (hG : Keeps b₀ s) : Keeps b₀ (State.sendTrain s
    (n) (payload)) := by
  unfold State.sendTrain
  with_reducible repeat' first | assumption | apply Keeps.sendBarge

theorem Keeps.sendEnum {b₀ s : State} (n : Nat) (hG : Keeps b₀ s) : Keeps b₀ (State.sendEnum s (n)) := by
  unfold State.sendEnum
  with_reducible repeat' first | assumption | apply Keeps.sendTrain

theorem Keeps.sendDelayReq {b₀ s : State} (n : Nat) (hG : Keeps b₀ s) : Keeps b₀ (State.sendDelayReq s (n)) := by
  unfold State.sendDelayReq
  with_reducible repeat' first | assumption | apply Keeps.modLane | apply Keeps.sendTrain | refine fun s x h => ?_
                               | refine fun s h => ?_ | split

theorem Keeps.endWake {b₀ s : State} (p : Nat) (hG : Keeps b₀ s) : Keeps b₀ (State.endWake s (p)) := by
  unfold State.endWake
  with_reducible repeat' first | assumption | apply Keeps.modPound | refine fun s x h => ?_ | refine fun s h => ?_
                               | split

theorem Keeps.laneAligned {b₀ s : State} (n : Nat) (xs : List Symbol) (hG : Keeps b₀ s) : Keeps b₀ (State.laneAligned
    s (n) (xs)) := by
  unfold State.laneAligned
  with_reducible repeat' first | assumption | apply Keeps.setLane | apply Keeps.enterRunning | apply Keeps.modLane
                               | apply Keeps.endWake | apply Keeps.sendTrain | apply Keeps.sendDelayReq
                               | refine fun s x h => ?_ | refine fun s h => ?_ | split

theorem Keeps.helloReceived {b₀ s : State} (n : Nat) (b : Barge) (hG : Keeps b₀ s) : Keeps b₀ (State.helloReceived s
    (n) (b)) := by
  unfold State.helloReceived
  with_reducible repeat' first | assumption | apply Keeps.screen | apply Keeps.modLane | apply Keeps.sendEnum
                               | refine fun s x h => ?_ | refine fun s h => ?_ | split

theorem Keeps.showReach {b₀ s : State} (n : Nat) (hG : Keeps b₀ s) : Keeps b₀ (State.showReach s (n)) := by
  unfold State.showReach
  with_reducible repeat' first | assumption | apply Keeps.wr

theorem Keeps.nodeReport {b₀ s : State} (n : Nat) (b : Barge) (hG : Keeps b₀ s) : Keeps b₀ (State.nodeReport s (n)
    (b)) := by
  unfold State.nodeReport
  with_reducible repeat' first | assumption | apply Keeps.modPound | apply Keeps.modLane | refine fun s x h => ?_
                               | refine fun s h => ?_ | split

theorem Keeps.reportReceived {b₀ s : State} (n : Nat) (b : Barge) (hG : Keeps b₀ s) : Keeps b₀ (State.reportReceived s
    (n) (b)) := by
  unfold State.reportReceived
  dsimp only
  with_reducible repeat' first | assumption | apply Keeps.screen | apply Keeps.sendRelay | apply Keeps.nodeReport
                               | apply Keeps.showReach | apply Keeps.each | apply Keeps.modLane
                               | refine fun s x h => ?_ | refine fun s h => ?_ | split

theorem Keeps.leaveEnum {b₀ s : State} (n : Nat) (hG : Keeps b₀ s) : Keeps b₀ (State.leaveEnum s (n)) := by
  unfold State.leaveEnum
  dsimp only
  with_reducible repeat' first | assumption | apply Keeps.setLane | apply Keeps.modLane | apply Keeps.enterRunning
                               | refine fun s x h => ?_ | refine fun s h => ?_ | split

theorem Keeps.forgetAligned {b₀ s : State} (p : Nat) (hG : Keeps b₀ s) : Keeps b₀ (State.forgetAligned s (p)) := by
  unfold State.forgetAligned
  with_reducible repeat' first | assumption | apply Keeps.modPound | refine fun s x h => ?_ | refine fun s h => ?_
                               | split

theorem Keeps.stepIssue {b₀ s : State} (p : Nat) (wait : Nat) (hG : Keeps b₀ s) : Keeps b₀ (State.stepIssue s (p)
    (wait)) := by
  unfold State.stepIssue
  dsimp only
  with_reducible repeat' first | assumption | apply Keeps.each | apply Keeps.setLane | apply Keeps.modLane
                               | apply Keeps.sendTrain | apply Keeps.forgetAligned | refine fun s x h => ?_
                               | refine fun s h => ?_ | split

theorem Keeps.stepReceived {b₀ s : State} (n : Nat) (b : Barge) (hG : Keeps b₀ s) : Keeps b₀ (State.stepReceived s (n)
    (b)) := by
  unfold State.stepReceived
  with_reducible repeat' first | assumption | apply Keeps.screen | apply Keeps.setLane | apply Keeps.modLane
                               | apply Keeps.forgetAligned | refine fun s x h => ?_ | refine fun s h => ?_ | split

theorem Keeps.setRate {b₀ s : State} (n : Nat) (rate : Nat) (t : Nat × Nat) (hG : Keeps b₀ s) : Keeps b₀
    (State.setRate s (n) (rate) (t)) := by
  unfold State.setRate
  with_reducible repeat' first | assumption | apply Keeps.wr | apply Keeps.setTaps

theorem Keeps.stepTime {b₀ s : State} (p : Nat) (hG : Keeps b₀ s) : Keeps b₀ (State.stepTime s (p)) := by
  unfold State.stepTime
  with_reducible repeat' first | assumption | apply Keeps.each | apply Keeps.advanceTo | apply Keeps.modLane
                               | apply Keeps.setRate | apply Keeps.sendTrain | refine fun s x h => ?_
                               | refine fun s h => ?_ | split

theorem Keeps.eqReqReceived {b₀ s : State} (n : Nat) (b : Barge) (hG : Keeps b₀ s) : Keeps b₀ (State.eqReqReceived s
    (n) (b)) := by
  unfold State.eqReqReceived
  with_reducible repeat' first | assumption | apply Keeps.screen | apply Keeps.sendTrain | apply Keeps.setTaps
                               | refine fun s x h => ?_ | refine fun s h => ?_ | split

theorem Keeps.sendEqReq {b₀ s : State} (n : Nat) (pre : Nat) (post : Nat) (hG : Keeps b₀ s) : Keeps b₀
    (State.sendEqReq s (n) (pre) (post)) := by
  unfold State.sendEqReq
  with_reducible repeat' first | assumption | apply Keeps.modLane | apply Keeps.sendTrain | refine fun s x h => ?_
                               | refine fun s h => ?_ | split

theorem Keeps.eqRspReceived {b₀ s : State} (n : Nat) (b : Barge) (eye : Nat) (pre : Nat) (post : Nat) (hG : Keeps b₀
    s) : Keeps b₀ (State.eqRspReceived s (n) (b) (eye) (pre) (post)) := by
  unfold State.eqRspReceived
  dsimp only
  with_reducible repeat' first | assumption | apply Keeps.screen | apply Keeps.wr | apply Keeps.modLane
                               | apply Keeps.sendEqReq | refine fun s x h => ?_ | refine fun s h => ?_ | split

theorem Keeps.poundRate {b₀ s : State} (p : Nat) (rate : Nat) (reverted : Bool) (hG : Keeps b₀ s) : Keeps b₀
    (State.poundRate s (p) (rate) (reverted)) := by
  unfold State.poundRate
  with_reducible repeat' first | assumption | apply Keeps.event

theorem Keeps.endStep {b₀ s : State} (n : Nat) (hG : Keeps b₀ s) : Keeps b₀ (State.endStep s (n)) := by
  unfold State.endStep
  dsimp only
  with_reducible repeat' first | assumption | apply Keeps.modLane | apply Keeps.enterRunning | refine fun s x h => ?_
                               | refine fun s h => ?_ | split

theorem Keeps.confirm {b₀ s : State} (p : Nat) (hG : Keeps b₀ s) : Keeps b₀ (State.confirm s (p)) := by
  unfold State.confirm
  dsimp only
  with_reducible repeat' first | assumption | apply Keeps.each | apply Keeps.sendTrain | apply Keeps.modPound
                               | apply Keeps.endStep | apply Keeps.poundRate | refine fun s x h => ?_
                               | refine fun s h => ?_ | split

theorem Keeps.stepRevert {b₀ s : State} (p : Nat) (hG : Keeps b₀ s) : Keeps b₀ (State.stepRevert s (p)) := by
  unfold State.stepRevert
  dsimp only
  with_reducible repeat' first | assumption | apply Keeps.advanceTo | apply Keeps.modLane | apply Keeps.setRate
                               | apply Keeps.inc | apply Keeps.each | apply Keeps.forgetAligned | apply Keeps.wr
                               | apply Keeps.raise | apply Keeps.poundRate | refine fun s x h => ?_
                               | refine fun s h => ?_ | split

theorem Keeps.confirmReceived {b₀ s : State} (n : Nat) (b : Barge) (hG : Keeps b₀ s) : Keeps b₀ (State.confirmReceived
    s (n) (b)) := by
  unfold State.confirmReceived
  with_reducible repeat' first | assumption | apply Keeps.screen | apply Keeps.setRate | apply Keeps.modPound
                               | apply Keeps.modLane | apply Keeps.enterRunning | refine fun s x h => ?_
                               | refine fun s h => ?_ | split

theorem Keeps.hopRejoin {b₀ s : State} (n : Nat) (ok : Bool) (hG : Keeps b₀ s) : Keeps b₀ (State.hopRejoin s (n) (ok))
    := by
  unfold State.hopRejoin
  dsimp only
  with_reducible repeat' first | assumption | apply Keeps.inc | apply Keeps.laneOff | apply Keeps.setLane
                               | apply Keeps.wrB | apply Keeps.event | apply Keeps.sendTrain
                               | apply Keeps.enterRunning | apply Keeps.modLane | refine fun s x h => ?_
                               | refine fun s h => ?_ | split

theorem Keeps.countInvalid {b₀ s : State} (n : Nat) (xs : List Symbol) (hG : Keeps b₀ s) : Keeps b₀
    (State.countInvalid s (n) (xs)) := by
  unfold State.countInvalid
  with_reducible repeat' first | assumption | apply Keeps.incBy | refine fun s x h => ?_ | refine fun s h => ?_
                               | split

theorem Keeps.laneLost {b₀ s : State} (n : Nat) (cause : Nat) (xs : List Symbol) (hG : Keeps b₀ s) : Keeps b₀
    (State.laneLost s (n) (cause) (xs)) := by
  unfold State.laneLost
  dsimp only
  with_reducible repeat' first | assumption | apply Keeps.countInvalid | apply Keeps.wrB | apply Keeps.inc
                               | apply Keeps.event | apply Keeps.raise | apply Keeps.laneOff | apply Keeps.modLane
                               | apply Keeps.enterDetect | refine fun s x h => ?_ | refine fun s h => ?_ | split

theorem Keeps.enumRetry {b₀ s : State} (n : Nat) (hG : Keeps b₀ s) : Keeps b₀ (State.enumRetry s (n)) := by
  unfold State.enumRetry
  dsimp only
  with_reducible repeat' first | assumption | apply Keeps.modLane | apply Keeps.sendEnum | refine fun s x h => ?_
                               | refine fun s h => ?_ | split

theorem Keeps.keepAliveSend {b₀ s : State} (hG : Keeps b₀ s) : Keeps b₀ (State.keepAliveSend s) := by
  unfold State.keepAliveSend
  with_reducible repeat' first | assumption | apply Keeps.each | apply Keeps.emit | apply Keeps.modPort
                               | refine fun s x h => ?_ | refine fun s h => ?_ | split

theorem Keeps.towpathFrame {b₀ s : State} (p : Nat) (f : Bytes) (hG : Keeps b₀ s) : Keeps b₀ (State.towpathFrame s
    (p) (f)) := by
  unfold State.towpathFrame
  dsimp only
  with_reducible repeat' first | assumption | apply Keeps.inc | apply Keeps.modPort | apply Keeps.wr
                               | apply Keeps.wrB | apply Keeps.event | refine fun s x h => ?_ | refine fun s h => ?_
                               | split

theorem Keeps.towpathLost {b₀ s : State} (p : Nat) (hG : Keeps b₀ s) : Keeps b₀ (State.towpathLost s (p)) := by
  unfold State.towpathLost
  with_reducible repeat' first | assumption | apply Keeps.wrB | apply Keeps.inc | apply Keeps.modPort
                               | apply Keeps.event | apply Keeps.raise | refine fun s x h => ?_
                               | refine fun s h => ?_ | split

theorem Keeps.wakeAll {b₀ s : State} (hG : Keeps b₀ s) : Keeps b₀ (State.wakeAll s) := by
  unfold State.wakeAll
  with_reducible repeat' first | assumption | apply Keeps.each | apply Keeps.modPound | refine fun s x h => ?_
                               | refine fun s h => ?_

end Sys2Proof.Machine
end

