-- ==== Sys2Proof/Laws/KeepSlots.lean ====
section
/-! SUPPORT. What each operation of Machine/Slots.lean keeps (Laws/Keeps.lean). -/

set_option Elab.async false

namespace Sys2Proof.Machine

open Sys2Proof

theorem Keeps.judgeRegions {b₀ s : State} (hG : Keeps b₀ s) : Keeps b₀ (State.judgeRegions s) := by
  unfold State.judgeRegions
  dsimp only
  repeat' first | with_reducible assumption | with_reducible apply Keeps.each | with_reducible apply Keeps.raise
                | refine fun s x h => ?_ | refine fun s h => ?_ | split
                | refine Keeps.upd ?_ rfl (Nat.le_refl _) (Nat.le_refl _)

theorem Keeps.putSlot {b₀ s : State} (i : Nat) (v : F32) (q : BitVec 8) (k : Nat) (hG : Keeps b₀ s) : Keeps b₀
    (State.putSlot s (i) (v) (q) (k)) := by
  unfold State.putSlot
  repeat' first | with_reducible assumption | refine Keeps.upd ?_ rfl (Nat.le_refl _) (Nat.le_refl _)

theorem Keeps.writeQual {b₀ s : State} (kind : Nat) (i : Nat) (v : F32) (q : BitVec 8) (k : Nat) (hG : Keeps b₀ s)
    : Keeps b₀ (State.writeQual s (kind) (i) (v) (q) (k)) := by
  unfold State.writeQual
  with_reducible repeat' first | assumption | apply Keeps.putSlot | split

theorem Keeps.writeSlot {b₀ s : State} (kind : Nat) (i : Nat) (v : F32) (good : Bool) (k : Nat) (hG : Keeps b₀ s)
    : Keeps b₀ (State.writeSlot s (kind) (i) (v) (good) (k)) := by
  unfold State.writeSlot
  with_reducible repeat' first | assumption | apply Keeps.writeQual

end Sys2Proof.Machine
end

