-- ==== Sys2Proof/Laws/KeepLoopEngine.lean ====
section
/-! SUPPORT. What each operation of Machine/LoopEngine.lean keeps (Laws/Keeps.lean). -/

set_option Elab.async false

namespace Sys2Proof.Machine

open Sys2Proof

theorem Keeps.setBankInfo {b₀ s : State} (b : Nat) (x : BankInfo) (hG : Keeps b₀ s) : Keeps b₀ (State.setBankInfo s
    (b) (x)) := by
  unfold State.setBankInfo
  repeat' first | with_reducible assumption | split | refine Keeps.upd ?_ rfl (Nat.le_refl _) (Nat.le_refl _)

theorem Keeps.verifyGo {b₀ s : State} (hG : Keeps b₀ s) : Keeps b₀ (State.verifyGo s) := by
  unfold State.verifyGo
  repeat' first | with_reducible assumption | with_reducible apply Keeps.wrB | split
                | refine Keeps.upd ?_ rfl (Nat.le_refl _) (Nat.le_refl _)

theorem Keeps.showBanks {b₀ s : State} (hG : Keeps b₀ s) : Keeps b₀ (State.showBanks s) := by
  unfold State.showBanks
  with_reducible repeat' first | assumption | apply Keeps.wrB | apply Keeps.verified | apply Keeps.wr

theorem Keeps.verifyEnd {b₀ s : State} (hG : Keeps b₀ s) : Keeps b₀ (State.verifyEnd s) := by
  unfold State.verifyEnd
  repeat' first | with_reducible assumption | with_reducible apply Keeps.verified | with_reducible apply Keeps.wrB
                | with_reducible apply Keeps.setBankInfo | with_reducible apply Keeps.wr
                | with_reducible apply Keeps.showBanks | with_reducible apply Keeps.event | split
                | refine Keeps.upd ?_ rfl (Nat.le_refl _) (Nat.le_refl _)

theorem Keeps.words_put {b₀ s t : State} (hG : Keeps b₀ s) (off : Nat) (v : Word) (hp : t.pending = s.pending)
    (hr : t.regs = s.regs) (hw : t.loop.words = SMap.put (fun _ => 0) s.loop.words off v) (ht : t.tsn = s.tsn)
    (hf : t.free = s.free) (ho : t.out = s.out) : Keeps b₀ t :=
  ⟨hp.trans hG.queue, fun h => by rw [State.regsWf, hr]; exact hG.regs h,
    fun h => by rw [State.banksWf, hw]; exact SMap.put_wf _ _ _ _ (hG.banks h), by rw [ht]; exact hG.clock,
    by rw [hf]; exact hG.free, by rw [ho]; exact hG.sent⟩

theorem Keeps.bankWrite {b₀ s : State} (off : Nat) (v : Word) (hG : Keeps b₀ s) : Keeps b₀ (s.bankWrite off v) := by
  unfold State.bankWrite
  dsimp only
  split
  · exact hG.raise _ _
  · refine Keeps.showBanks (Keeps.setBankInfo _ _ (Keeps.words_put hG off v ?_ ?_ ?_ ?_ ?_ ?_)) <;> rfl

theorem Keeps.acceptCommit {b₀ s : State} (b : Nat) (hG : Keeps b₀ s) : Keeps b₀ (State.acceptCommit s (b)) := by
  unfold State.acceptCommit
  repeat' first | with_reducible assumption | with_reducible apply Keeps.wrB
                | refine Keeps.upd ?_ rfl (Nat.le_refl _) (Nat.le_refl _)

theorem Keeps.setLoop {b₀ s : State} (d : Nat) (x : LoopState) (hG : Keeps b₀ s) : Keeps b₀ (State.setLoop s (d)
    (x)) := by
  unfold State.setLoop
  repeat' first | with_reducible assumption | refine Keeps.upd ?_ rfl (Nat.le_refl _) (Nat.le_refl _)

theorem Keeps.restLoops {b₀ s : State} (hG : Keeps b₀ s) : Keeps b₀ (State.restLoops s) := by
  unfold State.restLoops
  repeat' first | with_reducible assumption | refine Keeps.upd ?_ rfl (Nat.le_refl _) (Nat.le_refl _)

theorem Keeps.showStages {b₀ s : State} (hG : Keeps b₀ s) : Keeps b₀ (State.showStages s) := by
  unfold State.showStages
  with_reducible repeat' first | assumption | apply Keeps.each | apply Keeps.wr | refine fun s x h => ?_
                               | refine fun s h => ?_ | split

theorem Keeps.swapBank {b₀ s : State} (hG : Keeps b₀ s) : Keeps b₀ (State.swapBank s) := by
  unfold State.swapBank
  repeat' first | with_reducible assumption | with_reducible apply Keeps.wr | with_reducible apply Keeps.wrB
                | with_reducible apply Keeps.each | with_reducible apply Keeps.showBanks
                | with_reducible apply Keeps.showStages | with_reducible apply Keeps.event | refine fun s x h => ?_
                | refine fun s h => ?_ | split | refine Keeps.upd ?_ rfl (Nat.le_refl _) (Nat.le_refl _)

theorem Keeps.loopEvent {b₀ s : State} (code : Nat) (d : Nat) (hG : Keeps b₀ s) : Keeps b₀ (State.loopEvent s
    (code) (d)) := by
  unfold State.loopEvent
  with_reducible repeat' first | assumption | apply Keeps.event

theorem Keeps.writeOut {b₀ s : State} (b : Nat) (d : Nat) (u : F32) (q : BitVec 8) (half : Bool) (hG : Keeps b₀ s)
    : Keeps b₀ (State.writeOut s (b) (d) (u) (q) (half)) := by
  unfold State.writeOut
  dsimp only
  with_reducible repeat' first | assumption | apply Keeps.putSlot | split

theorem Keeps.showLoop {b₀ s : State} (d : Nat) (limited : Bool) (half : Bool) (hG : Keeps b₀ s) : Keeps b₀
    (State.showLoop s (d) (limited) (half)) := by
  unfold State.showLoop
  with_reducible repeat' first | assumption | apply Keeps.wr | apply Keeps.wrB

theorem Keeps.enterPolicy {b₀ s : State} (d : Nat) (pol : Nat) (cause : Nat) (x : LoopState) (hG : Keeps b₀ s) : Keeps
    b₀ (State.enterPolicy s (d) (pol) (cause) (x)).1 := by
  unfold State.enterPolicy
  with_reducible repeat' first | assumption | apply Keeps.inc | apply Keeps.event | apply Keeps.raise
                               | refine fun s x h => ?_ | refine fun s h => ?_ | split

theorem Keeps.evalNormal {b₀ s : State} (b : Nat) (d : Nat) (x : LoopState) (y : LoopState) (i : EvalIn) (qual :
    BitVec 8) (half : Bool) (hG : Keeps b₀ s) : Keeps b₀ (State.evalNormal s (b) (d) (x) (y) (i) (qual) (half)) := by
  unfold State.evalNormal
  dsimp only
  with_reducible repeat' first | assumption | apply Keeps.setLoop | apply Keeps.wrB | apply Keeps.loopEvent
                               | apply Keeps.raise | apply Keeps.writeOut | apply Keeps.showLoop
                               | refine fun s x h => ?_ | refine fun s h => ?_ | split

theorem Keeps.evalRecovered {b₀ s : State} (b : Nat) (d : Nat) (x : LoopState) (i : EvalIn) (half : Bool) (hG : Keeps
    b₀ s) : Keeps b₀ (State.evalRecovered s (b) (d) (x) (i) (half)) := by
  unfold State.evalRecovered
  dsimp only
  with_reducible repeat' first | assumption | apply Keeps.evalNormal | refine fun s x h => ?_ | refine fun s h => ?_
                               | split

theorem Keeps.judgeSub {b₀ s : State} (view : State) (b : Nat) (d : Nat) (x : LoopState) (spLost : Bool) (half : Bool)
    (hG : Keeps b₀ s) : Keeps b₀ (State.judgeSub s (view) (b) (d) (x) (spLost) (half)).1 := by
  unfold State.judgeSub
  dsimp only
  with_reducible repeat' first | assumption | apply Keeps.enterPolicy | refine fun s x h => ?_ | refine fun s h => ?_
                               | split

theorem Keeps.policyOut {b₀ s : State} (view : State) (b : Nat) (d : Nat) (x : LoopState) (i : EvalIn) (half : Bool)
    (hG : Keeps b₀ s) : Keeps b₀ (State.policyOut s (view) (b) (d) (x) (i) (half)) := by
  unfold State.policyOut
  with_reducible repeat' first | assumption | apply Keeps.evalNormal | apply Keeps.setLoop | apply Keeps.writeOut
                               | apply Keeps.showLoop | refine fun s x h => ?_ | refine fun s h => ?_ | split

theorem Keeps.underPolicy {b₀ s : State} (view : State) (b : Nat) (d : Nat) (x : LoopState) (i : EvalIn) (cause : Nat)
    (spLost : Bool) (half : Bool) (hG : Keeps b₀ s) : Keeps b₀ (State.underPolicy s (view) (b) (d) (x) (i) (cause)
    (spLost) (half)) := by
  unfold State.underPolicy
  dsimp only
  with_reducible repeat' first | assumption | apply Keeps.evalRecovered | apply Keeps.loopEvent | apply Keeps.judgeSub
                               | apply Keeps.policyOut | refine fun s x h => ?_ | refine fun s h => ?_ | split

theorem Keeps.noteStale {b₀ s : State} (d : Nat) (stale : Bool) (hG : Keeps b₀ s) : Keeps b₀ (State.noteStale s (d)
    (stale)) := by
  unfold State.noteStale
  with_reducible repeat' first | assumption | apply Keeps.when | apply Keeps.loopEvent | apply Keeps.wrB
                               | refine fun s x h => ?_ | refine fun s h => ?_

theorem Keeps.evalOn {b₀ s : State} (view : State) (b : Nat) (d : Nat) (x : LoopState) (i : EvalIn) (cause : Nat)
    (half : Bool) (hG : Keeps b₀ s) : Keeps b₀ (State.evalOn s (view) (b) (d) (x) (i) (cause) (half)) := by
  unfold State.evalOn
  repeat' first | with_reducible assumption | with_reducible apply Keeps.underPolicy
                | with_reducible apply Keeps.enterPolicy | with_reducible apply Keeps.evalRecovered
                | with_reducible apply Keeps.evalNormal | refine fun s x h => ?_ | refine fun s h => ?_ | split
                | refine Keeps.upd ?_ rfl (Nat.le_refl _) (Nat.le_refl _)

theorem Keeps.evalLoop {b₀ s : State} (view : State) (d : Nat) (h : F32) (n : Nat) (half : Bool) (hG : Keeps b₀ s)
    : Keeps b₀ (State.evalLoop s (view) (d) (h) (n) (half)) := by
  unfold State.evalLoop
  with_reducible repeat' first | assumption | apply Keeps.noteStale | apply Keeps.wr | apply Keeps.evalOn

theorem Keeps.runLoop {b₀ s : State} (view : State) (d : Nat) (hG : Keeps b₀ s) : Keeps b₀ (State.runLoop s (view)
    (d)) := by
  unfold State.runLoop
  dsimp only
  with_reducible repeat' first | assumption | apply Keeps.setLoop | apply Keeps.evalLoop | apply Keeps.showLoop
                               | split

theorem Keeps.judgeFeedback {b₀ s : State} (hG : Keeps b₀ s) : Keeps b₀ (State.judgeFeedback s) := by
  unfold State.judgeFeedback
  with_reducible repeat' first | assumption | apply Keeps.setActive

theorem Keeps.showWindow {b₀ s : State} (hG : Keeps b₀ s) : Keeps b₀ (State.showWindow s) := by
  unfold State.showWindow
  repeat' first | with_reducible assumption | with_reducible apply Keeps.wr | refine fun s x h => ?_
                | refine fun s h => ?_ | split | refine Keeps.upd ?_ rfl (Nat.le_refl _) (Nat.le_refl _)

theorem Keeps.lockstepMismatch {b₀ s : State} (d : Nat) (hG : Keeps b₀ s) : Keeps b₀ (State.lockstepMismatch s (d)) :=
    by
  unfold State.lockstepMismatch
  dsimp only
  repeat' first | with_reducible assumption | with_reducible apply Keeps.showWindow | with_reducible apply Keeps.inc
                | with_reducible apply Keeps.event | with_reducible apply Keeps.raise | refine fun s x h => ?_
                | refine fun s h => ?_ | split | refine Keeps.upd ?_ rfl (Nat.le_refl _) (Nat.le_refl _)

theorem Keeps.selfTest {b₀ s : State} (flagged : Bool) (hG : Keeps b₀ s) : Keeps b₀ (State.selfTest s (flagged)) := by
  unfold State.selfTest
  repeat' first | with_reducible assumption | with_reducible apply Keeps.wrB | with_reducible apply Keeps.raise
                | split | refine Keeps.upd ?_ rfl (Nat.le_refl _) (Nat.le_refl _)

end Sys2Proof.Machine
end

