-- ==== Sys2Proof/Laws/KeepManager.lean ====
section
/-! SUPPORT. What each operation of Machine/Manager.lean keeps (Laws/Keeps.lean). -/

set_option Elab.async false

namespace Sys2Proof.Machine

open Sys2Proof

theorem Keeps.modCell {b₀ s : State} (g : Nat) (f : CellSt → CellSt) (hG : Keeps b₀ s) : Keeps b₀ (State.modCell s
    (g) (f)) := by
  unfold State.modCell
  repeat' first | with_reducible assumption | refine Keeps.upd ?_ rfl (Nat.le_refl _) (Nat.le_refl _)

theorem Keeps.modPmgr {b₀ s : State} (p : Nat) (f : PoundMgr → PoundMgr) (hG : Keeps b₀ s) : Keeps b₀
    (State.modPmgr s (p) (f)) := by
  unfold State.modPmgr
  repeat' first | with_reducible assumption | refine Keeps.upd ?_ rfl (Nat.le_refl _) (Nat.le_refl _)

theorem Keeps.modLeg {b₀ s : State} (l : Nat) (f : LegSt → LegSt) (hG : Keeps b₀ s) : Keeps b₀ (State.modLeg s (l)
    (f)) := by
  unfold State.modLeg
  repeat' first | with_reducible assumption | refine Keeps.upd ?_ rfl (Nat.le_refl _) (Nat.le_refl _)

theorem Keeps.setPound {b₀ s : State} (p : Nat) (st : Nat) (cause : Nat) (hG : Keeps b₀ s) : Keeps b₀
    (State.setPound s (p) (st) (cause)) := by
  unfold State.setPound
  dsimp only
  with_reducible repeat' first | assumption | apply Keeps.wr | apply Keeps.event | split

theorem Keeps.roleEvent {b₀ s : State} (g : Nat) (old : CellRole) (new : CellRole) (cause : Nat) (hG : Keeps b₀ s)
    : Keeps b₀ (State.roleEvent s (g) (old) (new) (cause)) := by
  unfold State.roleEvent
  with_reducible repeat' first | assumption | apply Keeps.event

theorem Keeps.setRole {b₀ s : State} (g : Nat) (r : CellRole) (hG : Keeps b₀ s) : Keeps b₀ (State.setRole s (g)
    (r)) := by
  unfold State.setRole
  with_reducible repeat' first | assumption | apply Keeps.wr | apply Keeps.modCell | refine fun s x h => ?_
                               | refine fun s h => ?_

theorem Keeps.setRoles {b₀ s : State} (gs : List Nat) (r : CellRole) (hG : Keeps b₀ s) : Keeps b₀ (State.setRoles s
    (gs) (r)) := by
  unfold State.setRoles
  with_reducible repeat' first | assumption | apply Keeps.each | apply Keeps.setRole | refine fun s x h => ?_
                               | refine fun s h => ?_

theorem Keeps.showCounts {b₀ s : State} (l : Nat) (hG : Keeps b₀ s) : Keeps b₀ (State.showCounts s (l)) := by
  unfold State.showCounts
  with_reducible repeat' first | assumption | apply Keeps.wr

theorem Keeps.unrank {b₀ s : State} (g : Nat) (hG : Keeps b₀ s) : Keeps b₀ (State.unrank s (g)) := by
  unfold State.unrank
  with_reducible repeat' first | assumption | apply Keeps.wr | apply Keeps.modCell | refine fun s x h => ?_
                               | refine fun s h => ?_

theorem Keeps.rankCell {b₀ s : State} (g : Nat) (r : Nat) (n : Nat) (steps : Nat) (hG : Keeps b₀ s) : Keeps b₀
    (State.rankCell s (g) (r) (n) (steps)) := by
  unfold State.rankCell
  with_reducible repeat' first | assumption | apply Keeps.modCell | apply Keeps.wr | refine fun s x h => ?_
                               | refine fun s h => ?_

theorem Keeps.regroup {b₀ s : State} (l : Nat) (hG : Keeps b₀ s) : Keeps b₀ (State.regroup s (l)) := by
  unfold State.regroup
  dsimp only
  with_reducible repeat' first | assumption | apply Keeps.showCounts | apply Keeps.each | apply Keeps.unrank
                               | apply Keeps.rankCell | apply Keeps.wr | apply Keeps.modLeg | refine fun s x h => ?_
                               | refine fun s h => ?_ | split

theorem Keeps.regroupAll {b₀ s : State} (hG : Keeps b₀ s) : Keeps b₀ (State.regroupAll s) := by
  unfold State.regroupAll
  with_reducible repeat' first | assumption | apply Keeps.each | apply Keeps.regroup

theorem Keeps.stepCarriers {b₀ s : State} (l : Nat) (hG : Keeps b₀ s) : Keeps b₀ (State.stepCarriers s (l)) := by
  unfold State.stepCarriers
  dsimp only
  with_reducible repeat' first | assumption | apply Keeps.each | apply Keeps.modCell | apply Keeps.wr
                               | refine fun s x h => ?_ | refine fun s h => ?_ | split

theorem Keeps.redistDone {b₀ s : State} (l : Nat) (hG : Keeps b₀ s) : Keeps b₀ (State.redistDone s (l)) := by
  unfold State.redistDone
  with_reducible repeat' first | assumption | apply Keeps.modLeg | apply Keeps.event | refine fun s x h => ?_
                               | refine fun s h => ?_ | split

theorem Keeps.setCond {b₀ s : State} (l : Nat) (c : Nat) (hG : Keeps b₀ s) : Keeps b₀ (State.setCond s (l) (c)) := by
  unfold State.setCond
  dsimp only
  with_reducible repeat' first | assumption | apply Keeps.wr | apply Keeps.event | apply Keeps.raise | split

theorem Keeps.startShutDown {b₀ s : State} (legs : BitVec 3) (hG : Keeps b₀ s) : Keeps b₀ (State.startShutDown s
    (legs)) := by
  unfold State.startShutDown
  repeat' first | with_reducible assumption | with_reducible apply Keeps.wrB | split
                | refine Keeps.upd ?_ rfl (Nat.le_refl _) (Nat.le_refl _)

theorem Keeps.judgeLeg {b₀ s : State} (l : Nat) (hG : Keeps b₀ s) : Keeps b₀ (State.judgeLeg s (l)) := by
  unfold State.judgeLeg
  dsimp only
  with_reducible repeat' first | assumption | apply Keeps.wr | apply Keeps.showCounts | apply Keeps.modLeg
                               | apply Keeps.setCond | apply Keeps.setActive | apply Keeps.raise
                               | apply Keeps.startShutDown | refine fun s x h => ?_ | refine fun s h => ?_ | split

theorem Keeps.putOut {b₀ s : State} (off : Nat) (v : F32) (valid : Bool) (hG : Keeps b₀ s) : Keeps b₀ (State.putOut
    s (off) (v) (valid)) := by
  unfold State.putOut
  with_reducible repeat' first | assumption | apply Keeps.writeSlot

theorem Keeps.putValid {b₀ s : State} (off : Nat) (v : F32) (valid : Bool) (hG : Keeps b₀ s) : Keeps b₀
    (State.putValid s (off) (v) (valid)) := by
  unfold State.putValid
  with_reducible repeat' first | assumption | apply Keeps.writeQual

theorem Keeps.writeLegSum {b₀ s : State} (l : Nat) (hG : Keeps b₀ s) : Keeps b₀ (State.writeLegSum s (l)) := by
  unfold State.writeLegSum
  with_reducible repeat' first | assumption | apply Keeps.putOut | apply Keeps.putValid | refine fun s x h => ?_
                               | refine fun s h => ?_ | split

theorem Keeps.writeLegSums {b₀ s : State} (hG : Keeps b₀ s) : Keeps b₀ (State.writeLegSums s) := by
  unfold State.writeLegSums
  with_reducible repeat' first | assumption | apply Keeps.each | apply Keeps.writeLegSum | refine fun s x h => ?_
                               | refine fun s h => ?_ | split

theorem Keeps.advanceFrame {b₀ s : State} (hG : Keeps b₀ s) : Keeps b₀ (State.advanceFrame s) := by
  unfold State.advanceFrame
  repeat' first | with_reducible assumption | split | refine Keeps.upd ?_ rfl (Nat.le_refl _) (Nat.le_refl _)

theorem Keeps.forward {b₀ s : State} (n : Nat) (hG : Keeps b₀ s) : Keeps b₀ (State.forward s (n)) := by
  unfold State.forward
  with_reducible repeat' first | assumption | apply Keeps.putOut | split

theorem Keeps.runForward {b₀ s : State} (hG : Keeps b₀ s) : Keeps b₀ (State.runForward s) := by
  unfold State.runForward
  with_reducible repeat' first | assumption | apply Keeps.putOut | apply Keeps.each | apply Keeps.forward

theorem Keeps.runInverse {b₀ s : State} (hG : Keeps b₀ s) : Keeps b₀ (State.runInverse s) := by
  unfold State.runInverse
  with_reducible repeat' first | assumption | apply Keeps.each | apply Keeps.putOut | refine fun s x h => ?_
                               | refine fun s h => ?_ | split

theorem Keeps.formLeg {b₀ s : State} (l : Nat) (hG : Keeps b₀ s) : Keeps b₀ (State.formLeg s (l)) := by
  unfold State.formLeg
  repeat' first | with_reducible assumption | with_reducible apply Keeps.modLeg | with_reducible apply Keeps.each
                | with_reducible apply Keeps.putOut | refine fun s x h => ?_ | refine fun s h => ?_ | split
                | refine Keeps.upd ?_ rfl (Nat.le_refl _) (Nat.le_refl _)

theorem Keeps.formCommands {b₀ s : State} (hG : Keeps b₀ s) : Keeps b₀ (State.formCommands s) := by
  unfold State.formCommands
  repeat' first | with_reducible assumption | with_reducible apply Keeps.each
                | with_reducible apply Keeps.stepCarriers | with_reducible apply Keeps.formLeg
                | refine fun s x h => ?_ | refine fun s h => ?_ | split
                | refine Keeps.upd ?_ rfl (Nat.le_refl _) (Nat.le_refl _)

theorem Keeps.suspect {b₀ s : State} (g : Nat) (cause : Nat) (k : Nat) (hG : Keeps b₀ s) : Keeps b₀ (State.suspect
    s (g) (cause) (k)) := by
  unfold State.suspect
  with_reducible repeat' first | assumption | apply Keeps.modCell | refine fun s x h => ?_ | refine fun s h => ?_
                               | split

theorem Keeps.dropSluice {b₀ s : State} (g : Nat) (hG : Keeps b₀ s) : Keeps b₀ (State.dropSluice s (g)) := by
  unfold State.dropSluice
  repeat' first | with_reducible assumption | refine fun s x h => ?_ | refine fun s h => ?_ | split
                | refine Keeps.upd ?_ rfl (Nat.le_refl _) (Nat.le_refl _)

theorem Keeps.failCells {b₀ s : State} (hG : Keeps b₀ s) : Keeps b₀ (State.failCells s) := by
  unfold State.failCells
  dsimp only
  with_reducible repeat' first | assumption | apply Keeps.each | apply Keeps.dropSluice | apply Keeps.modCell
                               | apply Keeps.setRole | apply Keeps.roleEvent | apply Keeps.raise
                               | apply Keeps.regroupAll | refine fun s x h => ?_ | refine fun s h => ?_ | split

theorem Keeps.bypassTimeout {b₀ s : State} (g : Nat) (hG : Keeps b₀ s) : Keeps b₀ (State.bypassTimeout s (g)) := by
  unfold State.bypassTimeout
  repeat' (first | (with_reducible assumption) | (with_reducible apply Keeps.modCell)
                 | (with_reducible apply Keeps.event) | (with_reducible apply Keeps.raise) | (refine fun s x h => ?_)
                 | (refine fun s h => ?_)
                 | ((try lift_lets); intro x; refine Keeps.cutl (s := x) ?_ ?_; rotate_left; (intro hx; clear_value x); rotate_left; unfold x)
                 | ((try lift_lets); intro x) | split
                 | (with_reducible refine Keeps.upd ?_ ?_ ?_ ?_; rotate_left; exact rfl; (first | exact Nat.le_refl _ | exact Nat.le_max_left _ _ | exact Nat.le_add_right _ _); (first | exact Nat.le_refl _ | exact Nat.le_succ _); first | (with_reducible assumption) | (with_reducible apply Keeps.modCell) | (with_reducible apply Keeps.event) | (with_reducible apply Keeps.raise) | (with_reducible refine Keeps.of2 ‹_ = (_, _)› ?_) | (with_reducible refine Keeps.of22 ‹_ = (_, _, _)› ?_) | (with_reducible refine Keeps.of1 ‹_ = (_, _)› ?_))
                 | (with_reducible refine Keeps.of2 ‹_ = (_, _)› ?_)
                 | (with_reducible refine Keeps.of22 ‹_ = (_, _, _)› ?_)
                 | (with_reducible refine Keeps.of1 ‹_ = (_, _)› ?_) | (dsimp -zeta only) | (dsimp +zetaDelta only))

theorem Keeps.rejoinTimeout {b₀ s : State} (g : Nat) (hG : Keeps b₀ s) : Keeps b₀ (State.rejoinTimeout s (g)) := by
  unfold State.rejoinTimeout
  repeat' (first | (with_reducible assumption) | (with_reducible apply Keeps.setRole)
                 | (with_reducible apply Keeps.roleEvent) | (with_reducible apply Keeps.regroupAll)
                 | (refine fun s x h => ?_) | (refine fun s h => ?_)
                 | ((try lift_lets); intro x; refine Keeps.cutl (s := x) ?_ ?_; rotate_left; (intro hx; clear_value x); rotate_left; unfold x)
                 | ((try lift_lets); intro x) | split
                 | (with_reducible refine Keeps.upd ?_ ?_ ?_ ?_; rotate_left; exact rfl; (first | exact Nat.le_refl _ | exact Nat.le_max_left _ _ | exact Nat.le_add_right _ _); (first | exact Nat.le_refl _ | exact Nat.le_succ _); first | (with_reducible assumption) | (with_reducible apply Keeps.setRole) | (with_reducible apply Keeps.roleEvent) | (with_reducible apply Keeps.regroupAll) | (with_reducible refine Keeps.of2 ‹_ = (_, _)› ?_) | (with_reducible refine Keeps.of22 ‹_ = (_, _, _)› ?_) | (with_reducible refine Keeps.of1 ‹_ = (_, _)› ?_))
                 | (with_reducible refine Keeps.of2 ‹_ = (_, _)› ?_)
                 | (with_reducible refine Keeps.of22 ‹_ = (_, _, _)› ?_)
                 | (with_reducible refine Keeps.of1 ‹_ = (_, _)› ?_) | (dsimp -zeta only) | (dsimp +zetaDelta only))

theorem Keeps.outTimeout {b₀ s : State} (p : Nat) (hG : Keeps b₀ s) : Keeps b₀ (State.outTimeout s (p)) := by
  unfold State.outTimeout
  with_reducible repeat' first | assumption | apply Keeps.modPmgr | refine fun s x h => ?_ | refine fun s h => ?_
                               | split

theorem Keeps.rejoinStep {b₀ s : State} (g : Nat) (hG : Keeps b₀ s) : Keeps b₀ (State.rejoinStep s (g)) := by
  unfold State.rejoinStep
  dsimp only
  with_reducible repeat' first | assumption | apply Keeps.modCell | apply Keeps.setRole | refine fun s x h => ?_
                               | refine fun s h => ?_ | split

theorem Keeps.prechargeDone {b₀ s : State} (p : Nat) (hG : Keeps b₀ s) : Keeps b₀ (State.prechargeDone s (p)) := by
  unfold State.prechargeDone
  dsimp only
  with_reducible repeat' first | assumption | apply Keeps.setRoles | apply Keeps.setPound | apply Keeps.regroupAll
                               | refine fun s x h => ?_ | refine fun s h => ?_ | split

theorem Keeps.rejoinCells {b₀ s : State} (hG : Keeps b₀ s) : Keeps b₀ (State.rejoinCells s) := by
  unfold State.rejoinCells
  dsimp only
  with_reducible repeat' first | assumption | apply Keeps.each | apply Keeps.prechargeDone | apply Keeps.rejoinStep
                               | apply Keeps.regroupAll | refine fun s x h => ?_ | refine fun s h => ?_ | split

theorem Keeps.prechargeTimeout {b₀ s : State} (p : Nat) (hG : Keeps b₀ s) : Keeps b₀ (State.prechargeTimeout s (p))
    := by
  unfold State.prechargeTimeout
  repeat' (first | (with_reducible assumption) | (with_reducible apply Keeps.setRoles)
                 | (with_reducible apply Keeps.setPound) | (with_reducible apply Keeps.raise)
                 | (with_reducible apply Keeps.regroupAll) | (refine fun s x h => ?_) | (refine fun s h => ?_)
                 | ((try lift_lets); intro x; refine Keeps.cutl (s := x) ?_ ?_; rotate_left; (intro hx; clear_value x); rotate_left; unfold x)
                 | ((try lift_lets); intro x) | split
                 | (with_reducible refine Keeps.upd ?_ ?_ ?_ ?_; rotate_left; exact rfl; (first | exact Nat.le_refl _ | exact Nat.le_max_left _ _ | exact Nat.le_add_right _ _); (first | exact Nat.le_refl _ | exact Nat.le_succ _); first | (with_reducible assumption) | (with_reducible apply Keeps.setRoles) | (with_reducible apply Keeps.setPound) | (with_reducible apply Keeps.raise) | (with_reducible apply Keeps.regroupAll) | (with_reducible refine Keeps.of2 ‹_ = (_, _)› ?_) | (with_reducible refine Keeps.of22 ‹_ = (_, _, _)› ?_) | (with_reducible refine Keeps.of1 ‹_ = (_, _)› ?_))
                 | (with_reducible refine Keeps.of2 ‹_ = (_, _)› ?_)
                 | (with_reducible refine Keeps.of22 ‹_ = (_, _, _)› ?_)
                 | (with_reducible refine Keeps.of1 ‹_ = (_, _)› ?_) | (dsimp -zeta only) | (dsimp +zetaDelta only))

theorem Keeps.initRoles {b₀ s : State} (hG : Keeps b₀ s) : Keeps b₀ (State.initRoles s) := by
  unfold State.initRoles
  with_reducible repeat' first | assumption | apply Keeps.each | apply Keeps.wr | refine fun s x h => ?_
                               | refine fun s h => ?_

end Sys2Proof.Machine
end

