-- ==== Sys2Proof/Laws/KeepMetering.lean ====
section
/-! SUPPORT. What each operation of Machine/Metering.lean keeps (Laws/Keeps.lean). -/

set_option Elab.async false

namespace Sys2Proof.Machine

open Sys2Proof

theorem Keeps.meterSlot {b₀ s : State} (i : Nat) (v : F32) (q : BitVec 8) (hG : Keeps b₀ s) : Keeps b₀
    (State.meterSlot s (i) (v) (q)) := by
  unfold State.meterSlot
  repeat' first | with_reducible assumption | with_reducible apply Keeps.putSlot | refine fun s x h => ?_
                | refine fun s h => ?_ | split | refine Keeps.upd ?_ rfl (Nat.le_refl _) (Nat.le_refl _)

theorem Keeps.writeRoutes {b₀ s : State} (kind : Nat) (src : Nat) (v : F32) (ok : Bool) (hG : Keeps b₀ s) : Keeps b₀
    (State.writeRoutes s (kind) (src) (v) (ok)) := by
  unfold State.writeRoutes
  with_reducible repeat' first | assumption | apply Keeps.each | apply Keeps.putSlot | apply Keeps.meterSlot
                               | refine fun s x h => ?_ | refine fun s h => ?_ | split

theorem Keeps.setTrk {b₀ s : State} (t : Nat) (x : TrkSt) (hG : Keeps b₀ s) : Keeps b₀ (State.setTrk s (t) (x)) := by
  unfold State.setTrk
  repeat' first | with_reducible assumption | refine Keeps.upd ?_ rfl (Nat.le_refl _) (Nat.le_refl _)

theorem Keeps.feedTrackers {b₀ s : State} (path : Nat) (c : Nat) (v : F32) (hG : Keeps b₀ s) : Keeps b₀
    (State.feedTrackers s (path) (c) (v)) := by
  unfold State.feedTrackers
  with_reducible repeat' first | assumption | apply Keeps.each | apply Keeps.setTrk | refine fun s x h => ?_
                               | refine fun s h => ?_

theorem Keeps.closeTracker {b₀ s : State} (t : Nat) (hG : Keeps b₀ s) : Keeps b₀ (State.closeTracker s (t)) := by
  unfold State.closeTracker
  with_reducible repeat' first | assumption | apply Keeps.wr | apply Keeps.setTrk | apply Keeps.writeRoutes

theorem Keeps.trkClear {b₀ s : State} (v : Word) (hG : Keeps b₀ s) : Keeps b₀ (State.trkClear s (v)) := by
  unfold State.trkClear
  with_reducible repeat' first | assumption | apply Keeps.each | apply Keeps.closeTracker | refine fun s x h => ?_
                               | refine fun s h => ?_

theorem Keeps.modAcc {b₀ s : State} (a : Nat) (f : AccSt → AccSt) (hG : Keeps b₀ s) : Keeps b₀ (State.modAcc s (a)
    (f)) := by
  unfold State.modAcc
  repeat' first | with_reducible assumption | refine Keeps.upd ?_ rfl (Nat.le_refl _) (Nat.le_refl _)

theorem Keeps.accAdd {b₀ s : State} (a : Nat) (val : Nat → Option Rat) (hG : Keeps b₀ s) : Keeps b₀ (State.accAdd s
    (a) (val)) := by
  unfold State.accAdd
  with_reducible repeat' first | assumption | apply Keeps.modAcc | refine fun s x h => ?_ | refine fun s h => ?_
                               | split

theorem Keeps.accClose {b₀ s : State} (a : Nat) (t : Nat) (hG : Keeps b₀ s) : Keeps b₀ (State.accClose s (a) (t))
    := by
  unfold State.accClose
  with_reducible repeat' first | assumption | apply Keeps.modAcc | apply Keeps.writeRoutes | refine fun s x h => ?_
                               | refine fun s h => ?_

theorem Keeps.accBoundary {b₀ s : State} (a : Nat) (t : Nat) (hG : Keeps b₀ s) : Keeps b₀ (State.accBoundary s (a)
    (t)) := by
  unfold State.accBoundary
  with_reducible repeat' first | assumption | apply Keeps.modAcc | apply Keeps.accClose | refine fun s x h => ?_
                               | refine fun s h => ?_ | split

theorem Keeps.accsIdle {b₀ s : State} (hG : Keeps b₀ s) : Keeps b₀ (State.accsIdle s) := by
  unfold State.accsIdle
  with_reducible repeat' first | assumption | apply Keeps.each | apply Keeps.modAcc | refine fun s x h => ?_
                               | refine fun s h => ?_ | split

theorem Keeps.captureAcc {b₀ s : State} (a : Nat) (hG : Keeps b₀ s) : Keeps b₀ (State.captureAcc s (a)) := by
  unfold State.captureAcc
  with_reducible repeat' first | assumption | apply Keeps.each | apply Keeps.setReg | refine fun s x h => ?_
                               | refine fun s h => ?_

theorem Keeps.takeFine {b₀ s : State} (r : Nat × F32 × Bool) (hG : Keeps b₀ s) : Keeps b₀ (State.takeFine s (r)) := by
  unfold State.takeFine
  with_reducible repeat' first | assumption | apply Keeps.wrB | apply Keeps.writeRoutes | apply Keeps.feedTrackers | split

theorem Keeps.accTake {b₀ s : State} (n : Nat) (val : Nat → Option Rat) (a : Nat) (hG : Keeps b₀ s) : Keeps b₀
    (State.accTake s (n) (val) (a)) := by
  unfold State.accTake
  dsimp only
  with_reducible repeat' first | assumption | apply Keeps.accAdd | apply Keeps.accBoundary | split

theorem Keeps.trackerEnd {b₀ s : State} (n k : Nat) (hG : Keeps b₀ s) : Keeps b₀ (State.trackerEnd s (n) (k)) := by
  unfold State.trackerEnd
  dsimp only
  with_reducible repeat' first | assumption | apply Keeps.closeTracker | split

theorem Keeps.injectedPassed {b₀ s : State} (hG : Keeps b₀ s) : Keeps b₀ (State.injectedPassed s) := by
  unfold State.injectedPassed
  repeat' first | with_reducible assumption | with_reducible apply Keeps.wrB | split
                | refine Keeps.upd ?_ rfl (Nat.le_refl _) (Nat.le_refl _)

theorem Keeps.fineResult {b₀ s : State} (n : Nat) (xs : List Sample) (hG : Keeps b₀ s) : Keeps b₀ (State.fineResult s
    (n) (xs)) := by
  unfold State.fineResult
  dsimp only
  repeat' first | with_reducible assumption | with_reducible apply Keeps.injectedPassed
                | with_reducible apply Keeps.advanceTo | with_reducible apply Keeps.each
                | with_reducible apply Keeps.takeFine | with_reducible apply Keeps.accTake
                | with_reducible apply Keeps.trackerEnd | refine fun s x h => ?_ | split
                | refine Keeps.upd ?_ rfl (Nat.le_refl _) (Nat.le_refl _)

theorem Keeps.fastResult {b₀ s : State} (x : Sample) (hG : Keeps b₀ s) : Keeps b₀ (State.fastResult s (x)) := by
  unfold State.fastResult
  dsimp only
  with_reducible repeat' first | assumption | apply Keeps.feedTrackers | split

theorem Keeps.markValues {b₀ s : State} (xs : List MarkSample) (hG : Keeps b₀ s) : Keeps b₀ (State.markValues s
    (xs)) := by
  unfold State.markValues
  with_reducible repeat' first | assumption | apply Keeps.each | apply Keeps.writeRoutes | refine fun s x h => ?_
                               | refine fun s h => ?_ | split

theorem Keeps.judgeInputs {b₀ s : State} (hG : Keeps b₀ s) : Keeps b₀ (State.judgeInputs s) := by
  unfold State.judgeInputs
  with_reducible repeat' first | assumption | apply Keeps.setActive

theorem Keeps.inputEdge {b₀ s : State} (c : Nat) (st : Nat) (hG : Keeps b₀ s) : Keeps b₀ (State.inputEdge s (c) (st))
    := by
  unfold State.inputEdge
  with_reducible repeat' first | assumption | apply Keeps.wrB | apply Keeps.event | apply Keeps.raise
                               | refine fun s x h => ?_ | refine fun s h => ?_ | split

theorem Keeps.inputState {b₀ s : State} (c : Nat) (st : Nat) (hG : Keeps b₀ s) : Keeps b₀ (State.inputState s (c)
    (st)) := by
  unfold State.inputState State.inputEdge
  with_reducible repeat' first | assumption | apply Keeps.judgeInputs | apply Keeps.wrB | apply Keeps.event
                               | apply Keeps.raise | split

theorem Keeps.diagStart {b₀ s : State} (c : Nat) (hG : Keeps b₀ s) : Keeps b₀ (State.diagStart s (c)) := by
  unfold State.diagStart
  repeat' first | with_reducible assumption | with_reducible apply Keeps.wr | with_reducible apply Keeps.wrB
                | refine fun s x h => ?_ | refine fun s h => ?_ | split
                | refine Keeps.upd ?_ rfl (Nat.le_refl _) (Nat.le_refl _)

theorem Keeps.diagGo {b₀ s : State} (hG : Keeps b₀ s) : Keeps b₀ (State.diagGo s) := by
  unfold State.diagGo
  dsimp only
  repeat' first | with_reducible assumption | with_reducible apply Keeps.wr | with_reducible apply Keeps.wrB
                | with_reducible apply Keeps.diagStart | refine fun s x h => ?_ | refine fun s h => ?_ | split
                | refine Keeps.upd ?_ rfl (Nat.le_refl _) (Nat.le_refl _)

theorem Keeps.diagDone {b₀ s : State} (m1 : F32) (m2 : F32) (hG : Keeps b₀ s) : Keeps b₀ (State.diagDone s (m1)
    (m2)) := by
  unfold State.diagDone
  repeat' first | with_reducible assumption | with_reducible apply Keeps.fresh | with_reducible apply Keeps.wr
                | with_reducible apply Keeps.wrB | with_reducible apply Keeps.event | split
                | refine Keeps.upd ?_ rfl (Nat.le_refl _) (Nat.le_refl _)

theorem Keeps.markCal {b₀ s : State} (c : Nat) (hG : Keeps b₀ s) : Keeps b₀ (State.markCal s (c)) := by
  unfold State.markCal
  with_reducible repeat' first | assumption | apply Keeps.each | apply Keeps.modAcc | refine fun s x h => ?_
                               | refine fun s h => ?_

theorem Keeps.calSliceEnd {b₀ s : State} (hG : Keeps b₀ s) : Keeps b₀ (State.calSliceEnd s) := by
  unfold State.calSliceEnd
  dsimp only
  repeat' first | with_reducible assumption | with_reducible apply Keeps.wr | with_reducible apply Keeps.calStep
                | with_reducible apply Keeps.wrB | with_reducible apply Keeps.inc | with_reducible apply Keeps.event
                | split | refine Keeps.upd ?_ rfl (Nat.le_refl _) (Nat.le_refl _)

theorem Keeps.calAccept {b₀ s : State} (n : Nat) (gain : F32) (ofs : F32) (hG : Keeps b₀ s) : Keeps b₀
    (State.calAccept s (n) (gain) (ofs)) := by
  unfold State.calAccept
  dsimp only
  repeat' first | with_reducible assumption | with_reducible apply Keeps.wr | with_reducible apply Keeps.wrB
                | with_reducible apply Keeps.inc | with_reducible apply Keeps.event
                | with_reducible apply Keeps.raise | refine fun s x h => ?_ | refine fun s h => ?_ | split
                | refine Keeps.upd ?_ rfl (Nat.le_refl _) (Nat.le_refl _)

theorem Keeps.calStep {b₀ s : State} (gain : F32) (ofs : F32) (hG : Keeps b₀ s) : Keeps b₀ (State.calStep s (gain)
    (ofs)) := by
  unfold State.calStep
  dsimp only
  repeat' first | with_reducible assumption | with_reducible apply Keeps.wrB | with_reducible apply Keeps.wr
                | with_reducible apply Keeps.markCal | with_reducible apply Keeps.calAccept
                | with_reducible apply Keeps.diagStart | with_reducible apply Keeps.calSliceEnd
                | refine fun s x h => ?_ | refine fun s h => ?_ | split
                | refine Keeps.upd ?_ rfl (Nat.le_refl _) (Nat.le_refl _)

theorem Keeps.calAbandon {b₀ s : State} (hG : Keeps b₀ s) : Keeps b₀ (State.calAbandon s) := by
  unfold State.calAbandon
  dsimp only
  repeat' first | with_reducible assumption | with_reducible apply Keeps.wrB | with_reducible apply Keeps.wr
                | with_reducible apply Keeps.calStep | split
                | refine Keeps.upd ?_ rfl (Nat.le_refl _) (Nat.le_refl _)

theorem Keeps.mtrReset {b₀ s : State} (hG : Keeps b₀ s) : Keeps b₀ (State.mtrReset s) := by
  unfold State.mtrReset
  dsimp only
  repeat' first | with_reducible assumption | with_reducible apply Keeps.each | with_reducible apply Keeps.modAcc
                | with_reducible apply Keeps.accClose | with_reducible apply Keeps.calStep | refine fun s x h => ?_
                | refine fun s h => ?_ | split | refine Keeps.upd ?_ rfl (Nat.le_refl _) (Nat.le_refl _)

end Sys2Proof.Machine
end

