-- ==== Sys2Proof/Laws/KeepBasin.lean ====
section
/-! SUPPORT. What each operation of Machine/Basin.lean keeps (Laws/Keeps.lean). -/

set_option Elab.async false

namespace Sys2Proof.Machine

open Sys2Proof

theorem Keeps.putBasin {b₀ s : State} (off : Nat) (v : F32) (hG : Keeps b₀ s) : Keeps b₀ (State.putBasin s (off)
    (v)) := by
  unfold State.putBasin
  with_reducible repeat' first | assumption | apply Keeps.writeSlot | split

theorem Keeps.takeVoltages {b₀ s : State} (hG : Keeps b₀ s) : Keeps b₀ (State.takeVoltages s) := by
  unfold State.takeVoltages
  repeat' first | with_reducible assumption | with_reducible apply Keeps.each | with_reducible apply Keeps.modCell
                | with_reducible apply Keeps.wr | refine fun s x h => ?_ | refine fun s h => ?_ | split
                | refine Keeps.upd ?_ rfl (Nat.le_refl _) (Nat.le_refl _)

theorem Keeps.updateLedger {b₀ s : State} (hG : Keeps b₀ s) : Keeps b₀ (State.updateLedger s) := by
  unfold State.updateLedger
  repeat' first | with_reducible assumption | with_reducible apply Keeps.takeVoltages
                | with_reducible apply Keeps.putBasin | with_reducible apply Keeps.each | refine fun s x h => ?_
                | refine fun s h => ?_ | split | refine Keeps.upd ?_ rfl (Nat.le_refl _) (Nat.le_refl _)

theorem Keeps.level {b₀ s : State} (n : Nat) (inst : Nat) (was : Bool) (now : Bool) (hG : Keeps b₀ s) : Keeps b₀
    (State.level s (n) (inst) (was) (now)) := by
  unfold State.level
  with_reducible repeat' first | assumption | apply Keeps.setActive | apply Keeps.raise | split

theorem Keeps.showOver {b₀ s : State} (o : Over) (hG : Keeps b₀ s) : Keeps b₀ (State.showOver s (o)) := by
  unfold State.showOver
  with_reducible repeat' first | assumption | apply Keeps.wrB

theorem Keeps.clipCommands {b₀ s : State} (o : Over) (hG : Keeps b₀ s) : Keeps b₀ (State.clipCommands s (o)) := by
  unfold State.clipCommands
  repeat' first | with_reducible assumption | split | refine Keeps.upd ?_ rfl (Nat.le_refl _) (Nat.le_refl _)

theorem Keeps.capCheck {b₀ s : State} (hG : Keeps b₀ s) : Keeps b₀ (State.capCheck s) := by
  unfold State.capCheck
  with_reducible repeat' first | assumption | apply Keeps.clipCommands | apply Keeps.showOver | apply Keeps.when
                               | apply Keeps.event | apply Keeps.level | refine fun s x h => ?_
                               | refine fun s h => ?_

theorem Keeps.showSoe {b₀ s : State} (i : Nat) (hG : Keeps b₀ s) : Keeps b₀ (State.showSoe s (i)) := by
  unfold State.showSoe
  with_reducible repeat' first | assumption | apply Keeps.wr | apply Keeps.wrB

theorem Keeps.stringEnergy {b₀ s : State} (i : Nat) (hG : Keeps b₀ s) : Keeps b₀ (State.stringEnergy s (i)) := by
  unfold State.stringEnergy
  repeat' first | with_reducible assumption | with_reducible apply Keeps.wrB | with_reducible apply Keeps.event
                | with_reducible apply Keeps.raise | with_reducible apply Keeps.showSoe | refine fun s x h => ?_
                | refine fun s h => ?_ | split | refine Keeps.upd ?_ rfl (Nat.le_refl _) (Nat.le_refl _)

theorem Keeps.meterStrings {b₀ s : State} (hG : Keeps b₀ s) : Keeps b₀ (State.meterStrings s) := by
  unfold State.meterStrings
  repeat' first | with_reducible assumption | with_reducible apply Keeps.each
                | with_reducible apply Keeps.stringEnergy | with_reducible apply Keeps.showSoe
                | with_reducible apply Keeps.event | refine fun s x h => ?_ | refine fun s h => ?_ | split
                | refine Keeps.upd ?_ rfl (Nat.le_refl _) (Nat.le_refl _)

theorem Keeps.showGuard {b₀ s : State} (hG : Keeps b₀ s) : Keeps b₀ (State.showGuard s) := by
  unfold State.showGuard
  with_reducible repeat' first | assumption | apply Keeps.wrB | refine fun s x h => ?_ | refine fun s h => ?_

theorem Keeps.feedStrings {b₀ s : State} (hG : Keeps b₀ s) : Keeps b₀ (State.feedStrings s) := by
  unfold State.feedStrings
  with_reducible repeat' first | assumption | apply Keeps.each | apply Keeps.putBasin | refine fun s x h => ?_
                               | refine fun s h => ?_

theorem Keeps.forceSlot {b₀ s : State} (slot : Nat) (v : F32) (hG : Keeps b₀ s) : Keeps b₀ (State.forceSlot s
    (slot) (v)) := by
  unfold State.forceSlot
  dsimp only
  repeat' first | with_reducible assumption | with_reducible apply Keeps.putSlot | refine fun s x h => ?_
                | refine fun s h => ?_ | split | refine Keeps.upd ?_ rfl (Nat.le_refl _) (Nat.le_refl _)

theorem Keeps.guardString {b₀ s : State} (i : Nat) (hG : Keeps b₀ s) : Keeps b₀ (State.guardString s (i)) := by
  unfold State.guardString
  dsimp only
  with_reducible repeat' first | assumption | apply Keeps.forceSlot | apply Keeps.wrB | apply Keeps.showGuard
                               | apply Keeps.event | apply Keeps.raise | split

theorem Keeps.limitPower {b₀ s : State} (hG : Keeps b₀ s) : Keeps b₀ (State.limitPower s) := by
  unfold State.limitPower
  dsimp only
  repeat' first | with_reducible assumption | with_reducible apply Keeps.each | with_reducible apply Keeps.event
                | with_reducible apply Keeps.countAdmit | refine fun s x h => ?_ | refine fun s h => ?_ | split
                | refine Keeps.upd ?_ rfl (Nat.le_refl _) (Nat.le_refl _)

theorem Keeps.auxAllowance {b₀ s : State} (hG : Keeps b₀ s) : Keeps b₀ (State.auxAllowance s) := by
  unfold State.auxAllowance
  with_reducible repeat' first | assumption | apply Keeps.each | apply Keeps.putBasin | apply Keeps.wrB
                               | apply Keeps.event | apply Keeps.level | refine fun s x h => ?_
                               | refine fun s h => ?_ | split

theorem Keeps.setSluice {b₀ s : State} (st : Nat) (auto : Bool) (hG : Keeps b₀ s) : Keeps b₀ (State.setSluice s
    (st) (auto)) := by
  unfold State.setSluice
  with_reducible repeat' first | assumption | apply Keeps.wr | apply Keeps.event | split

theorem Keeps.sluiceStart {b₀ s : State} (scope : Nat) (idx : Nat) (target : F32) (auto : Bool) (hG : Keeps b₀ s) :
    Keeps b₀ (State.sluiceStart s (scope) (idx) (target) (auto)) := by
  unfold State.sluiceStart
  repeat' first | with_reducible assumption | with_reducible apply Keeps.fresh | with_reducible apply Keeps.each
                | with_reducible apply Keeps.modCell | with_reducible apply Keeps.setSluice | refine fun s x h => ?_
                | refine fun s h => ?_ | split | refine Keeps.upd ?_ rfl (Nat.le_refl _) (Nat.le_refl _)

theorem Keeps.sluiceEnd {b₀ s : State} (result : Nat) (hG : Keeps b₀ s) : Keeps b₀ (State.sluiceEnd s (result)) := by
  unfold State.sluiceEnd
  repeat' first | with_reducible assumption | with_reducible apply Keeps.setSluice | with_reducible apply Keeps.event
                | refine Keeps.upd ?_ rfl (Nat.le_refl _) (Nat.le_refl _)

theorem Keeps.sluiceRole {b₀ s : State} (g : Nat) (hG : Keeps b₀ s) : Keeps b₀ (State.sluiceRole s (g)) := by
  unfold State.sluiceRole
  with_reducible repeat' first | assumption | apply Keeps.setRole | split

theorem Keeps.sluiceStop {b₀ s : State} (hG : Keeps b₀ s) : Keeps b₀ (State.sluiceStop s) := by
  unfold State.sluiceStop
  repeat' first | with_reducible assumption | with_reducible apply Keeps.each | with_reducible apply Keeps.sluiceRole
                | with_reducible apply Keeps.setSluice | refine fun s x h => ?_ | refine fun s h => ?_ | split
                | refine Keeps.upd ?_ rfl (Nat.le_refl _) (Nat.le_refl _)

theorem Keeps.sluiceAbort {b₀ s : State} (result : Nat) (hG : Keeps b₀ s) : Keeps b₀ (State.sluiceAbort s (result))
    := by
  unfold State.sluiceAbort
  repeat' first | with_reducible assumption | with_reducible apply Keeps.each | with_reducible apply Keeps.sluiceRole
                | with_reducible apply Keeps.sluiceEnd | refine fun s x h => ?_ | refine fun s h => ?_ | split
                | refine Keeps.upd ?_ rfl (Nat.le_refl _) (Nat.le_refl _)

theorem Keeps.sluiceCellEnd {b₀ s : State} (g : Nat) (ok : Bool) (hG : Keeps b₀ s) : Keeps b₀ (State.sluiceCellEnd
    s (g) (ok)) := by
  unfold State.sluiceCellEnd
  repeat' first | with_reducible assumption | with_reducible apply Keeps.sluiceRole
                | refine Keeps.upd ?_ rfl (Nat.le_refl _) (Nat.le_refl _)

theorem Keeps.sluiceCellTimeout {b₀ s : State} (g : Nat) (hG : Keeps b₀ s) : Keeps b₀ (State.sluiceCellTimeout s
    (g)) := by
  unfold State.sluiceCellTimeout
  repeat' (first | (with_reducible assumption) | (with_reducible apply Keeps.sluiceCellEnd)
                 | (with_reducible apply Keeps.raise) | (refine fun s x h => ?_) | (refine fun s h => ?_)
                 | ((try lift_lets); intro x; refine Keeps.cutl (s := x) ?_ ?_; rotate_left; (intro hx; clear_value x); rotate_left; unfold x)
                 | ((try lift_lets); intro x) | split
                 | (with_reducible refine Keeps.upd ?_ ?_ ?_ ?_; rotate_left; exact rfl; (first | exact Nat.le_refl _ | exact Nat.le_max_left _ _ | exact Nat.le_add_right _ _); (first | exact Nat.le_refl _ | exact Nat.le_succ _); first | (with_reducible assumption) | (with_reducible apply Keeps.sluiceCellEnd) | (with_reducible apply Keeps.raise) | (with_reducible refine Keeps.of2 ‹_ = (_, _)› ?_) | (with_reducible refine Keeps.of22 ‹_ = (_, _, _)› ?_) | (with_reducible refine Keeps.of1 ‹_ = (_, _)› ?_))
                 | (with_reducible refine Keeps.of2 ‹_ = (_, _)› ?_)
                 | (with_reducible refine Keeps.of22 ‹_ = (_, _, _)› ?_)
                 | (with_reducible refine Keeps.of1 ‹_ = (_, _)› ?_) | (dsimp -zeta only) | (dsimp +zetaDelta only))

theorem Keeps.sluiceFeed {b₀ s : State} (hG : Keeps b₀ s) : Keeps b₀ (State.sluiceFeed s) := by
  unfold State.sluiceFeed
  repeat' first | with_reducible assumption | with_reducible apply Keeps.each | with_reducible apply Keeps.setRole
                | with_reducible apply Keeps.modCell | refine fun s x h => ?_ | refine fun s h => ?_ | split
                | refine Keeps.upd ?_ rfl (Nat.le_refl _) (Nat.le_refl _)

theorem Keeps.sluiceAdvance {b₀ s : State} (hG : Keeps b₀ s) : Keeps b₀ (State.sluiceAdvance s) := by
  unfold State.sluiceAdvance
  dsimp only
  with_reducible repeat' first | assumption | apply Keeps.each | apply Keeps.sluiceCellEnd | apply Keeps.sluiceFeed
                               | apply Keeps.sluiceEnd | refine fun s x h => ?_ | refine fun s h => ?_ | split

theorem Keeps.autoSluice {b₀ s : State} (hG : Keeps b₀ s) : Keeps b₀ (State.autoSluice s) := by
  unfold State.autoSluice
  dsimp only
  repeat' first | with_reducible assumption | with_reducible apply Keeps.sluiceStart | split
                | refine Keeps.upd ?_ rfl (Nat.le_refl _) (Nat.le_refl _)

end Sys2Proof.Machine
end

