-- ==== Sys2Proof/Laws/KeepHostReg.lean ====
section
/-! SUPPORT. What each operation of Machine/HostReg.lean keeps (Laws/Keeps.lean). -/

set_option Elab.async false

namespace Sys2Proof.Machine

open Sys2Proof

theorem Keeps.undecoded {b₀ s : State} (r : Requester) (off : Nat) (access : Nat) (hG : Keeps b₀ s) : Keeps b₀
    (State.undecoded s (r) (off) (access)) := by
  unfold State.undecoded
  with_reducible repeat' first | assumption | apply Keeps.raiseWith | split

theorem Keeps.reservedWrite {b₀ s : State} (r : Requester) (off : Nat) (hG : Keeps b₀ s) : Keeps b₀
    (State.reservedWrite s (r) (off)) := by
  unfold State.reservedWrite
  with_reducible repeat' first | assumption | apply Keeps.raiseWith

theorem Keeps.writeFields {b₀ s : State} (r : Requester) (off : Nat) (w : Word) (hG : Keeps b₀ s) : Keeps b₀
    (State.writeFields s (r) (off) (w)) := by
  unfold State.writeFields
  dsimp only
  with_reducible repeat' first | assumption | apply Keeps.setReg | apply Keeps.reservedWrite | apply Keeps.raiseWith
                               | split

theorem Keeps.wakeLink {b₀ s : State} (q : Requester) (hG : Keeps b₀ s) : Keeps b₀ (State.wakeLink s (q)) := by
  unfold State.wakeLink
  repeat' first | with_reducible assumption | refine fun s x h => ?_ | refine fun s h => ?_ | split
                | refine Keeps.upd ?_ rfl (Nat.le_refl _) (Nat.le_refl _)

theorem Keeps.hostWrite {b₀ s : State} (off : Nat) (w : Word) (eff : State → State) (q : Requester := byHost) (heff :
    ∀ s, Keeps b₀ s → Keeps b₀ (eff s)) (hG : Keeps b₀ s) : Keeps b₀ (State.hostWrite s (off) (w) (eff) (q)) := by
  unfold State.hostWrite
  dsimp only
  with_reducible repeat' first | assumption | apply Keeps.wakeLink | apply Keeps.undecoded | apply Keeps.writeFields
                               | apply heff | refine fun s x h => ?_ | refine fun s h => ?_ | split

end Sys2Proof.Machine
end

