-- ==== Sys2Proof/Laws/KeepPwm.lean ====
section
/-! SUPPORT. What each operation of Machine/Pwm.lean keeps (Laws/Keeps.lean). -/

set_option Elab.async false

namespace Sys2Proof.Machine

open Sys2Proof

theorem Keeps.pwmOff {b₀ s : State} (n : Nat) (hG : Keeps b₀ s) : Keeps b₀ (State.pwmOff s (n)) := by
  unfold State.pwmOff
  repeat' first | with_reducible assumption | refine Keeps.upd ?_ rfl (Nat.le_refl _) (Nat.le_refl _)

theorem Keeps.pwmOffAll {b₀ s : State} (hG : Keeps b₀ s) : Keeps b₀ (State.pwmOffAll s) := by
  unfold State.pwmOffAll
  repeat' first | with_reducible assumption | refine Keeps.upd ?_ rfl (Nat.le_refl _) (Nat.le_refl _)

theorem Keeps.showChannel {b₀ s : State} (n : Nat) (hG : Keeps b₀ s) : Keeps b₀ (State.showChannel s (n)) := by
  unfold State.showChannel
  dsimp only
  with_reducible repeat' first | assumption | apply Keeps.wrB | apply Keeps.pwmOff | split

theorem Keeps.showGroup {b₀ s : State} (g : Nat) (hG : Keeps b₀ s) : Keeps b₀ (State.showGroup s (g)) := by
  unfold State.showGroup
  with_reducible repeat' first | assumption | apply Keeps.each | apply Keeps.showChannel

theorem Keeps.loadSlotLost {b₀ s : State} (n : Nat) (hG : Keeps b₀ s) : Keeps b₀ (State.loadSlotLost s (n)) := by
  unfold State.loadSlotLost
  dsimp only
  with_reducible repeat' first | assumption | apply Keeps.wrB | apply Keeps.setActive | apply Keeps.event
                               | apply Keeps.raise | refine fun s x h => ?_ | refine fun s h => ?_ | split

theorem Keeps.loadChannel {b₀ s : State} (n : Nat) (period : Nat) (hG : Keeps b₀ s) : Keeps b₀ (State.loadChannel s
    (n) (period)) := by
  unfold State.loadChannel
  repeat' first | with_reducible assumption | with_reducible apply Keeps.wr | with_reducible apply Keeps.wrB
                | with_reducible apply Keeps.event | with_reducible apply Keeps.raise
                | with_reducible apply Keeps.loadSlotLost | refine fun s x h => ?_ | refine fun s h => ?_ | split
                | refine Keeps.upd ?_ rfl (Nat.le_refl _) (Nat.le_refl _)

theorem Keeps.loadGroup {b₀ s : State} (g : Nat) (hG : Keeps b₀ s) : Keeps b₀ (State.loadGroup s (g)) := by
  unfold State.loadGroup
  with_reducible repeat' first | assumption | apply Keeps.wr | apply Keeps.wrB | apply Keeps.each
                               | apply Keeps.loadChannel | refine fun s x h => ?_ | refine fun s h => ?_

theorem Keeps.armGroup {b₀ s : State} (g : Nat) (hG : Keeps b₀ s) : Keeps b₀ (State.armGroup s (g)) := by
  unfold State.armGroup
  with_reducible repeat' first | assumption | apply Keeps.wrB | apply Keeps.loadGroup | split

theorem Keeps.pwmLoad {b₀ s : State} (v : Word) (hG : Keeps b₀ s) : Keeps b₀ (State.pwmLoad s (v)) := by
  unfold State.pwmLoad
  with_reducible repeat' first | assumption | apply Keeps.each | apply Keeps.armGroup | refine fun s x h => ?_
                               | refine fun s h => ?_

theorem Keeps.grpWritten {b₀ s : State} (g : Nat) (hG : Keeps b₀ s) : Keeps b₀ (State.grpWritten s (g)) := by
  unfold State.grpWritten
  with_reducible repeat' first | assumption | apply Keeps.wrB | apply Keeps.loadGroup | apply Keeps.showGroup | split

theorem Keeps.stagedWrite {b₀ s : State} (t : Staged) (v : Word) (late : Bool) (q : Requester := byHost) (hG : Keeps
    b₀ s) : Keeps b₀ (State.stagedWrite s (t) (v) (late) (q)) := by
  unfold State.stagedWrite
  with_reducible repeat' first | assumption | apply Keeps.hostWrite | apply Keeps.wrB | apply Keeps.wakeLink
                               | refine fun s x h => ?_ | refine fun s h => ?_ | split

theorem Keeps.stageSlot {b₀ s : State} (n : Nat) (hG : Keeps b₀ s) : Keeps b₀ (State.stageSlot s (n)) := by
  unfold State.stageSlot
  dsimp only
  repeat' first | with_reducible assumption | with_reducible apply Keeps.wrB | with_reducible apply Keeps.wr | split
                | refine Keeps.upd ?_ rfl (Nat.le_refl _) (Nat.le_refl _)

theorem Keeps.stageSlots {b₀ s : State} (hG : Keeps b₀ s) : Keeps b₀ (State.stageSlots s) := by
  unfold State.stageSlots
  with_reducible repeat' first | assumption | apply Keeps.each | apply Keeps.stageSlot | refine fun s x h => ?_
                               | refine fun s h => ?_

theorem Keeps.channelWritten {b₀ s : State} (before : State) (n : Nat) (dtWrite : Bool) (hG : Keeps b₀ s) : Keeps b₀
    (State.channelWritten s (before) (n) (dtWrite)) := by
  unfold State.channelWritten
  with_reducible repeat' first | assumption | apply Keeps.setReg | apply Keeps.raise | apply Keeps.wrB
                               | apply Keeps.showChannel | refine fun s x h => ?_ | refine fun s h => ?_ | split

theorem Keeps.setMask {b₀ s : State} (n : Nat) (m : Nat) (hG : Keeps b₀ s) : Keeps b₀ (State.setMask s (n) (m)) := by
  unfold State.setMask
  repeat' first | with_reducible assumption | with_reducible apply Keeps.showChannel
                | refine Keeps.upd ?_ rfl (Nat.le_refl _) (Nat.le_refl _)

theorem Keeps.cutChannel {b₀ s : State} (n : Nat) (hG : Keeps b₀ s) : Keeps b₀ (State.cutChannel s (n)) := by
  unfold State.cutChannel
  with_reducible repeat' first | assumption | apply Keeps.wrB | apply Keeps.inc | apply Keeps.pwmOff | split

theorem Keeps.cutAll {b₀ s : State} (hG : Keeps b₀ s) : Keeps b₀ (State.cutAll s) := by
  unfold State.cutAll
  with_reducible repeat' first | assumption | apply Keeps.each | apply Keeps.cutChannel

theorem Keeps.keepTripped {b₀ s : State} (n : Nat) (hG : Keeps b₀ s) : Keeps b₀ (State.keepTripped s (n)) := by
  unfold State.keepTripped
  with_reducible repeat' first | assumption | apply Keeps.wrB | refine fun s x h => ?_ | refine fun s h => ?_ | split

theorem Keeps.noteOff {b₀ s : State} (key : Nat) (hG : Keeps b₀ s) : Keeps b₀ (State.noteOff s (key)) := by
  unfold State.noteOff
  repeat' first | with_reducible assumption | refine Keeps.upd ?_ rfl (Nat.le_refl _) (Nat.le_refl _)

theorem Keeps.readTripIn {b₀ s : State} (hG : Keeps b₀ s) : Keeps b₀ (State.readTripIn s) := by
  unfold State.readTripIn
  dsimp only
  with_reducible repeat' first | assumption | apply Keeps.each | apply Keeps.wrBit | apply Keeps.raise
                               | apply Keeps.noteOff | apply Keeps.setActive | apply Keeps.cutAll
                               | refine fun s x h => ?_ | refine fun s h => ?_ | split

theorem Keeps.tripPin {b₀ s : State} (n : Nat) (low : Bool) (hG : Keeps b₀ s) : Keeps b₀ (State.tripPin s (n)
    (low)) := by
  unfold State.tripPin
  repeat' first | with_reducible assumption | with_reducible apply Keeps.readTripIn
                | refine Keeps.upd ?_ rfl (Nat.le_refl _) (Nat.le_refl _)

theorem Keeps.modCmp {b₀ s : State} (c : Nat) (f : CmpCh → CmpCh) (hG : Keeps b₀ s) : Keeps b₀ (State.modCmp s (c)
    (f)) := by
  unfold State.modCmp
  repeat' first | with_reducible assumption | refine Keeps.upd ?_ rfl (Nat.le_refl _) (Nat.le_refl _)

theorem Keeps.showLines {b₀ s : State} (hG : Keeps b₀ s) : Keeps b₀ (State.showLines s) := by
  unfold State.showLines
  dsimp only
  with_reducible repeat' first | assumption | apply Keeps.each | apply Keeps.wrBit | apply Keeps.raise
                               | apply Keeps.noteOff | apply Keeps.setActive | apply Keeps.cutAll
                               | refine fun s x h => ?_ | refine fun s h => ?_ | split

theorem Keeps.keepLatched {b₀ s : State} (hG : Keeps b₀ s) : Keeps b₀ (State.keepLatched s) := by
  unfold State.keepLatched
  with_reducible repeat' first | assumption | apply Keeps.each | apply Keeps.wrBit | refine fun s x h => ?_
                               | refine fun s h => ?_ | split

theorem Keeps.showCmp {b₀ s : State} (cs : List Nat) (hG : Keeps b₀ s) : Keeps b₀ (State.showCmp s (cs)) := by
  unfold State.showCmp
  with_reducible repeat' first | assumption | apply Keeps.each | apply Keeps.wrB | apply Keeps.setActive
                               | apply Keeps.showLines | refine fun s x h => ?_ | refine fun s h => ?_

theorem Keeps.watchCross {b₀ s : State} (c : Nat) (hi : Bool) (lo : Bool) (hG : Keeps b₀ s) : Keeps b₀
    (State.watchCross s (c) (hi) (lo)) := by
  unfold State.watchCross
  dsimp only
  repeat' first | with_reducible assumption | with_reducible apply Keeps.wrBit | with_reducible apply Keeps.event
                | with_reducible apply Keeps.raise | split | refine Keeps.upd ?_ rfl (Nat.le_refl _) (Nat.le_refl _)

theorem Keeps.setLatchOf {b₀ s : State} (c : Nat) (hi : Bool) (hG : Keeps b₀ s) : Keeps b₀ (State.setLatchOf s (c)
    (hi)) := by
  unfold State.setLatchOf
  dsimp only
  with_reducible repeat' first | assumption | apply Keeps.wrB | apply Keeps.inc | apply Keeps.modCmp
                               | apply Keeps.wrBit | apply Keeps.watchCross | refine fun s x h => ?_
                               | refine fun s h => ?_ | split

theorem Keeps.cmpSide {b₀ s : State} (c : Nat) (hi : Bool) (on : Bool) (blanked : Bool) (hG : Keeps b₀ s) : Keeps
    b₀ (State.cmpSide s (c) (hi) (on) (blanked)) := by
  unfold State.cmpSide
  dsimp only
  with_reducible repeat' first | assumption | apply Keeps.wrB | apply Keeps.setLatchOf | split

theorem Keeps.cmpChange {b₀ s : State} (c : Nat) (hi : Bool) (lo : Bool) (blanked : Bool) (hG : Keeps b₀ s) : Keeps
    b₀ (State.cmpChange s (c) (hi) (lo) (blanked)) := by
  unfold State.cmpChange
  with_reducible repeat' first | assumption | apply Keeps.cmpSide | apply Keeps.showCmp | split

theorem Keeps.cmpResolve {b₀ s : State} (c : Nat) (hi : Bool) (on : Bool) (blanked : Bool) (hG : Keeps b₀ s) :
    Keeps b₀ (State.cmpResolve s (c) (hi) (on) (blanked)) := by
  unfold State.cmpResolve
  with_reducible repeat' first | assumption | apply Keeps.wrB | apply Keeps.cmpSide | apply Keeps.showCmp | split

theorem Keeps.judgeCmp {b₀ s : State} (c : Nat) (hG : Keeps b₀ s) : Keeps b₀ (State.judgeCmp s (c)) := by
  unfold State.judgeCmp
  dsimp only
  with_reducible repeat' first | assumption | apply Keeps.modCmp | apply Keeps.raise | apply Keeps.setActive
                               | refine fun s x h => ?_ | refine fun s h => ?_ | split

theorem Keeps.cmpStart {b₀ s : State} (c : Nat) (hG : Keeps b₀ s) : Keeps b₀ (State.cmpStart s (c)) := by
  unfold State.cmpStart
  with_reducible repeat' first | assumption | apply Keeps.each | apply Keeps.wrB | refine fun s x h => ?_
                               | refine fun s h => ?_

theorem Keeps.cmpStartAll {b₀ s : State} (hG : Keeps b₀ s) : Keeps b₀ (State.cmpStartAll s) := by
  unfold State.cmpStartAll
  with_reducible repeat' first | assumption | apply Keeps.each | apply Keeps.judgeCmp | apply Keeps.cmpStart
                               | apply Keeps.showCmp

theorem Keeps.cmpWritten {b₀ s : State} (before : State) (c : Nat) (hG : Keeps b₀ s) : Keeps b₀ (State.cmpWritten s
    (before) (c)) := by
  unfold State.cmpWritten
  with_reducible repeat' first | assumption | apply Keeps.judgeCmp | apply Keeps.cmpStart | apply Keeps.showCmp
                               | split

theorem Keeps.cmpRearm {b₀ s : State} (base : Nat) (v : Word) (hG : Keeps b₀ s) : Keeps b₀ (State.cmpRearm s (base)
    (v)) := by
  unfold State.cmpRearm
  dsimp only
  with_reducible repeat' first | assumption | apply Keeps.each | apply Keeps.wrB | apply Keeps.wr
                               | apply Keeps.cmpStart | apply Keeps.showCmp | refine fun s x h => ?_
                               | refine fun s h => ?_ | split

theorem Keeps.releaseLatch {b₀ s : State} (c : Nat) (hi : Bool) (blanked : Bool) (hG : Keeps b₀ s) : Keeps b₀
    (State.releaseLatch s (c) (hi) (blanked)) := by
  unfold State.releaseLatch
  with_reducible repeat' first | assumption | apply Keeps.wrB | split

theorem Keeps.latchWrite {b₀ s : State} (c : Nat) (v : Word) (blanked : Bool) (hG : Keeps b₀ s) : Keeps b₀
    (State.latchWrite s (c) (v) (blanked)) := by
  unfold State.latchWrite
  with_reducible repeat' first | assumption | apply Keeps.releaseLatch | apply Keeps.showCmp | split

theorem Keeps.cmpPeriodEnd {b₀ s : State} (c : Nat) (blank : Bool) (hG : Keeps b₀ s) : Keeps b₀ (State.cmpPeriodEnd
    s (c) (blank)) := by
  unfold State.cmpPeriodEnd
  with_reducible repeat' first | assumption | apply Keeps.inc | apply Keeps.wr | apply Keeps.wrB | apply Keeps.event
                               | apply Keeps.raise | apply Keeps.releaseLatch | apply Keeps.modCmp
                               | refine fun s x h => ?_ | refine fun s h => ?_ | split

theorem Keeps.pwmRestart {b₀ s : State} (n : Nat) (hG : Keeps b₀ s) : Keeps b₀ (State.pwmRestart s (n)) := by
  unfold State.pwmRestart
  dsimp only
  repeat' first | with_reducible assumption | with_reducible apply Keeps.wrB | split
                | refine Keeps.upd ?_ rfl (Nat.le_refl _) (Nat.le_refl _)

theorem Keeps.pwmBoundary {b₀ s : State} (g : Nat) (load : Bool) (blank : BitVec 64) (hG : Keeps b₀ s) : Keeps b₀
    (State.pwmBoundary s (g) (load) (blank)) := by
  unfold State.pwmBoundary
  with_reducible repeat' first | assumption | apply Keeps.loadGroup | apply Keeps.each | apply Keeps.cmpPeriodEnd
                               | apply Keeps.showCmp | apply Keeps.pwmRestart | refine fun s x h => ?_
                               | refine fun s h => ?_ | split

theorem Keeps.pwmWrap {b₀ s : State} (g : Nat) (blank : BitVec 64) (hG : Keeps b₀ s) : Keeps b₀ (State.pwmWrap s
    (g) (blank)) := by
  unfold State.pwmWrap
  with_reducible repeat' first | assumption | apply Keeps.pwmBoundary | split

theorem Keeps.groupApply {b₀ s : State} (g : Nat) (hG : Keeps b₀ s) : Keeps b₀ (State.groupApply s (g)) := by
  unfold State.groupApply
  dsimp only
  with_reducible repeat' first | assumption | apply Keeps.armGroup | apply Keeps.wrB | apply Keeps.each
                               | apply Keeps.pwmRestart | apply Keeps.showGroup | apply Keeps.pwmBoundary | split

theorem Keeps.pwmApply {b₀ s : State} (hG : Keeps b₀ s) : Keeps b₀ (State.pwmApply s) := by
  unfold State.pwmApply
  repeat' first | with_reducible assumption | with_reducible apply Keeps.each | with_reducible apply Keeps.groupApply
                | refine Keeps.upd ?_ rfl (Nat.le_refl _) (Nat.le_refl _)

theorem Keeps.cmpWatch {b₀ s : State} (hG : Keeps b₀ s) : Keeps b₀ (State.cmpWatch s) := by
  unfold State.cmpWatch
  repeat' first | with_reducible assumption | with_reducible apply Keeps.each | with_reducible apply Keeps.cmpStart
                | with_reducible apply Keeps.showCmp | refine Keeps.upd ?_ rfl (Nat.le_refl _) (Nat.le_refl _)

theorem Keeps.cmpUnwatch {b₀ s : State} (hG : Keeps b₀ s) : Keeps b₀ (State.cmpUnwatch s) := by
  unfold State.cmpUnwatch
  repeat' first | with_reducible assumption | with_reducible apply Keeps.each | with_reducible apply Keeps.cmpStart
                | with_reducible apply Keeps.showCmp | refine Keeps.upd ?_ rfl (Nat.le_refl _) (Nat.le_refl _)

end Sys2Proof.Machine
end

