-- ==== Sys2Proof/Laws/KeepCells.lean ====
section
/-! SUPPORT. What each operation of Machine/Cells.lean keeps (Laws/Keeps.lean). -/

set_option Elab.async false

namespace Sys2Proof.Machine

open Sys2Proof

theorem Keeps.queueDue {b₀ s : State} (d : Desc) (v : F32) (hG : Keeps b₀ s) : Keeps b₀ (State.queueDue s (d) (v))
    := by
  unfold State.queueDue
  repeat' first | with_reducible assumption | refine Keeps.upd ?_ rfl (Nat.le_refl _) (Nat.le_refl _)

theorem Keeps.supersedeOlder {b₀ s : State} (c : Cmd) (op : Nat) (p : Desc → Bool) (hG : Keeps b₀ s) : Keeps b₀
    (State.supersedeOlder s (c) (op) (p)) := by
  unfold State.supersedeOlder
  with_reducible repeat' first | assumption | apply Keeps.supersede | refine fun s x h => ?_ | refine fun s h => ?_

theorem Keeps.accept {b₀ s : State} (c : Cmd) (p : Desc → Bool) (v : F32) (hG : Keeps b₀ s) : Keeps b₀
    (State.accept s (c) (p) (v)) := by
  unfold State.accept
  with_reducible repeat' first | assumption | apply Keeps.supersedeOlder | apply Keeps.queueDue

theorem Keeps.retry {b₀ s : State} (e : Kept) (own : Owner) (hown : ∀ c t, Keeps b₀ t → Keeps b₀ (own c t).1) (hG :
    Keeps b₀ s) : Keeps b₀ (State.retry s (e) (own)) := by
  unfold State.retry
  dsimp only
  repeat' first | with_reducible assumption | with_reducible apply Keeps.resolve
                | with_reducible apply Keeps.showKept | with_reducible apply hown | refine fun s x h => ?_
                | refine fun s h => ?_ | split | refine Keeps.upd ?_ rfl (Nat.le_refl _) (Nat.le_refl _)

theorem Keeps.retryAll {b₀ s : State} (op : Nat) (p : Desc → Bool) (own : Owner) (hown : ∀ c t, Keeps b₀ t → Keeps
    b₀ (own c t).1) (hG : Keeps b₀ s) : Keeps b₀ (State.retryAll s (op) (p) (own)) := by
  unfold State.retryAll
  with_reducible repeat' first | assumption | apply Keeps.each | apply Keeps.retry | apply hown
                               | refine fun s x h => ?_ | refine fun s h => ?_

theorem Keeps.tellDerated {b₀ s : State} (c : Cmd) (v : Verdict) (hG : Keeps b₀ s) : Keeps b₀ (State.tellDerated s
    (c) (v)) := by
  unfold State.tellDerated
  with_reducible repeat' first | assumption | apply Keeps.event | split

theorem Keeps.ownCommit {b₀ s : State} (c : Cmd) (hG : Keeps b₀ s) : Keeps b₀ (Machine.ownCommit c s).1 := by
  unfold Machine.ownCommit
  dsimp only
  with_reducible repeat' first | assumption | apply Keeps.supersedeOlder | apply Keeps.acceptCommit
                               | refine fun s x h => ?_ | refine fun s h => ?_ | split

theorem Keeps.ownCommitLater {b₀ s : State} (c : Cmd) (hG : Keeps b₀ s) : Keeps b₀ (Machine.ownCommitLater c s).1
    := by
  unfold Machine.ownCommitLater
  with_reducible repeat' first | assumption | apply Keeps.ownCommit | refine fun s x h => ?_ | refine fun s h => ?_

theorem Keeps.verified {b₀ s : State} (hG : Keeps b₀ s) : Keeps b₀ (State.verified s) := by
  unfold State.verified
  with_reducible repeat' first | assumption | apply Keeps.retryAll | apply Keeps.ownCommitLater
                               | apply Keeps.verifyEnd | refine fun s x h => ?_ | refine fun s h => ?_ | split

theorem Keeps.ownDir {b₀ s : State} (c : Cmd) (hG : Keeps b₀ s) : Keeps b₀ (Machine.ownDir c s).1 := by
  unfold Machine.ownDir
  dsimp only
  with_reducible repeat' first | assumption | apply Keeps.accept | refine fun s x h => ?_ | refine fun s h => ?_
                               | split

theorem Keeps.stageSetpoint {b₀ s : State} (slot : Nat) (v : F32) (hG : Keeps b₀ s) : Keeps b₀ (State.stageSetpoint
    s (slot) (v)) := by
  unfold State.stageSetpoint
  repeat' first | with_reducible assumption | refine fun s x h => ?_ | refine fun s h => ?_ | split
                | refine Keeps.upd ?_ rfl (Nat.le_refl _) (Nat.le_refl _)

theorem Keeps.ownSetpoint {b₀ s : State} (final : Bool) (c : Cmd) (hG : Keeps b₀ s) : Keeps b₀ (Machine.ownSetpoint
    (final) c s).1 := by
  unfold Machine.ownSetpoint
  dsimp only
  with_reducible repeat' first | assumption | apply Keeps.supersedeOlder | apply Keeps.stageSetpoint
                               | apply Keeps.tellDerated | refine fun s x h => ?_ | refine fun s h => ?_ | split

theorem Keeps.ownString {b₀ s : State} (final : Bool) (c : Cmd) (hG : Keeps b₀ s) : Keeps b₀ (Machine.ownString
    (final) c s).1 := by
  unfold Machine.ownString
  dsimp only
  repeat' first | with_reducible assumption | with_reducible apply Keeps.supersedeOlder
                | with_reducible apply Keeps.wrB | with_reducible apply Keeps.showGuard
                | with_reducible apply Keeps.tellDerated | refine fun s x h => ?_ | refine fun s h => ?_ | split
                | refine Keeps.upd ?_ rfl (Nat.le_refl _) (Nat.le_refl _)

theorem Keeps.ownPoundEnable {b₀ s : State} (final : Bool) (c : Cmd) (hG : Keeps b₀ s) : Keeps b₀
    (Machine.ownPoundEnable (final) c s).1 := by
  unfold Machine.ownPoundEnable
  dsimp only
  with_reducible repeat' first | assumption | apply Keeps.supersedeOlder | apply Keeps.accept
                               | refine fun s x h => ?_ | refine fun s h => ?_ | split

theorem Keeps.ownPoundDisable {b₀ s : State} (c : Cmd) (hG : Keeps b₀ s) : Keeps b₀ (Machine.ownPoundDisable c s).1
    := by
  unfold Machine.ownPoundDisable
  dsimp only
  with_reducible repeat' first | assumption | apply Keeps.supersedeOlder | apply Keeps.queueDue
                               | refine fun s x h => ?_ | refine fun s h => ?_ | split

theorem Keeps.poundEnable {b₀ s : State} (p : Nat) (method : Nat) (kept : Bool) (hG : Keeps b₀ s) : Keeps b₀
    (State.poundEnable s (p) (method) (kept)) := by
  unfold State.poundEnable
  with_reducible repeat' first | assumption | apply Keeps.each | apply Keeps.setRole | apply Keeps.modPmgr
                               | apply Keeps.setPound | apply Keeps.regroupAll | refine fun s x h => ?_
                               | refine fun s h => ?_ | split

theorem Keeps.poundDisable {b₀ s : State} (p : Nat) (hG : Keeps b₀ s) : Keeps b₀ (State.poundDisable s (p)) := by
  unfold State.poundDisable
  dsimp only
  with_reducible repeat' first | assumption | apply Keeps.each | apply Keeps.dropSluice | apply Keeps.setRole
                               | apply Keeps.modPmgr | apply Keeps.setPound | apply Keeps.regroupAll
                               | refine fun s x h => ?_ | refine fun s h => ?_ | split

theorem Keeps.stoppingEnd {b₀ s : State} (p : Nat) (hG : Keeps b₀ s) : Keeps b₀ (State.stoppingEnd s (p)) := by
  unfold State.stoppingEnd
  repeat' (first | (with_reducible assumption) | (with_reducible apply Keeps.each)
                 | (with_reducible apply Keeps.setRole) | (with_reducible apply Keeps.roleEvent)
                 | (with_reducible apply Keeps.raise) | (with_reducible apply Keeps.setRoles)
                 | (with_reducible apply Keeps.modPmgr) | (with_reducible apply Keeps.setPound)
                 | (with_reducible apply Keeps.regroupAll) | (with_reducible apply Keeps.retryAll)
                 | (with_reducible apply Keeps.ownPoundEnable) | (refine fun s x h => ?_) | (refine fun s h => ?_)
                 | ((try lift_lets); intro x; refine Keeps.cutl (s := x) ?_ ?_; rotate_left; (intro hx; clear_value x); rotate_left; unfold x)
                 | ((try lift_lets); intro x) | split
                 | (with_reducible refine Keeps.upd ?_ ?_ ?_ ?_; rotate_left; exact rfl; (first | exact Nat.le_refl _ | exact Nat.le_max_left _ _ | exact Nat.le_add_right _ _); (first | exact Nat.le_refl _ | exact Nat.le_succ _); first | (with_reducible assumption) | (with_reducible apply Keeps.each) | (with_reducible apply Keeps.setRole) | (with_reducible apply Keeps.roleEvent) | (with_reducible apply Keeps.raise) | (with_reducible apply Keeps.setRoles) | (with_reducible apply Keeps.modPmgr) | (with_reducible apply Keeps.setPound) | (with_reducible apply Keeps.regroupAll) | (with_reducible apply Keeps.retryAll) | (with_reducible apply Keeps.ownPoundEnable) | (with_reducible refine Keeps.of2 ‹_ = (_, _)› ?_) | (with_reducible refine Keeps.of22 ‹_ = (_, _, _)› ?_) | (with_reducible refine Keeps.of1 ‹_ = (_, _)› ?_))
                 | (with_reducible refine Keeps.of2 ‹_ = (_, _)› ?_)
                 | (with_reducible refine Keeps.of22 ‹_ = (_, _, _)› ?_)
                 | (with_reducible refine Keeps.of1 ‹_ = (_, _)› ?_) | (dsimp -zeta only) | (dsimp +zetaDelta only))

theorem Keeps.ownBypass {b₀ s : State} (final : Bool) (c : Cmd) (hG : Keeps b₀ s) : Keeps b₀ (Machine.ownBypass
    (final) c s).1 := by
  unfold Machine.ownBypass
  dsimp only
  with_reducible repeat' first | assumption | apply Keeps.accept | refine fun s x h => ?_ | refine fun s h => ?_
                               | split

theorem Keeps.cellBypass {b₀ s : State} (g : Nat) (action : Nat) (hG : Keeps b₀ s) : Keeps b₀ (State.cellBypass s
    (g) (action)) := by
  unfold State.cellBypass
  dsimp only
  with_reducible repeat' first | assumption | apply Keeps.dropSluice | apply Keeps.setRole | apply Keeps.roleEvent
                               | apply Keeps.regroupAll | split

theorem Keeps.ownSluice {b₀ s : State} (c : Cmd) (hG : Keeps b₀ s) : Keeps b₀ (Machine.ownSluice c s).1 := by
  unfold Machine.ownSluice
  dsimp only
  with_reducible repeat' first | assumption | apply Keeps.supersedeOlder | apply Keeps.queueDue
                               | refine fun s x h => ?_ | refine fun s h => ?_ | split

theorem Keeps.sluiceCmd {b₀ s : State} (d : Desc) (hG : Keeps b₀ s) : Keeps b₀ (State.sluiceCmd s (d)) := by
  unfold State.sluiceCmd
  with_reducible repeat' first | assumption | apply Keeps.sluiceStart | apply Keeps.sluiceStop | split

theorem Keeps.loopPound {b₀ s : State} (p : Nat) (hG : Keeps b₀ s) : Keeps b₀ (State.loopPound s (p)) := by
  unfold State.loopPound
  with_reducible repeat' first | assumption | apply Keeps.each | apply Keeps.laneOff | apply Keeps.setLane
                               | apply Keeps.wr | apply Keeps.setTaps | apply Keeps.modLane | refine fun s x h => ?_
                               | refine fun s h => ?_ | split

theorem Keeps.unloopPound {b₀ s : State} (p : Nat) (hG : Keeps b₀ s) : Keeps b₀ (State.unloopPound s (p)) := by
  unfold State.unloopPound
  with_reducible repeat' first | assumption | apply Keeps.each | apply Keeps.restartLane | apply Keeps.modPound
                               | refine fun s x h => ?_ | refine fun s h => ?_

theorem Keeps.loopAgain {b₀ s : State} (hG : Keeps b₀ s) : Keeps b₀ (State.loopAgain s) := by
  unfold State.loopAgain
  with_reducible repeat' first | assumption | apply Keeps.each | apply Keeps.loopPound | refine fun s x h => ?_
                               | refine fun s h => ?_ | split

theorem Keeps.overlayEvent {b₀ s : State} (cause : Nat) (code : Nat) (hG : Keeps b₀ s) : Keeps b₀
    (State.overlayEvent s (cause) (code)) := by
  unfold State.overlayEvent
  with_reducible repeat' first | assumption | apply Keeps.event

theorem Keeps.endOverlays {b₀ s : State} (mask : Nat) (cause : Nat) (hG : Keeps b₀ s) : Keeps b₀ (State.endOverlays
    s (mask) (cause)) := by
  unfold State.endOverlays
  dsimp only
  with_reducible repeat' first | assumption | apply Keeps.setReg | apply Keeps.each | apply Keeps.unloopPound
                               | apply Keeps.overlayEvent | split

theorem Keeps.gridEvent {b₀ s : State} (old : Nat) (new : Nat) (blend : Bool) (kept : Bool) (hG : Keeps b₀ s) :
    Keeps b₀ (State.gridEvent s (old) (new) (blend) (kept)) := by
  unfold State.gridEvent
  with_reducible repeat' first | assumption | apply Keeps.event

theorem Keeps.ownGrid {b₀ s : State} (final : Bool) (c : Cmd) (hG : Keeps b₀ s) : Keeps b₀ (Machine.ownGrid (final)
    c s).1 := by
  unfold Machine.ownGrid
  repeat' (first | (with_reducible assumption) | (with_reducible apply Keeps.supersedeOlder)
                 | (with_reducible apply Keeps.accept) | (refine fun s x h => ?_) | (refine fun s h => ?_)
                 | ((try lift_lets); intro x; refine Keeps.cutl (s := x) ?_ ?_; rotate_left; (intro hx; clear_value x); rotate_left; unfold x)
                 | ((try lift_lets); intro x) | split
                 | (with_reducible refine Keeps.upd ?_ ?_ ?_ ?_; rotate_left; exact rfl; (first | exact Nat.le_refl _ | exact Nat.le_max_left _ _ | exact Nat.le_add_right _ _); (first | exact Nat.le_refl _ | exact Nat.le_succ _); first | (with_reducible assumption) | (with_reducible apply Keeps.supersedeOlder) | (with_reducible apply Keeps.accept) | (with_reducible refine Keeps.of2 ‹_ = (_, _)› ?_) | (with_reducible refine Keeps.of22 ‹_ = (_, _, _)› ?_) | (with_reducible refine Keeps.of1 ‹_ = (_, _)› ?_))
                 | (with_reducible refine Keeps.of2 ‹_ = (_, _)› ?_)
                 | (with_reducible refine Keeps.of22 ‹_ = (_, _, _)› ?_)
                 | (with_reducible refine Keeps.of1 ‹_ = (_, _)› ?_) | (dsimp -zeta only) | (dsimp +zetaDelta only))

theorem Keeps.gridEffect {b₀ s : State} (t : Nat) (kept : Bool) (hG : Keeps b₀ s) : Keeps b₀ (State.gridEffect s
    (t) (kept)) := by
  unfold State.gridEffect
  dsimp only
  repeat' first | with_reducible assumption | with_reducible apply Keeps.startShutDown
                | with_reducible apply Keeps.endOverlays | with_reducible apply Keeps.setRoles
                | with_reducible apply Keeps.each | with_reducible apply Keeps.setPound
                | with_reducible apply Keeps.wr | with_reducible apply Keeps.regroupAll
                | with_reducible apply Keeps.gridEvent | with_reducible apply Keeps.wrB | refine fun s x h => ?_
                | refine fun s h => ?_ | split | refine Keeps.upd ?_ rfl (Nat.le_refl _) (Nat.le_refl _)

theorem Keeps.blendEnd {b₀ s : State} (hG : Keeps b₀ s) : Keeps b₀ (State.blendEnd s) := by
  unfold State.blendEnd
  repeat' first | with_reducible assumption | with_reducible apply Keeps.wrB | with_reducible apply Keeps.gridEvent
                | with_reducible apply Keeps.retryAll | with_reducible apply Keeps.ownGrid | refine fun s x h => ?_
                | refine fun s h => ?_ | split | refine Keeps.upd ?_ rfl (Nat.le_refl _) (Nat.le_refl _)

theorem Keeps.rampStep {b₀ s : State} (start : List (Nat × F32)) (elapsed : Nat) (total : Nat) (hG : Keeps b₀ s) :
    Keeps b₀ (State.rampStep s (start) (elapsed) (total)) := by
  unfold State.rampStep
  dsimp only
  with_reducible repeat' first | assumption | apply Keeps.each | apply Keeps.forceSlot | refine fun s x h => ?_
                               | refine fun s h => ?_ | split

theorem Keeps.reachIdle {b₀ s : State} (hG : Keeps b₀ s) : Keeps b₀ (State.reachIdle s) := by
  unfold State.reachIdle
  repeat' first | with_reducible assumption | with_reducible apply Keeps.setRoles | with_reducible apply Keeps.each
                | with_reducible apply Keeps.setPound | with_reducible apply Keeps.wr
                | with_reducible apply Keeps.wrB | with_reducible apply Keeps.regroupAll
                | with_reducible apply Keeps.gridEvent | with_reducible apply Keeps.modLeg
                | with_reducible apply Keeps.setCond | with_reducible apply Keeps.event
                | with_reducible apply Keeps.setActive | with_reducible apply Keeps.wrBit
                | with_reducible apply Keeps.retryAll | with_reducible apply Keeps.ownGrid | refine fun s x h => ?_
                | refine fun s h => ?_ | split | refine Keeps.upd ?_ rfl (Nat.le_refl _) (Nat.le_refl _)

theorem Keeps.shutRamp {b₀ s : State} (hG : Keeps b₀ s) : Keeps b₀ (State.shutRamp s) := by
  unfold State.shutRamp
  dsimp only
  with_reducible repeat' first | assumption | apply Keeps.rampStep | apply Keeps.reachIdle | refine fun s x h => ?_
                               | refine fun s h => ?_ | split

theorem Keeps.shutdownEnd {b₀ s : State} (hG : Keeps b₀ s) : Keeps b₀ (State.shutdownEnd s) := by
  unfold State.shutdownEnd
  dsimp only
  repeat' first | with_reducible assumption | with_reducible apply Keeps.advanceTo
                | with_reducible apply Keeps.rampStep | with_reducible apply Keeps.reachIdle | refine fun s x h => ?_
                | refine fun s h => ?_ | split | refine Keeps.upd ?_ rfl (Nat.le_refl _) (Nat.le_refl _)

theorem Keeps.poundOut {b₀ s : State} (p : Nat) (hG : Keeps b₀ s) : Keeps b₀ (State.poundOut s (p)) := by
  unfold State.poundOut
  with_reducible repeat' first | assumption | apply Keeps.each | apply Keeps.setRole | apply Keeps.roleEvent
                               | apply Keeps.sluiceCellEnd | apply Keeps.dropSluice | apply Keeps.wr
                               | apply Keeps.modPound | refine fun s x h => ?_ | refine fun s h => ?_ | split

theorem Keeps.poundBack {b₀ s : State} (p : Nat) (hG : Keeps b₀ s) : Keeps b₀ (State.poundBack s (p)) := by
  unfold State.poundBack
  with_reducible repeat' first | assumption | apply Keeps.setRoles | apply Keeps.each | apply Keeps.suspect
                               | apply Keeps.wr | apply Keeps.modPmgr | refine fun s x h => ?_ | refine fun s h => ?_
                               | split

theorem Keeps.dropGrid {b₀ s : State} (det : Nat) (hG : Keeps b₀ s) : Keeps b₀ (State.dropGrid s (det)) := by
  unfold State.dropGrid
  repeat' first | with_reducible assumption | with_reducible apply Keeps.wr | with_reducible apply Keeps.wrB
                | with_reducible apply Keeps.setRoles | with_reducible apply Keeps.each
                | with_reducible apply Keeps.setRole | with_reducible apply Keeps.setPound
                | with_reducible apply Keeps.regroupAll | with_reducible apply Keeps.gridEvent
                | with_reducible apply Keeps.setCond | with_reducible apply Keeps.setActive
                | with_reducible apply Keeps.sluiceAbort | with_reducible apply Keeps.resolveWhere
                | refine fun s x h => ?_ | refine fun s h => ?_ | split
                | refine Keeps.upd ?_ rfl (Nat.le_refl _) (Nat.le_refl _)

theorem Keeps.basinOwner {b₀ : State} {op : Nat} {f : Bool} {own : Owner} (e : Machine.basinOwner op f = some own)
    (c : Cmd) {t : State} (hG : Keeps b₀ t) : Keeps b₀ (own c t).1 := by
  unfold Machine.basinOwner at e
  split at e
  · cases e; exact hG.ownGrid _ _
  split at e
  · cases e; exact hG.ownSetpoint _ _
  split at e
  · cases e; exact hG.ownString _ _
  split at e
  · cases e; exact hG.ownPoundEnable _ _
  split at e
  · cases e; exact hG.ownBypass _ _
  · cases e

theorem Keeps.recheck {b₀ s : State} (e : Kept) (hG : Keeps b₀ s) : Keeps b₀ (State.recheck s (e)) := by
  unfold State.recheck
  dsimp only
  with_reducible repeat' first | assumption | apply Keeps.basinOwner | apply Keeps.retry | split

theorem Keeps.recheckDeferred {b₀ s : State} (hG : Keeps b₀ s) : Keeps b₀ (State.recheckDeferred s) := by
  unfold State.recheckDeferred
  with_reducible repeat' first | assumption | apply Keeps.each | apply Keeps.recheck | refine fun s x h => ?_
                               | refine fun s h => ?_

theorem Keeps.deferTimeout {b₀ s : State} (seq : Nat) (hG : Keeps b₀ s) : Keeps b₀ (State.deferTimeout s (seq)) := by
  unfold State.deferTimeout
  with_reducible repeat' first | assumption | apply Keeps.basinOwner | apply Keeps.retry | refine fun s x h => ?_
                               | refine fun s h => ?_ | split

theorem Keeps.sluicePending {b₀ s : State} (hG : Keeps b₀ s) : Keeps b₀ (State.sluicePending s) := by
  unfold State.sluicePending
  with_reducible repeat' first | assumption | apply Keeps.retryAll | apply Keeps.ownSluice | refine fun s x h => ?_
                               | refine fun s h => ?_ | split

end Sys2Proof.Machine
end

