-- ==== Sys2Proof/Laws/KeepAuxDrive.lean ====
section
/-! SUPPORT. What each operation of Machine/AuxDrive.lean keeps (Laws/Keeps.lean). -/

set_option Elab.async false

namespace Sys2Proof.Machine

open Sys2Proof

theorem Keeps.modDrive {b₀ s : State} (d : Nat) (f : DriveSt → DriveSt) (hG : Keeps b₀ s) : Keeps b₀
    (State.modDrive s (d) (f)) := by
  unfold State.modDrive
  repeat' first | with_reducible assumption | refine Keeps.upd ?_ rfl (Nat.le_refl _) (Nat.le_refl _)

theorem Keeps.driveMask {b₀ s : State} (d : Nat) (m : Nat) (hG : Keeps b₀ s) : Keeps b₀ (State.driveMask s (d) (m))
    := by
  unfold State.driveMask
  with_reducible repeat' first | assumption | apply Keeps.each | apply Keeps.setMask | refine fun s x h => ?_
                               | refine fun s h => ?_

theorem Keeps.setDrive {b₀ s : State} (d : Nat) (x : Drive) (cause : Nat) (hG : Keeps b₀ s) : Keeps b₀
    (State.setDrive s (d) (x) (cause)) := by
  unfold State.setDrive
  dsimp only
  with_reducible repeat' first | assumption | apply Keeps.wr | apply Keeps.modDrive | apply Keeps.event
                               | apply Keeps.driveMask | refine fun s x h => ?_ | refine fun s h => ?_ | split

theorem Keeps.ownAuxRun {b₀ s : State} (c : Cmd) (hG : Keeps b₀ s) : Keeps b₀ (Machine.ownAuxRun c s).1 := by
  unfold Machine.ownAuxRun
  dsimp only
  with_reducible repeat' first | assumption | apply Keeps.supersedeOlder | apply Keeps.wrB | apply Keeps.queueDue
                               | refine fun s x h => ?_ | refine fun s h => ?_ | split

theorem Keeps.showAuxPending {b₀ s : State} (hG : Keeps b₀ s) : Keeps b₀ (State.showAuxPending s) := by
  unfold State.showAuxPending
  with_reducible repeat' first | assumption | apply Keeps.each | apply Keeps.wrB | refine fun s x h => ?_
                               | refine fun s h => ?_

theorem Keeps.ownAuxStop {b₀ s : State} (c : Cmd) (hG : Keeps b₀ s) : Keeps b₀ (Machine.ownAuxStop c s).1 := by
  unfold Machine.ownAuxStop
  dsimp only
  with_reducible repeat' first | assumption | apply Keeps.supersedeOlder | apply Keeps.showAuxPending
                               | apply Keeps.queueDue | refine fun s x h => ?_ | refine fun s h => ?_ | split

theorem Keeps.auxRun {b₀ s : State} (x : Desc) (kept : Bool) (hG : Keeps b₀ s) : Keeps b₀ (State.auxRun s (x)
    (kept)) := by
  unfold State.auxRun
  dsimp only
  with_reducible repeat' first | assumption | apply Keeps.modDrive | apply Keeps.setDrive | refine fun s x h => ?_
                               | refine fun s h => ?_ | split

theorem Keeps.coast {b₀ s : State} (d : Nat) (cause : Nat) (hG : Keeps b₀ s) : Keeps b₀ (State.coast s (d) (cause))
    := by
  unfold State.coast
  with_reducible repeat' first | assumption | apply Keeps.setDrive | apply Keeps.modDrive | apply Keeps.recatch
                               | refine fun s x h => ?_ | refine fun s h => ?_

theorem Keeps.auxStop {b₀ s : State} (x : Desc) (hG : Keeps b₀ s) : Keeps b₀ (State.auxStop s (x)) := by
  unfold State.auxStop
  dsimp only
  with_reducible repeat' first | assumption | apply Keeps.coast | apply Keeps.setDrive | apply Keeps.modDrive
                               | refine fun s x h => ?_ | refine fun s h => ?_ | split

theorem Keeps.coastAll {b₀ s : State} (detail : Nat) (hG : Keeps b₀ s) : Keeps b₀ (State.coastAll s (detail)) := by
  unfold State.coastAll
  with_reducible repeat' first | assumption | apply Keeps.each | apply Keeps.coast | apply Keeps.resolveWhere
                               | apply Keeps.showAuxPending | refine fun s x h => ?_ | refine fun s h => ?_ | split

theorem Keeps.auxStopped {b₀ s : State} (d : Nat) (hG : Keeps b₀ s) : Keeps b₀ (State.auxStopped s (d)) := by
  unfold State.auxStopped
  with_reducible repeat' first | assumption | apply Keeps.retryAll | apply Keeps.ownAuxRun
                               | apply Keeps.showAuxPending | refine fun s x h => ?_ | refine fun s h => ?_

theorem Keeps.driveFault {b₀ s : State} (d : Nat) (n : Nat) (cause : Nat) (hG : Keeps b₀ s) : Keeps b₀
    (State.driveFault s (d) (n) (cause)) := by
  unfold State.driveFault
  with_reducible repeat' first | assumption | apply Keeps.setDrive | apply Keeps.modDrive | apply Keeps.recatch
                               | apply Keeps.raise | refine fun s x h => ?_ | refine fun s h => ?_

theorem Keeps.auxFaultIn {b₀ s : State} (d : Nat) (asserted : Bool) (hG : Keeps b₀ s) : Keeps b₀ (State.auxFaultIn s
    (d) (asserted)) := by
  unfold State.auxFaultIn
  dsimp only
  repeat' first | with_reducible assumption | with_reducible apply Keeps.wrB | with_reducible apply Keeps.setActive
                | with_reducible apply Keeps.event | with_reducible apply Keeps.driveFault | refine fun s x h => ?_
                | refine fun s h => ?_ | split | refine Keeps.upd ?_ rfl (Nat.le_refl _) (Nat.le_refl _)

theorem Keeps.readAuxFlt {b₀ s : State} (hG : Keeps b₀ s) : Keeps b₀ (State.readAuxFlt s) := by
  unfold State.readAuxFlt
  with_reducible repeat' first | assumption | apply Keeps.each | apply Keeps.auxFaultIn | refine fun s x h => ?_
                               | refine fun s h => ?_ | split

theorem Keeps.auxCleared {b₀ s : State} (n : Nat) (hG : Keeps b₀ s) : Keeps b₀ (State.auxCleared s (n)) := by
  unfold State.auxCleared
  with_reducible repeat' first | assumption | apply Keeps.each | apply Keeps.setDrive | apply Keeps.auxStopped
                               | refine fun s x h => ?_ | refine fun s h => ?_ | split

theorem Keeps.recatch {b₀ s : State} (d : Nat) (lost : Nat) (hG : Keeps b₀ s) : Keeps b₀ (State.recatch s (d)
    (lost)) := by
  unfold State.recatch
  dsimp only
  with_reducible repeat' first | assumption | apply Keeps.wr | apply Keeps.event | apply Keeps.driveFault
                               | apply Keeps.setDrive | apply Keeps.modDrive | refine fun s x h => ?_
                               | refine fun s h => ?_ | split

theorem Keeps.coastEnd {b₀ s : State} (d : Nat) (hG : Keeps b₀ s) : Keeps b₀ (State.coastEnd s (d)) := by
  unfold State.coastEnd
  dsimp only
  with_reducible repeat' first | assumption | apply Keeps.advanceByTicks | apply Keeps.recatch | apply Keeps.setDrive
                               | apply Keeps.modDrive | apply Keeps.auxStopped | refine fun s x h => ?_
                               | refine fun s h => ?_ | split

theorem Keeps.recatchReset {b₀ s : State} (d : Nat) (hG : Keeps b₀ s) : Keeps b₀ (State.recatchReset s (d)) := by
  unfold State.recatchReset
  with_reducible repeat' first | assumption | apply Keeps.advanceByTicks | apply Keeps.wr | split

theorem Keeps.takeShunt {b₀ s : State} (d : Nat) (xs : List ShuntSample) (hG : Keeps b₀ s) : Keeps b₀
    (State.takeShunt s (d) (xs)) := by
  unfold State.takeShunt
  with_reducible repeat' first | assumption | apply Keeps.modDrive | apply Keeps.each | refine fun s x h => ?_
                               | refine fun s h => ?_ | split

theorem Keeps.driveOutputs {b₀ s : State} (d : Nat) (vals : List F32) (hG : Keeps b₀ s) : Keeps b₀
    (State.driveOutputs s (d) (vals)) := by
  unfold State.driveOutputs
  with_reducible repeat' first | assumption | apply Keeps.each | apply Keeps.writeSlot | refine fun s x h => ?_
                               | refine fun s h => ?_

theorem Keeps.stageAt {b₀ s : State} (d : Nat) (k : Nat) (ton : Rat) (phase : Nat) (hG : Keeps b₀ s) : Keeps b₀
    (State.stageAt s (d) (k) (ton) (phase)) := by
  unfold State.stageAt
  with_reducible repeat' first | assumption | apply Keeps.each | apply Keeps.wr | apply Keeps.armGroup
                               | refine fun s x h => ?_ | refine fun s h => ?_ | split

theorem Keeps.stageVector {b₀ s : State} (d : Nat) (k : Nat) (ton : Rat) (centre : Rat) (hG : Keeps b₀ s) : Keeps b₀
    (State.stageVector s (d) (k) (ton) (centre)) := by
  unfold State.stageVector
  with_reducible repeat' first | assumption | apply Keeps.stageAt | refine fun s x h => ?_ | refine fun s h => ?_
                               | split

theorem Keeps.stageOpened {b₀ s : State} (d : Nat) (k : Nat) (w : Rat) (edge : Rat) (hG : Keeps b₀ s) : Keeps b₀
    (State.stageOpened s (d) (k) (w) (edge)) := by
  unfold State.stageOpened
  with_reducible repeat' first | assumption | apply Keeps.stageAt | refine fun s x h => ?_ | refine fun s h => ?_
                               | split

theorem Keeps.compensate {b₀ s : State} (d : Nat) (k : Nat) (ton : Rat) (hG : Keeps b₀ s) : Keeps b₀ (State.compensate
    s (d) (k) (ton)).2 := by
  unfold State.compensate
  with_reducible repeat' first | assumption | apply Keeps.inc | refine fun s x h => ?_ | refine fun s h => ?_ | split

theorem Keeps.placeVector {b₀ s : State} (d : Nat) (k : Nat) (ton : Rat) (hG : Keeps b₀ s) : Keeps b₀
    (State.placeVector s (d) (k) (ton)) := by
  unfold State.placeVector
  dsimp only
  with_reducible repeat' first | assumption | apply Keeps.compensate | apply Keeps.inc | apply Keeps.stageOpened
                               | apply Keeps.modDrive | apply Keeps.stageVector | refine fun s x h => ?_
                               | refine fun s h => ?_ | split

theorem Keeps.adoptDrive {b₀ s : State} (d : Nat) (hG : Keeps b₀ s) : Keeps b₀ (State.adoptDrive s (d)) := by
  unfold State.adoptDrive
  dsimp only
  with_reducible repeat' first | assumption | apply Keeps.modDrive | apply Keeps.setDrive | refine fun s x h => ?_
                               | refine fun s h => ?_ | split

theorem Keeps.showLimit {b₀ s : State} (d : Nat) (c : Control) (hG : Keeps b₀ s) : Keeps b₀ (State.showLimit s (d)
    (c)) := by
  unfold State.showLimit
  with_reducible repeat' first | assumption | apply Keeps.wrB | apply Keeps.when | apply Keeps.event
                               | apply Keeps.modDrive | refine fun s x h => ?_ | refine fun s h => ?_

theorem Keeps.observerOutputs {b₀ s : State} (d : Nat) (o : Observed) (hG : Keeps b₀ s) : Keeps b₀
    (State.observerOutputs s (d) (o)) := by
  unfold State.observerOutputs
  with_reducible repeat' first | assumption | apply Keeps.driveOutputs

theorem Keeps.decide_ {b₀ s : State} (d : Nat) (hG : Keeps b₀ s) : Keeps b₀ (State.decide_ s (d)) := by
  unfold State.decide_
  dsimp only
  with_reducible repeat' first | assumption | apply Keeps.modDrive | apply Keeps.showLimit
                               | apply Keeps.observerOutputs | apply Keeps.recatch | apply Keeps.setDrive
                               | apply Keeps.auxStopped | apply Keeps.placeVector | refine fun s x h => ?_
                               | refine fun s h => ?_ | split

theorem Keeps.auxDecision {b₀ s : State} (d : Nat) (xs : List ShuntSample) (hG : Keeps b₀ s) : Keeps b₀
    (State.auxDecision s (d) (xs)) := by
  unfold State.auxDecision
  dsimp only
  with_reducible repeat' first | assumption | apply Keeps.adoptDrive | apply Keeps.takeShunt | apply Keeps.decide_
                               | apply Keeps.fresh | apply Keeps.stageVector | apply Keeps.modDrive
                               | refine fun s x h => ?_ | refine fun s h => ?_ | split

theorem Keeps.driveRuns {b₀ s : State} (d : Nat) (start : F32) (psiA : F32) (psiB : F32) (cause : Nat) (hG : Keeps
    b₀ s) : Keeps b₀ (State.driveRuns s (d) (start) (psiA) (psiB) (cause)) := by
  unfold State.driveRuns
  with_reducible repeat' first | assumption | apply Keeps.modDrive | apply Keeps.setDrive | refine fun s x h => ?_
                               | refine fun s h => ?_

theorem Keeps.probeLow {b₀ s : State} (d : Nat) (p : Probe) (hG : Keeps b₀ s) : Keeps b₀ (State.probeLow s (d) (p))
    := by
  unfold State.probeLow
  dsimp only
  with_reducible repeat' first | assumption | apply Keeps.modDrive | apply Keeps.event | apply Keeps.setDrive
                               | refine fun s x h => ?_ | refine fun s h => ?_ | split

theorem Keeps.caught {b₀ s : State} (d : Nat) (we : Rat) (p : Probe) (hG : Keeps b₀ s) : Keeps b₀ (State.caught s
    (d) (we) (p)) := by
  unfold State.caught
  with_reducible repeat' first | assumption | apply Keeps.event | apply Keeps.driveRuns

theorem Keeps.probeDiffers {b₀ s : State} (d : Nat) (p : Probe) (hG : Keeps b₀ s) : Keeps b₀ (State.probeDiffers s
    (d) (p)) := by
  unfold State.probeDiffers
  dsimp only
  with_reducible repeat' first | assumption | apply Keeps.modDrive | apply Keeps.raise | apply Keeps.recatch
                               | refine fun s x h => ?_ | refine fun s h => ?_ | split

theorem Keeps.probeSet {b₀ s : State} (d : Nat) (xs : List MarkSample) (hG : Keeps b₀ s) : Keeps b₀ (State.probeSet
    s (d) (xs)) := by
  unfold State.probeSet
  dsimp only
  with_reducible repeat' first | assumption | apply Keeps.probeLow | apply Keeps.modDrive | apply Keeps.caught
                               | apply Keeps.probeDiffers | refine fun s x h => ?_ | refine fun s h => ?_ | split

theorem Keeps.alignDone {b₀ s : State} (d : Nat) (hG : Keeps b₀ s) : Keeps b₀ (State.alignDone s (d)) := by
  unfold State.alignDone
  with_reducible repeat' first | assumption | apply Keeps.advanceByTicks | apply Keeps.driveRuns | split

end Sys2Proof.Machine
end

