-- ==== Sys2Proof/Laws/KeepTime.lean ====
section
/-! SUPPORT. What each operation of Machine/Time.lean keeps (Laws/Keeps.lean). -/

set_option Elab.async false

namespace Sys2Proof.Machine

open Sys2Proof

theorem Keeps.modTracker {b₀ s : State} (i : Nat) (f : Tracker → Tracker) (hG : Keeps b₀ s) : Keeps b₀
    (State.modTracker s (i) (f)) := by
  unfold State.modTracker
  repeat' first | with_reducible assumption | refine Keeps.upd ?_ rfl (Nat.le_refl _) (Nat.le_refl _)

theorem Keeps.modPtpLink {b₀ s : State} (i : Nat) (p : Nat) (f : PtpLink → PtpLink) (hG : Keeps b₀ s) : Keeps b₀
    (State.modPtpLink s (i) (p) (f)) := by
  unfold State.modPtpLink
  with_reducible repeat' first | assumption | apply Keeps.modTracker | refine fun s x h => ?_ | refine fun s h => ?_
                               | split

theorem Keeps.dropPtpLink {b₀ s : State} (i : Nat) (p : Nat) (hG : Keeps b₀ s) : Keeps b₀ (State.dropPtpLink s (i)
    (p)) := by
  unfold State.dropPtpLink
  with_reducible repeat' first | assumption | apply Keeps.modPtpLink | refine fun s x h => ?_ | refine fun s h => ?_
                               | split

theorem Keeps.showRate {b₀ s : State} (hG : Keeps b₀ s) : Keeps b₀ (State.showRate s) := by
  unfold State.showRate
  with_reducible repeat' first | assumption | apply Keeps.wr

theorem Keeps.setCorr {b₀ s : State} (c : Corr) (hG : Keeps b₀ s) : Keeps b₀ (State.setCorr s (c)) := by
  unfold State.setCorr
  repeat' first | with_reducible assumption | with_reducible apply Keeps.showRate
                | refine Keeps.upd ?_ rfl (Nat.le_refl _) (Nat.le_refl _)

theorem Keeps.setDomCorr {b₀ s : State} (i : Nat) (c : Corr) (hG : Keeps b₀ s) : Keeps b₀ (State.setDomCorr s (i)
    (c)) := by
  unfold State.setDomCorr
  with_reducible repeat' first | assumption | apply Keeps.modTracker | apply Keeps.wr | refine fun s x h => ?_
                               | refine fun s h => ?_

theorem Keeps.showDiff {b₀ s : State} (hG : Keeps b₀ s) : Keeps b₀ (State.showDiff s) := by
  unfold State.showDiff
  with_reducible repeat' first | assumption | apply Keeps.wr

theorem Keeps.startSlew {b₀ s : State} (hG : Keeps b₀ s) : Keeps b₀ (State.startSlew s) := by
  unfold State.startSlew
  dsimp only
  repeat' first | with_reducible assumption | with_reducible apply Keeps.setCorr | with_reducible apply Keeps.wrB
                | with_reducible apply Keeps.showDiff | split
                | refine Keeps.upd ?_ rfl (Nat.le_refl _) (Nat.le_refl _)

theorem Keeps.runSlew {b₀ s : State} (hG : Keeps b₀ s) : Keeps b₀ (State.runSlew s) := by
  unfold State.runSlew
  dsimp only
  with_reducible repeat' first | assumption | apply Keeps.advanceBy | refine fun s x h => ?_ | refine fun s h => ?_
                               | split

theorem Keeps.endSlew {b₀ s : State} (hG : Keeps b₀ s) : Keeps b₀ (State.endSlew s) := by
  unfold State.endSlew
  repeat' first | with_reducible assumption | refine Keeps.upd ?_ rfl (Nat.le_refl _) (Nat.le_refl _)

theorem Keeps.slewDone {b₀ s : State} (hG : Keeps b₀ s) : Keeps b₀ (State.slewDone s) := by
  unfold State.slewDone
  with_reducible repeat' first | assumption | apply Keeps.endSlew | apply Keeps.setCorr | apply Keeps.wrB
                               | apply Keeps.event | apply Keeps.runSlew | apply Keeps.showDiff | split

theorem Keeps.closeWindowsAtStep {b₀ s : State} (hG : Keeps b₀ s) : Keeps b₀ (State.closeWindowsAtStep s) := by
  unfold State.closeWindowsAtStep
  with_reducible repeat' first | assumption | apply Keeps.each | apply Keeps.accClose | refine fun s x h => ?_
                               | refine fun s h => ?_

theorem Keeps.jumpTime {b₀ s : State} (c : Corr) (new : Nat) (hG : Keeps b₀ s) : Keeps b₀ (State.jumpTime s (c)
    (new)) := by
  unfold State.jumpTime
  repeat' first | with_reducible assumption | with_reducible apply Keeps.setCorr | with_reducible apply Keeps.wrB
                | with_reducible apply Keeps.closeWindowsAtStep | with_reducible apply Keeps.event
                | with_reducible apply Keeps.showDiff | refine Keeps.upd ?_ rfl (Nat.le_refl _) (Nat.le_refl _)

theorem Keeps.judgeTime {b₀ s : State} (hG : Keeps b₀ s) : Keeps b₀ (State.judgeTime s) := by
  unfold State.judgeTime
  dsimp only
  repeat' first | with_reducible assumption | with_reducible apply Keeps.wrB | with_reducible apply Keeps.setActive
                | with_reducible apply Keeps.jumpTime | with_reducible apply Keeps.event
                | with_reducible apply Keeps.startSlew | split
                | refine Keeps.upd ?_ rfl (Nat.le_refl _) (Nat.le_refl _)

theorem Keeps.timeInvalid {b₀ s : State} (hG : Keeps b₀ s) : Keeps b₀ (State.timeInvalid s) := by
  unfold State.timeInvalid
  repeat' first | with_reducible assumption | with_reducible apply Keeps.wrB | with_reducible apply Keeps.event
                | with_reducible apply Keeps.setActive | with_reducible apply Keeps.raise
                | with_reducible apply Keeps.showDiff | split
                | refine Keeps.upd ?_ rfl (Nat.le_refl _) (Nat.le_refl _)

theorem Keeps.select {b₀ s : State} (n : Nat) (hG : Keeps b₀ s) : Keeps b₀ (State.select s (n)) := by
  unfold State.select
  dsimp only
  with_reducible repeat' first | assumption | apply Keeps.wr | apply Keeps.inc | apply Keeps.event
                               | apply Keeps.startSlew | split

theorem Keeps.judgeSelection {b₀ s : State} (hadLock : Bool) (hG : Keeps b₀ s) : Keeps b₀ (State.judgeSelection s
    (hadLock)) := by
  unfold State.judgeSelection
  dsimp only
  with_reducible repeat' first | assumption | apply Keeps.select | apply Keeps.judgeTime | apply Keeps.setActive
                               | apply Keeps.raise | split

theorem Keeps.setDom {b₀ s : State} (i : Nat) (x : Dom) (hG : Keeps b₀ s) : Keeps b₀ (State.setDom s (i) (x)) := by
  unfold State.setDom
  dsimp only
  with_reducible repeat' first | assumption | apply Keeps.wr | apply Keeps.modTracker | apply Keeps.event
                               | apply Keeps.inc | apply Keeps.holdover | apply Keeps.setActive | apply Keeps.raise
                               | apply Keeps.judgeSelection | refine fun s x h => ?_ | refine fun s h => ?_ | split

theorem Keeps.startTracker {b₀ s : State} (i : Nat) (hG : Keeps b₀ s) : Keeps b₀ (State.startTracker s (i)) := by
  unfold State.startTracker
  with_reducible repeat' first | assumption | apply Keeps.wr | apply Keeps.modTracker | apply Keeps.setDom
                               | refine fun s x h => ?_ | refine fun s h => ?_ | split

theorem Keeps.startTrackers {b₀ s : State} (hG : Keeps b₀ s) : Keeps b₀ (State.startTrackers s) := by
  unfold State.startTrackers
  with_reducible repeat' first | assumption | apply Keeps.each | apply Keeps.startTracker | refine fun s x h => ?_
                               | refine fun s h => ?_ | split

theorem Keeps.domWritten {b₀ s : State} (i : Nat) (hG : Keeps b₀ s) : Keeps b₀ (State.domWritten s (i)) := by
  unfold State.domWritten
  with_reducible repeat' first | assumption | apply Keeps.startTracker | refine fun s x h => ?_ | refine fun s h => ?_
                               | split

theorem Keeps.trackersHold {b₀ s : State} (hG : Keeps b₀ s) : Keeps b₀ (State.trackersHold s) := by
  unfold State.trackersHold
  with_reducible repeat' first | assumption | apply Keeps.each | apply Keeps.setDom | apply Keeps.holdover
                               | refine fun s x h => ?_ | refine fun s h => ?_ | split

theorem Keeps.newGrandmaster {b₀ s : State} (i : Nat) (old : Option PtpMaster) (m : PtpMaster) (hG : Keeps b₀ s) :
    Keeps b₀ (State.newGrandmaster s (i) (old) (m)) := by
  unfold State.newGrandmaster
  with_reducible repeat' first | assumption | apply Keeps.event | apply Keeps.setDom | split

theorem Keeps.masterIn {b₀ s : State} (i : Nat) (old : Option PtpMaster) (m : PtpMaster) (d : Dom) (hG : Keeps b₀
    s) : Keeps b₀ (State.masterIn s (i) (old) (m) (d)) := by
  unfold State.masterIn
  with_reducible repeat' first | assumption | apply Keeps.newGrandmaster | apply Keeps.setDom | apply Keeps.holdover
                               | split

theorem Keeps.takeMaster {b₀ s : State} (i : Nat) (m : PtpMaster) (hG : Keeps b₀ s) : Keeps b₀ (State.takeMaster s
    (i) (m)) := by
  unfold State.takeMaster
  with_reducible repeat' first | assumption | apply Keeps.modTracker | apply Keeps.wr | apply Keeps.wrB
                               | apply Keeps.masterIn | refine fun s x h => ?_ | refine fun s h => ?_

theorem Keeps.announce {b₀ s : State} (i : Nat) (port : Nat) (m : PtpMaster) (hG : Keeps b₀ s) : Keeps b₀
    (State.announce s (i) (port) (m)) := by
  unfold State.announce
  dsimp only
  with_reducible repeat' first | assumption | apply Keeps.modTracker | apply Keeps.takeMaster
                               | refine fun s x h => ?_ | refine fun s h => ?_ | split

theorem Keeps.servo {b₀ s : State} (i : Nat) (hG : Keeps b₀ s) : Keeps b₀ (State.servo s (i)) := by
  unfold State.servo
  dsimp only
  with_reducible repeat' first | assumption | apply Keeps.fresh | apply Keeps.setDomCorr | apply Keeps.setCorr
                               | apply Keeps.startSlew | refine fun s x h => ?_ | refine fun s h => ?_ | split

theorem Keeps.stepTracker {b₀ s : State} (i : Nat) (ofs : Int) (hG : Keeps b₀ s) : Keeps b₀ (State.stepTracker s (i)
    (ofs)) := by
  unfold State.stepTracker
  dsimp only
  with_reducible repeat' first | assumption | apply Keeps.setDom | apply Keeps.setDomCorr | apply Keeps.inc
                               | apply Keeps.modTracker | apply Keeps.startSlew | refine fun s x h => ?_
                               | refine fun s h => ?_ | split

theorem Keeps.offsetKnown {b₀ s : State} (i : Nat) (ofs : Int) (hG : Keeps b₀ s) : Keeps b₀ (State.offsetKnown s (i)
    (ofs)) := by
  unfold State.offsetKnown
  dsimp only
  with_reducible repeat' first | assumption | apply Keeps.wr | apply Keeps.stepTracker | apply Keeps.servo
                               | apply Keeps.modTracker | apply Keeps.setDom | refine fun s x h => ?_
                               | refine fun s h => ?_ | split

theorem Keeps.syncDone {b₀ s : State} (i : Nat) (port : Nat) (t1 : Int) (t2 : Int) (corr : Int) (hG : Keeps b₀ s) :
    Keeps b₀ (State.syncDone s (i) (port) (t1) (t2) (corr)) := by
  unfold State.syncDone
  dsimp only
  with_reducible repeat' first | assumption | apply Keeps.modPtpLink | apply Keeps.offsetKnown
                               | refine fun s x h => ?_ | refine fun s h => ?_ | split

theorem Keeps.delayKnown {b₀ s : State} (i : Nat) (port : Nat) (d : Int) (hG : Keeps b₀ s) : Keeps b₀
    (State.delayKnown s (i) (port) (d)) := by
  unfold State.delayKnown
  dsimp only
  with_reducible repeat' first | assumption | apply Keeps.modPtpLink | apply Keeps.wr | refine fun s x h => ?_
                               | refine fun s h => ?_ | split

theorem Keeps.ptp {b₀ s : State} (i : Nat) (port : Nat) (m : PtpMsg) (x : Int) (y : Int) (hG : Keeps b₀ s) : Keeps b₀
    (State.ptp s (i) (port) (m) (x) (y)) := by
  unfold State.ptp
  dsimp only
  with_reducible repeat' first | assumption | apply Keeps.announce | apply Keeps.modPtpLink | apply Keeps.syncDone
                               | apply Keeps.delayKnown | apply Keeps.emit | refine fun s x h => ?_
                               | refine fun s h => ?_ | split

theorem Keeps.masterLost {b₀ s : State} (i : Nat) (kind : Nat) (hG : Keeps b₀ s) : Keeps b₀ (State.masterLost s (i)
    (kind)) := by
  unfold State.masterLost
  dsimp only
  with_reducible repeat' first | assumption | apply Keeps.modTracker | apply Keeps.dropPtpLink | apply Keeps.wr
                               | apply Keeps.each | apply Keeps.setDom | refine fun s x h => ?_ | refine fun s h => ?_
                               | split

theorem Keeps.holdoverEnd {b₀ s : State} (i : Nat) (hG : Keeps b₀ s) : Keeps b₀ (State.holdoverEnd s (i)) := by
  unfold State.holdoverEnd
  with_reducible repeat' first | assumption | apply Keeps.holdover | apply Keeps.setDom | split

theorem Keeps.revert {b₀ s : State} (hG : Keeps b₀ s) : Keeps b₀ (State.revert s) := by
  unfold State.revert
  dsimp only
  with_reducible repeat' first | assumption | apply Keeps.advanceByTicks | apply Keeps.select | apply Keeps.judgeTime
                               | split

theorem Keeps.stepReq {b₀ s : State} (hG : Keeps b₀ s) : Keeps b₀ (State.stepReq s) := by
  unfold State.stepReq
  repeat' first | with_reducible assumption | with_reducible apply Keeps.inc | split
                | refine Keeps.upd ?_ rfl (Nat.le_refl _) (Nat.le_refl _)

theorem Keeps.stepAtMark {b₀ s : State} (hG : Keeps b₀ s) : Keeps b₀ (State.stepAtMark s) := by
  unfold State.stepAtMark
  with_reducible repeat' first | assumption | apply Keeps.jumpTime | split

theorem Keeps.captureNow {b₀ s : State} (hG : Keeps b₀ s) : Keeps b₀ (State.captureNow s) := by
  unfold State.captureNow
  with_reducible repeat' first | assumption | apply Keeps.wr

theorem Keeps.timeReset {b₀ s : State} (hG : Keeps b₀ s) : Keeps b₀ (State.timeReset s) := by
  unfold State.timeReset
  repeat' first | with_reducible assumption | with_reducible apply Keeps.wrB
                | refine Keeps.upd ?_ rfl (Nat.le_refl _) (Nat.le_refl _)

theorem Keeps.timeFree {b₀ s : State} (hG : Keeps b₀ s) : Keeps b₀ (State.timeFree s) := by
  unfold State.timeFree
  with_reducible repeat' first | assumption | apply Keeps.wrB | apply Keeps.setCorr | apply Keeps.event | split

theorem Keeps.tick {b₀ s : State} (hG : Keeps b₀ s) : Keeps b₀ (State.tick s) := by
  unfold State.tick
  with_reducible repeat' first | assumption | apply Keeps.advanceByTicks | split

end Sys2Proof.Machine
end

