-- ==== Sys2Proof/Laws/KeepRedundancy.lean ====
section
/-! SUPPORT. What each operation of Machine/Redundancy.lean keeps (Laws/Keeps.lean). -/

set_option Elab.async false

namespace Sys2Proof.Machine

open Sys2Proof

theorem Keeps.setHealth {b₀ s : State} (h : Nat) (first : Nat) (dev : F32) (hG : Keeps b₀ s) : Keeps b₀
    (State.setHealth s (h) (first) (dev)) := by
  unfold State.setHealth
  dsimp only
  with_reducible repeat' first | assumption | apply Keeps.wr | apply Keeps.event | split

theorem Keeps.swapEnd {b₀ s : State} (result : Nat) (hG : Keeps b₀ s) : Keeps b₀ (State.swapEnd s (result)) := by
  unfold State.swapEnd
  repeat' first | with_reducible assumption | with_reducible apply Keeps.wrB | with_reducible apply Keeps.event
                | split | refine Keeps.upd ?_ rfl (Nat.le_refl _) (Nat.le_refl _)

theorem Keeps.swapAbort {b₀ s : State} (hG : Keeps b₀ s) : Keeps b₀ (State.swapAbort s) := by
  unfold State.swapAbort
  with_reducible repeat' first | assumption | apply Keeps.swapEnd | split

theorem Keeps.judgeLink {b₀ s : State} (hG : Keeps b₀ s) : Keeps b₀ (State.judgeLink s) := by
  unfold State.judgeLink
  dsimp only
  repeat' first | with_reducible assumption | with_reducible apply Keeps.wr | with_reducible apply Keeps.wrB
                | with_reducible apply Keeps.event | with_reducible apply Keeps.level
                | with_reducible apply Keeps.inc | with_reducible apply Keeps.copyIn
                | with_reducible apply Keeps.setHealth | with_reducible apply Keeps.swapAbort | split
                | refine Keeps.upd ?_ rfl (Nat.le_refl _) (Nat.le_refl _)

theorem Keeps.judgeTake {b₀ s : State} (hG : Keeps b₀ s) : Keeps b₀ (State.judgeTake s) := by
  unfold State.judgeTake
  dsimp only
  with_reducible repeat' first | assumption | apply Keeps.wrB | apply Keeps.swapAbort | split

theorem Keeps.noteCopy {b₀ s : State} (ok : Bool) (hG : Keeps b₀ s) : Keeps b₀ (State.noteCopy s (ok)) := by
  unfold State.noteCopy
  repeat' first | with_reducible assumption | refine Keeps.upd ?_ rfl (Nat.le_refl _) (Nat.le_refl _)

theorem Keeps.claimTo {b₀ s : State} (new : Nat) (cause : Nat) (hG : Keeps b₀ s) : Keeps b₀ (State.claimTo s (new)
    (cause)) := by
  unfold State.claimTo
  dsimp only
  with_reducible repeat' first | assumption | apply Keeps.wr | apply Keeps.pwmOffAll | apply Keeps.inc
                               | apply Keeps.sendNotice | apply Keeps.event | split

theorem Keeps.releaseClaim {b₀ s : State} (cause : Nat) (hG : Keeps b₀ s) : Keeps b₀ (State.releaseClaim s (cause))
    := by
  unfold State.releaseClaim
  dsimp only
  with_reducible repeat' first | assumption | apply Keeps.wr | apply Keeps.pwmOffAll | apply Keeps.sendNotice
                               | apply Keeps.resolveWhere | apply Keeps.event | apply Keeps.swapEnd
                               | refine fun s x h => ?_ | refine fun s h => ?_ | split

theorem Keeps.lineFault {b₀ s : State} (hG : Keeps b₀ s) : Keeps b₀ (State.lineFault s) := by
  unfold State.lineFault
  with_reducible repeat' first | assumption | apply Keeps.inc | apply Keeps.setActive | apply Keeps.raise | split

theorem Keeps.partnerAsserted {b₀ s : State} (hG : Keeps b₀ s) : Keeps b₀ (State.partnerAsserted s) := by
  unfold State.partnerAsserted
  dsimp only
  repeat' first | with_reducible assumption | with_reducible apply Keeps.wrB | with_reducible apply Keeps.claimTo
                | with_reducible apply Keeps.setActive | with_reducible apply Keeps.raise
                | with_reducible apply Keeps.releaseClaim | split
                | refine Keeps.upd ?_ rfl (Nat.le_refl _) (Nat.le_refl _)

theorem Keeps.partnerDeasserted {b₀ s : State} (hG : Keeps b₀ s) : Keeps b₀ (State.partnerDeasserted s) := by
  unfold State.partnerDeasserted
  dsimp only
  repeat' first | with_reducible assumption | with_reducible apply Keeps.wrB | with_reducible apply Keeps.setActive
                | with_reducible apply Keeps.claimTo | split
                | refine Keeps.upd ?_ rfl (Nat.le_refl _) (Nat.le_refl _)

theorem Keeps.contestedTimeout {b₀ s : State} (hG : Keeps b₀ s) : Keeps b₀ (State.contestedTimeout s) := by
  unfold State.contestedTimeout
  repeat' first | with_reducible assumption | with_reducible apply Keeps.releaseClaim
                | with_reducible apply Keeps.raise | split | refine Keeps.upd ?_ rfl (Nat.le_refl _) (Nat.le_refl _)

theorem Keeps.claimAssert {b₀ s : State} (hG : Keeps b₀ s) : Keeps b₀ (State.claimAssert s) := by
  unfold State.claimAssert
  repeat' first | with_reducible assumption | with_reducible apply Keeps.advanceByTicks
                | with_reducible apply Keeps.claimTo | with_reducible apply Keeps.lineFault | split
                | refine Keeps.upd ?_ rfl (Nat.le_refl _) (Nat.le_refl _)

theorem Keeps.noteSent {b₀ s : State} (c : Nat) (hG : Keeps b₀ s) : Keeps b₀ (State.noteSent s (c)) := by
  unfold State.noteSent
  repeat' first | with_reducible assumption | refine fun s x h => ?_ | refine fun s h => ?_ | split
                | refine Keeps.upd ?_ rfl (Nat.le_refl _) (Nat.le_refl _)

theorem Keeps.gateOpens {b₀ s : State} (hG : Keeps b₀ s) : Keeps b₀ (State.gateOpens s) := by
  unfold State.gateOpens
  dsimp only
  repeat' first | with_reducible assumption | with_reducible apply Keeps.advanceByTicks
                | with_reducible apply Keeps.claimTo | with_reducible apply Keeps.inc
                | with_reducible apply Keeps.judgeSelection | with_reducible apply Keeps.event | split
                | refine Keeps.upd ?_ rfl (Nat.le_refl _) (Nat.le_refl _)

theorem Keeps.keeperExpired {b₀ s : State} (hG : Keeps b₀ s) : Keeps b₀ (State.keeperExpired s) := by
  unfold State.keeperExpired
  with_reducible repeat' first | assumption | apply Keeps.advanceByTicks | apply Keeps.inc | apply Keeps.raise
                               | apply Keeps.releaseClaim | split

theorem Keeps.startExpiry {b₀ s : State} (hG : Keeps b₀ s) : Keeps b₀ (State.startExpiry s) := by
  unfold State.startExpiry
  repeat' first | with_reducible assumption | split | refine Keeps.upd ?_ rfl (Nat.le_refl _) (Nat.le_refl _)

theorem Keeps.soloClaim {b₀ s : State} (hG : Keeps b₀ s) : Keeps b₀ (State.soloClaim s) := by
  unfold State.soloClaim
  with_reducible repeat' first | assumption | apply Keeps.claimTo | apply Keeps.setActive | apply Keeps.raise | split

theorem Keeps.takeGrid {b₀ s : State} (period : Nat) (c : Nat) (epoch : Int) (hG : Keeps b₀ s) : Keeps b₀
    (State.takeGrid s (period) (c) (epoch)) := by
  unfold State.takeGrid
  repeat' first | with_reducible assumption | with_reducible apply Keeps.wr | split
                | refine Keeps.upd ?_ rfl (Nat.le_refl _) (Nat.le_refl _)

theorem Keeps.mismatch {b₀ s : State} (cause : Nat) (source : Nat) (was : Bool) (now : Bool) (hG : Keeps b₀ s) :
    Keeps b₀ (State.mismatch s (cause) (source) (was) (now)) := by
  unfold State.mismatch
  with_reducible repeat' first | assumption | apply Keeps.event | apply Keeps.level | split

theorem Keeps.checkPart {b₀ s : State} (b : Bytes) (hG : Keeps b₀ s) : Keeps b₀ (State.checkPart s (b)) := by
  unfold State.checkPart
  repeat' first | with_reducible assumption | with_reducible apply Keeps.mismatch
                | refine Keeps.upd ?_ rfl (Nat.le_refl _) (Nat.le_refl _)

theorem Keeps.checkSeat {b₀ s : State} (b : Bytes) (hG : Keeps b₀ s) : Keeps b₀ (State.checkSeat s (b)) := by
  unfold State.checkSeat
  dsimp only
  repeat' first | with_reducible assumption | with_reducible apply Keeps.mismatch
                | with_reducible apply Keeps.releaseClaim | split
                | refine Keeps.upd ?_ rfl (Nat.le_refl _) (Nat.le_refl _)

theorem Keeps.checkSettings {b₀ s : State} (b : Bytes) (hG : Keeps b₀ s) : Keeps b₀ (State.checkSettings s (b)) := by
  unfold State.checkSettings
  repeat' first | with_reducible assumption | with_reducible apply Keeps.mismatch
                | refine Keeps.upd ?_ rfl (Nat.le_refl _) (Nat.le_refl _)

theorem Keeps.checkIdentity {b₀ s : State} (b : Bytes) (hG : Keeps b₀ s) : Keeps b₀ (State.checkIdentity s (b)) := by
  unfold State.checkIdentity
  with_reducible repeat' first | assumption | apply Keeps.checkPart | apply Keeps.checkSeat
                               | apply Keeps.checkSettings

theorem Keeps.partnerClaim {b₀ s : State} (c : Nat) (hG : Keeps b₀ s) : Keeps b₀ (State.partnerClaim s (c)) := by
  unfold State.partnerClaim
  dsimp only
  repeat' first | with_reducible assumption | with_reducible apply Keeps.wr | with_reducible apply Keeps.setActive
                | split | refine Keeps.upd ?_ rfl (Nat.le_refl _) (Nat.le_refl _)

theorem Keeps.followHolder {b₀ s : State} (b : Bytes) (hG : Keeps b₀ s) : Keeps b₀ (State.followHolder s (b)) := by
  unfold State.followHolder
  dsimp only
  repeat' first | with_reducible assumption | with_reducible apply Keeps.takeGrid
                | with_reducible apply Keeps.judgeSelection | with_reducible apply Keeps.each
                | with_reducible apply Keeps.modDrive | refine fun s x h => ?_ | refine fun s h => ?_ | split
                | refine Keeps.upd ?_ rfl (Nat.le_refl _) (Nat.le_refl _)

theorem Keeps.forgetFar {b₀ s : State} (b : Bytes) (hG : Keeps b₀ s) : Keeps b₀ (State.forgetFar s (b)) := by
  unfold State.forgetFar
  with_reducible repeat' first | assumption | apply Keeps.each | apply Keeps.modLane | refine fun s x h => ?_
                               | refine fun s h => ?_ | split

theorem Keeps.heartbeatIn {b₀ s : State} (b : Bytes) (hG : Keeps b₀ s) : Keeps b₀ (State.heartbeatIn s (b)) := by
  unfold State.heartbeatIn
  repeat' first | with_reducible assumption | with_reducible apply Keeps.forgetFar | with_reducible apply Keeps.wr
                | with_reducible apply Keeps.wrB | with_reducible apply Keeps.judgeLink
                | with_reducible apply Keeps.checkIdentity | with_reducible apply Keeps.partnerClaim
                | with_reducible apply Keeps.when | with_reducible apply Keeps.noteSent
                | with_reducible apply Keeps.followHolder | with_reducible apply Keeps.swapAbort
                | with_reducible apply Keeps.judgeTake | refine fun s x h => ?_ | refine fun s h => ?_ | split
                | refine Keeps.upd ?_ rfl (Nat.le_refl _) (Nat.le_refl _)

theorem Keeps.beat {b₀ s : State} (hG : Keeps b₀ s) : Keeps b₀ (State.beat s) := by
  unfold State.beat
  dsimp only
  repeat' first | with_reducible assumption | with_reducible apply Keeps.sendAll
                | with_reducible apply Keeps.noteCopy | with_reducible apply Keeps.judgeTake
                | with_reducible apply Keeps.judgeLink | split
                | refine Keeps.upd ?_ rfl (Nat.le_refl _) (Nat.le_refl _)

theorem Keeps.sendCopy {b₀ s : State} (hG : Keeps b₀ s) : Keeps b₀ (State.sendCopy s) := by
  unfold State.sendCopy
  with_reducible repeat' first | assumption | apply Keeps.wr | apply Keeps.each | apply Keeps.sendOne
                               | refine fun s x h => ?_ | refine fun s h => ?_ | split

theorem Keeps.copyIn {b₀ s : State} (b : Bytes) (hG : Keeps b₀ s) : Keeps b₀ (State.copyIn s (b)) := by
  unfold State.copyIn
  repeat' first | with_reducible assumption | split | refine Keeps.upd ?_ rfl (Nat.le_refl _) (Nat.le_refl _)

theorem Keeps.adoptLoop {b₀ s : State} (bank : Nat) (d : Nat) (b : Bytes) (o : Nat) (hG : Keeps b₀ s) : Keeps b₀
    (State.adoptLoop s (bank) (d) (b) (o)) := by
  unfold State.adoptLoop
  with_reducible repeat' first | assumption | apply Keeps.setLoop | apply Keeps.setReg | apply Keeps.wr

theorem Keeps.sendHealth {b₀ s : State} (c : Nat) (loops : Nat) (bad : Nat) (first : Nat) (dev : F32) (whole :
    Bool) (late : Bool) (hG : Keeps b₀ s) : Keeps b₀ (State.sendHealth s (c) (loops) (bad) (first) (dev) (whole)
    (late)) := by
  unfold State.sendHealth
  with_reducible repeat' first | assumption | apply Keeps.sendOne

theorem Keeps.judgeCompare {b₀ s : State} (bad : List Nat) (all : List Nat) (dev : F32) (hG : Keeps b₀ s) : Keeps
    b₀ (State.judgeCompare s (bad) (all) (dev)) := by
  unfold State.judgeCompare
  repeat' first | with_reducible assumption | with_reducible apply Keeps.wr | with_reducible apply Keeps.setHealth
                | with_reducible apply Keeps.level | with_reducible apply Keeps.id_
                | refine Keeps.upd ?_ rfl (Nat.le_refl _) (Nat.le_refl _)

theorem Keeps.adoptCopy {b₀ s : State} (b : Bytes) (hG : Keeps b₀ s) : Keeps b₀ (State.adoptCopy s (b)) := by
  unfold State.adoptCopy
  with_reducible repeat' first | assumption | apply Keeps.each | apply Keeps.adoptLoop | refine fun s x h => ?_
                               | refine fun s h => ?_

theorem Keeps.takeCopy {b₀ s : State} (c : Nat) (b : Bytes) (late : Bool) (hG : Keeps b₀ s) : Keeps b₀
    (State.takeCopy s (c) (b) (late)) := by
  unfold State.takeCopy
  repeat' first | with_reducible assumption | with_reducible apply Keeps.noteCopy | with_reducible apply Keeps.wr
                | with_reducible apply Keeps.when | with_reducible apply Keeps.judgeCompare
                | with_reducible apply Keeps.adoptCopy | with_reducible apply Keeps.sendHealth
                | with_reducible apply Keeps.judgeTake | refine fun s x h => ?_ | refine fun s h => ?_ | split
                | refine Keeps.upd ?_ rfl (Nat.le_refl _) (Nat.le_refl _)

theorem Keeps.missCopy {b₀ s : State} (c : Nat) (late : Bool) (hG : Keeps b₀ s) : Keeps b₀ (State.missCopy s (c)
    (late)) := by
  unfold State.missCopy
  with_reducible repeat' first | assumption | apply Keeps.noteCopy | apply Keeps.inc | apply Keeps.setHealth
                               | apply Keeps.sendHealth | apply Keeps.judgeTake

theorem Keeps.judgeCopy {b₀ s : State} (hG : Keeps b₀ s) : Keeps b₀ (State.judgeCopy s) := by
  unfold State.judgeCopy
  dsimp only
  repeat' first | with_reducible assumption | with_reducible apply Keeps.copyIn | with_reducible apply Keeps.takeCopy
                | with_reducible apply Keeps.missCopy | split
                | refine Keeps.upd ?_ rfl (Nat.le_refl _) (Nat.le_refl _)

theorem Keeps.resumeEngine {b₀ s : State} (hG : Keeps b₀ s) : Keeps b₀ (State.resumeEngine s) := by
  unfold State.resumeEngine
  repeat' first | with_reducible assumption | with_reducible apply Keeps.adoptCopy
                | with_reducible apply Keeps.restLoops | split
                | refine Keeps.upd ?_ rfl (Nat.le_refl _) (Nat.le_refl _)

theorem Keeps.healthIn {b₀ s : State} (b : Bytes) (hG : Keeps b₀ s) : Keeps b₀ (State.healthIn s (b)) := by
  unfold State.healthIn
  with_reducible repeat' first | assumption | apply Keeps.setHealth | split

theorem Keeps.mirrorIn {b₀ s : State} (b : Bytes) (hG : Keeps b₀ s) : Keeps b₀ (State.mirrorIn s (b)) := by
  unfold State.mirrorIn
  repeat' first | with_reducible assumption | split | refine Keeps.upd ?_ rfl (Nat.le_refl _) (Nat.le_refl _)

theorem Keeps.carryOut {b₀ s : State} (m : Mirror) (hG : Keeps b₀ s) : Keeps b₀ (State.carryOut s (m)) := by
  unfold State.carryOut
  dsimp only
  repeat' first | with_reducible assumption | with_reducible apply Keeps.stageSetpoint
                | with_reducible apply Keeps.acceptCommit | split
                | refine Keeps.upd ?_ rfl (Nat.le_refl _) (Nat.le_refl _)

theorem Keeps.runMirrors {b₀ s : State} (hG : Keeps b₀ s) : Keeps b₀ (State.runMirrors s) := by
  unfold State.runMirrors
  repeat' first | with_reducible assumption | with_reducible apply Keeps.each | with_reducible apply Keeps.inc
                | with_reducible apply Keeps.carryOut | refine fun s x h => ?_ | refine fun s h => ?_ | split
                | refine Keeps.upd ?_ rfl (Nat.le_refl _) (Nat.le_refl _)

theorem Keeps.swapStart {b₀ s : State} (t : Nat) (watchdog : Bool) (hG : Keeps b₀ s) : Keeps b₀ (State.swapStart s
    (t) (watchdog)) := by
  unfold State.swapStart
  repeat' first | with_reducible assumption | with_reducible apply Keeps.wrB | with_reducible apply Keeps.sendNotice
                | refine Keeps.upd ?_ rfl (Nat.le_refl _) (Nat.le_refl _)

theorem Keeps.ownSwap {b₀ s : State} (c : Cmd) (hG : Keeps b₀ s) : Keeps b₀ (Machine.ownSwap c s).1 := by
  unfold Machine.ownSwap
  dsimp only
  with_reducible repeat' first | assumption | apply Keeps.swapStart | refine fun s x h => ?_ | refine fun s h => ?_
                               | split

theorem Keeps.noticeIn {b₀ s : State} (b : Bytes) (hG : Keeps b₀ s) : Keeps b₀ (State.noticeIn s (b)) := by
  unfold State.noticeIn
  dsimp only
  repeat' first | with_reducible assumption | with_reducible apply Keeps.when | with_reducible apply Keeps.noteSent
                | with_reducible apply Keeps.partnerClaim | with_reducible apply Keeps.wrB
                | with_reducible apply Keeps.sendNotice | refine fun s x h => ?_ | refine fun s h => ?_ | split
                | refine Keeps.upd ?_ rfl (Nat.le_refl _) (Nat.le_refl _)

theorem Keeps.swapRun {b₀ s : State} (hG : Keeps b₀ s) : Keeps b₀ (State.swapRun s) := by
  unfold State.swapRun
  repeat' first | with_reducible assumption | with_reducible apply Keeps.releaseClaim
                | with_reducible apply Keeps.swapEnd | split
                | refine Keeps.upd ?_ rfl (Nat.le_refl _) (Nat.le_refl _)

theorem Keeps.swapDone {b₀ s : State} (hG : Keeps b₀ s) : Keeps b₀ (State.swapDone s) := by
  unfold State.swapDone
  dsimp only
  with_reducible repeat' first | assumption | apply Keeps.inc | apply Keeps.swapEnd | apply Keeps.raise | split

end Sys2Proof.Machine
end

