-- ==== Sys2Proof/Laws/KeepSec.lean ====
section
/-! SUPPORT. What each operation of Machine/Sec.lean keeps (Laws/Keeps.lean). -/

set_option Elab.async false

namespace Sys2Proof.Machine

open Sys2Proof

theorem Keeps.showFuses {b₀ s : State} (hG : Keeps b₀ s) : Keeps b₀ (State.showFuses s) := by
  unfold State.showFuses
  with_reducible repeat' first | assumption | apply Keeps.wr | apply Keeps.wrB

theorem Keeps.showLevel {b₀ s : State} (i : Nat) (cause : Nat) (always : Bool) (hG : Keeps b₀ s) : Keeps b₀
    (State.showLevel s (i) (cause) (always)) := by
  unfold State.showLevel
  dsimp only
  with_reducible repeat' first | assumption | apply Keeps.wr | apply Keeps.event | split

theorem Keeps.showLevels {b₀ s : State} (hG : Keeps b₀ s) : Keeps b₀ (State.showLevels s) := by
  unfold State.showLevels
  with_reducible repeat' first | assumption | apply Keeps.showLevel

theorem Keeps.resetLevels {b₀ s : State} (hG : Keeps b₀ s) : Keeps b₀ (State.resetLevels s) := by
  unfold State.resetLevels
  repeat' first | with_reducible assumption | with_reducible apply Keeps.wr | with_reducible apply Keeps.each
                | refine fun s x h => ?_ | refine fun s h => ?_ | split
                | refine Keeps.upd ?_ rfl (Nat.le_refl _) (Nat.le_refl _)

theorem Keeps.debugRefused {b₀ s : State} (i : Nat) (hG : Keeps b₀ s) : Keeps b₀ (State.debugRefused s (i)) := by
  unfold State.debugRefused
  with_reducible repeat' first | assumption | apply Keeps.inc | apply Keeps.raise

theorem Keeps.issueChallenge {b₀ s : State} (i : Nat) (level : Nat) (hG : Keeps b₀ s) : Keeps b₀
    (State.issueChallenge s (i) (level)).2 := by
  unfold State.issueChallenge
  repeat' first | with_reducible assumption | with_reducible apply Keeps.fresh | with_reducible apply Keeps.level
                | refine Keeps.upd ?_ rfl (Nat.le_refl _) (Nat.le_refl _)

theorem Keeps.failResponse {b₀ s : State} (i : Nat) (hG : Keeps b₀ s) : Keeps b₀ (State.failResponse s (i)) := by
  unfold State.failResponse
  repeat' first | with_reducible assumption | with_reducible apply Keeps.wrB | with_reducible apply Keeps.raise
                | refine Keeps.upd ?_ rfl (Nat.le_refl _) (Nat.le_refl _)

theorem Keeps.grant {b₀ s : State} (i : Nat) (level : Nat) (hG : Keeps b₀ s) : Keeps b₀ (State.grant s (i) (level))
    := by
  unfold State.grant
  repeat' first | with_reducible assumption | with_reducible apply Keeps.wr | with_reducible apply Keeps.level
                | with_reducible apply Keeps.showLevel | with_reducible apply Keeps.raise
                | refine Keeps.upd ?_ rfl (Nat.le_refl _) (Nat.le_refl _)

theorem Keeps.answer {b₀ s : State} (i : Nat) (resp : Bytes) (hG : Keeps b₀ s) : Keeps b₀ (State.answer s (i)
    (resp)).1 := by
  unfold State.answer
  dsimp only
  repeat' first | with_reducible assumption | with_reducible apply Keeps.failResponse
                | with_reducible apply Keeps.fresh | with_reducible apply Keeps.level
                | with_reducible apply Keeps.grant | refine fun s x h => ?_ | refine fun s h => ?_ | split
                | refine Keeps.upd ?_ rfl (Nat.le_refl _) (Nat.le_refl _)

theorem Keeps.relock {b₀ s : State} (i : Nat) (hG : Keeps b₀ s) : Keeps b₀ (State.relock s (i)) := by
  unfold State.relock
  with_reducible repeat' first | assumption | apply Keeps.wr | apply Keeps.showLevel

theorem Keeps.ownUnlock {b₀ s : State} (resp : Bytes) (c : Cmd) (hG : Keeps b₀ s) : Keeps b₀ (Machine.ownUnlock
    (resp) c s).1 := by
  unfold Machine.ownUnlock
  repeat' (first | (with_reducible assumption) | (with_reducible apply Keeps.level)
                 | (with_reducible apply Keeps.issueChallenge) | (with_reducible apply Keeps.emit)
                 | (with_reducible apply Keeps.answer) | (with_reducible apply Keeps.relock)
                 | (refine fun s x h => ?_) | (refine fun s h => ?_)
                 | ((try lift_lets); intro x; refine Keeps.cutl (s := x) ?_ ?_; rotate_left; (intro hx; clear_value x); rotate_left; unfold x)
                 | ((try lift_lets); intro x) | split
                 | (with_reducible refine Keeps.upd ?_ ?_ ?_ ?_; rotate_left; exact rfl; (first | exact Nat.le_refl _ | exact Nat.le_max_left _ _ | exact Nat.le_add_right _ _); (first | exact Nat.le_refl _ | exact Nat.le_succ _); first | (with_reducible assumption) | (with_reducible apply Keeps.level) | (with_reducible apply Keeps.issueChallenge) | (with_reducible apply Keeps.emit) | (with_reducible apply Keeps.answer) | (with_reducible apply Keeps.relock) | (with_reducible refine Keeps.of2 ‹_ = (_, _)› ?_) | (with_reducible refine Keeps.of22 ‹_ = (_, _, _)› ?_) | (with_reducible refine Keeps.of1 ‹_ = (_, _)› ?_))
                 | (with_reducible refine Keeps.of2 ‹_ = (_, _)› ?_)
                 | (with_reducible refine Keeps.of22 ‹_ = (_, _, _)› ?_)
                 | (with_reducible refine Keeps.of1 ‹_ = (_, _)› ?_) | (dsimp -zeta only) | (dsimp +zetaDelta only))

theorem Keeps.jtagUnlock {b₀ s : State} (ops : Bytes) (resp : Bytes) (hG : Keeps b₀ s) : Keeps b₀ (State.jtagUnlock
    s (ops) (resp)) := by
  unfold State.jtagUnlock
  dsimp only
  repeat' first | with_reducible assumption | with_reducible apply Keeps.issueChallenge
                | with_reducible apply Keeps.answer | with_reducible apply Keeps.relock | split
                | refine Keeps.upd ?_ rfl (Nat.le_refl _) (Nat.le_refl _)

theorem Keeps.haltAt {b₀ s : State} (i : Nat) (d : Nat) (hG : Keeps b₀ s) : Keeps b₀ (State.haltAt s (i) (d)) := by
  unfold State.haltAt
  repeat' first | with_reducible assumption | with_reducible apply Keeps.wrB
                | refine Keeps.upd ?_ rfl (Nat.le_refl _) (Nat.le_refl _)

theorem Keeps.leHalt {b₀ s : State} (i : Nat) (hG : Keeps b₀ s) : Keeps b₀ (State.leHalt s (i)) := by
  unfold State.leHalt
  with_reducible repeat' first | assumption | apply Keeps.debugRefused | apply Keeps.haltAt | split

theorem Keeps.leResume {b₀ s : State} (hG : Keeps b₀ s) : Keeps b₀ (State.leResume s) := by
  unfold State.leResume
  dsimp only
  repeat' first | with_reducible assumption | with_reducible apply Keeps.wrB | split
                | refine Keeps.upd ?_ rfl (Nat.le_refl _) (Nat.le_refl _)

theorem Keeps.judgeHalt {b₀ s : State} (hG : Keeps b₀ s) : Keeps b₀ (State.judgeHalt s) := by
  unfold State.judgeHalt
  with_reducible repeat' first | assumption | apply Keeps.leResume | split

theorem Keeps.setBreak {b₀ s : State} (i : Nat) (b : Option Nat) (hG : Keeps b₀ s) : Keeps b₀ (State.setBreak s (i)
    (b)) := by
  unfold State.setBreak
  repeat' first | with_reducible assumption | with_reducible apply Keeps.debugRefused | split
                | refine Keeps.upd ?_ rfl (Nat.le_refl _) (Nat.le_refl _)

theorem Keeps.leStep {b₀ s : State} (i : Nat) (mismatch : Bool) (hG : Keeps b₀ s) : Keeps b₀ (State.leStep s (i)
    (mismatch)) := by
  unfold State.leStep
  repeat' first | with_reducible assumption | with_reducible apply Keeps.debugRefused
                | with_reducible apply Keeps.mismatch | with_reducible apply Keeps.lockstepMismatch
                | with_reducible apply Keeps.runLoop | split
                | refine Keeps.upd ?_ rfl (Nat.le_refl _) (Nat.le_refl _)

theorem Keeps.boundaryScan {b₀ s : State} (hG : Keeps b₀ s) : Keeps b₀ (State.boundaryScan s) := by
  unfold State.boundaryScan
  repeat' first | with_reducible assumption | with_reducible apply Keeps.debugRefused | split
                | refine Keeps.upd ?_ rfl (Nat.le_refl _) (Nat.le_refl _)

theorem Keeps.testReset {b₀ s : State} (hG : Keeps b₀ s) : Keeps b₀ (State.testReset s) := by
  unfold State.testReset
  repeat' first | with_reducible assumption | refine Keeps.upd ?_ rfl (Nat.le_refl _) (Nat.le_refl _)

theorem Keeps.signature {b₀ s : State} (b : Bytes) (hG : Keeps b₀ s) : Keeps b₀ (State.signature s b).2 := by
  unfold State.signature
  with_reducible repeat' first | assumption | apply Keeps.fresh

theorem Keeps.ownRecord {b₀ s : State} (c : Cmd) (hG : Keeps b₀ s) : Keeps b₀ (Machine.ownRecord c s).1 := by
  unfold Machine.ownRecord
  repeat' first | with_reducible assumption | refine fun s x h => ?_ | refine fun s h => ?_ | split
                | refine Keeps.upd ?_ rfl (Nat.le_refl _) (Nat.le_refl _)

theorem Keeps.energyAtMark {b₀ s : State} (hG : Keeps b₀ s) : Keeps b₀ (State.energyAtMark s) := by
  unfold State.energyAtMark
  repeat' first | with_reducible assumption | split | refine Keeps.upd ?_ rfl (Nat.le_refl _) (Nat.le_refl _)

theorem Keeps.recordReady {b₀ s : State} (ok : Bool) (hG : Keeps b₀ s) : Keeps b₀ (State.recordReady s (ok)) := by
  unfold State.recordReady
  repeat' first | with_reducible assumption | with_reducible apply Keeps.signature | with_reducible apply Keeps.emit
                | with_reducible apply Keeps.raiseWith | with_reducible apply Keeps.event | split
                | refine Keeps.upd ?_ rfl (Nat.le_refl _) (Nat.le_refl _)

theorem Keeps.ownAttest {b₀ s : State} (c : Cmd) (hG : Keeps b₀ s) : Keeps b₀ (Machine.ownAttest c s).1 := by
  unfold Machine.ownAttest
  repeat' first | with_reducible assumption | refine fun s x h => ?_ | refine fun s h => ?_ | split
                | refine Keeps.upd ?_ rfl (Nat.le_refl _) (Nat.le_refl _)

theorem Keeps.attestAtMark {b₀ s : State} (hG : Keeps b₀ s) : Keeps b₀ (State.attestAtMark s) := by
  unfold State.attestAtMark
  repeat' first | with_reducible assumption | split | refine Keeps.upd ?_ rfl (Nat.le_refl _) (Nat.le_refl _)

theorem Keeps.attestReady {b₀ s : State} (ok : Bool) (hG : Keeps b₀ s) : Keeps b₀ (State.attestReady s (ok)) := by
  unfold State.attestReady
  repeat' first | with_reducible assumption | with_reducible apply Keeps.signature | with_reducible apply Keeps.emit
                | with_reducible apply Keeps.raiseWith | with_reducible apply Keeps.event
                | with_reducible apply Keeps.attestAtMark | split
                | refine Keeps.upd ?_ rfl (Nat.le_refl _) (Nat.le_refl _)

theorem Keeps.badRow {b₀ s : State} (now : Nat) (hG : Keeps b₀ s) : Keeps b₀ (State.badRow s (now)).2 := by
  unfold State.badRow
  with_reducible repeat' first | assumption | apply Keeps.fresh

theorem Keeps.setRow {b₀ s : State} (r : Nat) (v : Nat) (hG : Keeps b₀ s) : Keeps b₀ (State.setRow s (r) (v)) := by
  unfold State.setRow
  repeat' first | with_reducible assumption | refine fun s x h => ?_ | refine fun s h => ?_ | split
                | refine Keeps.upd ?_ rfl (Nat.le_refl _) (Nat.le_refl _)

theorem Keeps.program {b₀ s : State} (r : Nat) (fails : Bool) (hG : Keeps b₀ s) : Keeps b₀ (State.program s (r)
    (fails)) := by
  unfold State.program
  with_reducible repeat' first | assumption | apply Keeps.badRow | apply Keeps.setRow | split

theorem Keeps.fixRows {b₀ s : State} (bad : List Nat) (hG : Keeps b₀ s) : Keeps b₀ (State.fixRows s (bad)) := by
  unfold State.fixRows
  dsimp only
  with_reducible repeat' first | assumption | apply Keeps.each | apply Keeps.program | apply Keeps.raise
                               | refine fun s x h => ?_ | refine fun s h => ?_ | split

theorem Keeps.programKey {b₀ s : State} (k : Nat) (h : Bytes) (hG : Keeps b₀ s) : Keeps b₀ (State.programKey s (k)
    (h)) := by
  unfold State.programKey
  repeat' first | with_reducible assumption | refine Keeps.upd ?_ rfl (Nat.le_refl _) (Nat.le_refl _)

theorem Keeps.programSlot {b₀ s : State} (bad : List Nat) (k : Nat) (h : Bytes) (hG : Keeps b₀ s) : Keeps b₀
    (State.programSlot s (bad) (k) (h)) := by
  unfold State.programSlot
  with_reducible repeat' first | assumption | apply Keeps.fresh | apply Keeps.when | apply Keeps.programKey
                               | apply Keeps.raise | refine fun s x h => ?_ | refine fun s h => ?_ | split

theorem Keeps.programSlots {b₀ s : State} (bad : List Nat) (p : Bytes) (hG : Keeps b₀ s) : Keeps b₀
    (State.programSlots s (bad) (p)) := by
  unfold State.programSlots
  with_reducible repeat' first | assumption | apply Keeps.each | apply Keeps.programSlot | refine fun s x h => ?_
                               | refine fun s h => ?_

theorem Keeps.revokeSlots {b₀ s : State} (bad : List Nat) (mask : Nat) (slot : Nat) (hG : Keeps b₀ s) : Keeps b₀
    (State.revokeSlots s (bad) (mask) (slot)) := by
  unfold State.revokeSlots
  dsimp only
  with_reducible repeat' first | assumption | apply Keeps.each | apply Keeps.raise | apply Keeps.program
                               | refine fun s x h => ?_ | refine fun s h => ?_ | split

theorem Keeps.advanceCounter {b₀ s : State} (bad : List Nat) (upTo : Nat) (hG : Keeps b₀ s) : Keeps b₀
    (State.advanceCounter s (bad) (upTo)) := by
  unfold State.advanceCounter
  repeat' first | with_reducible assumption | with_reducible apply Keeps.fresh | with_reducible apply Keeps.raise
                | split | refine Keeps.upd ?_ rfl (Nat.le_refl _) (Nat.le_refl _)

theorem Keeps.lifecycleEvent {b₀ s : State} (old : Nat) (new : Nat) (result : Nat) (hG : Keeps b₀ s) : Keeps b₀
    (State.lifecycleEvent s (old) (new) (result)) := by
  unfold State.lifecycleEvent
  with_reducible repeat' first | assumption | apply Keeps.event

theorem Keeps.imageAction {b₀ s : State} (bad : List Nat) (action : Nat) (uid : Nat) (slot : Nat) (hG : Keeps b₀ s)
    : Keeps b₀ (State.imageAction s (bad) (action) (uid) (slot)) := by
  unfold State.imageAction
  dsimp only
  repeat' first | with_reducible assumption | with_reducible apply Keeps.raise
                | with_reducible apply Keeps.lifecycleEvent | with_reducible apply Keeps.program | split
                | refine Keeps.upd ?_ rfl (Nat.le_refl _) (Nat.le_refl _)

theorem Keeps.fuseActions {b₀ s : State} (bad : List Nat) (b : Bytes) (secs : List Section) (slot : Nat) (hG :
    Keeps b₀ s) : Keeps b₀ (State.fuseActions s (bad) (b) (secs) (slot)) := by
  unfold State.fuseActions
  dsimp only
  with_reducible repeat' first | assumption | apply Keeps.each | apply Keeps.programSlots | apply Keeps.revokeSlots
                               | apply Keeps.advanceCounter | apply Keeps.imageAction | apply Keeps.event
                               | refine fun s x h => ?_ | refine fun s h => ?_ | split

theorem Keeps.ignoreEntry {b₀ s : State} (i : Nat) (hG : Keeps b₀ s) : Keeps b₀ (State.ignoreEntry s (i)) := by
  unfold State.ignoreEntry
  with_reducible repeat' first | assumption | apply Keeps.inc | apply Keeps.raise

theorem Keeps.cellPolicy {b₀ s : State} (i : Nat) (b : Bytes) (hG : Keeps b₀ s) : Keeps b₀ (State.cellPolicy s (i)
    (b)) := by
  unfold State.cellPolicy
  dsimp only
  repeat' first | with_reducible assumption | with_reducible apply Keeps.ignoreEntry | split
                | refine Keeps.upd ?_ rfl (Nat.le_refl _) (Nat.le_refl _)

theorem Keeps.lockTaps {b₀ s : State} (b : Bytes) (hG : Keeps b₀ s) : Keeps b₀ (State.lockTaps s (b)) := by
  unfold State.lockTaps
  dsimp only
  repeat' first | with_reducible assumption | with_reducible apply Keeps.each | with_reducible apply Keeps.modLane
                | with_reducible apply Keeps.raise | refine fun s x h => ?_ | refine fun s h => ?_ | split
                | refine Keeps.upd ?_ rfl (Nat.le_refl _) (Nat.le_refl _)

theorem Keeps.applySection {b₀ s : State} (i : Nat) (x : Section) (hG : Keeps b₀ s) : Keeps b₀ (State.applySection
    s (i) (x)) := by
  unfold State.applySection
  with_reducible repeat' first | assumption | apply Keeps.each | apply Keeps.writeFields | apply Keeps.ignoreEntry
                               | apply Keeps.cellPolicy | apply Keeps.lockTaps | refine fun s x h => ?_
                               | refine fun s h => ?_ | split

theorem Keeps.applyImage {b₀ s : State} (secs : List Section) (hG : Keeps b₀ s) : Keeps b₀ (State.applyImage s
    (secs)) := by
  unfold State.applyImage
  with_reducible repeat' first | assumption | apply Keeps.each | apply Keeps.applySection | refine fun s x h => ?_
                               | refine fun s h => ?_

theorem Keeps.reload {b₀ s : State} (lo : Nat) (hi : Nat) (hG : Keeps b₀ s) : Keeps b₀ (State.reload s (lo) (hi))
    := by
  unfold State.reload
  with_reducible repeat' first | assumption | apply Keeps.each | apply Keeps.writeFields | refine fun s x h => ?_
                               | refine fun s h => ?_ | split

theorem Keeps.showDigest {b₀ s : State} (b : Bytes) (hG : Keeps b₀ s) : Keeps b₀ (State.showDigest s (b)) := by
  unfold State.showDigest
  with_reducible repeat' first | assumption | apply Keeps.each | apply Keeps.wr | refine fun s x h => ?_
                               | refine fun s h => ?_

end Sys2Proof.Machine
end

