-- ==== Sys2Proof/Laws/KeepPosted.lean ====
section
/-! SUPPORT. What each operation of Machine/Posted.lean keeps (Laws/Keeps.lean). -/

set_option Elab.async false

namespace Sys2Proof.Machine

open Sys2Proof

theorem Keeps.ownUnknown {b₀ s : State} (c : Cmd) (hG : Keeps b₀ s) : Keeps b₀ (Machine.ownUnknown (c) s).1 := by
  unfold Machine.ownUnknown
  with_reducible repeat' first | assumption | refine fun s x h => ?_ | refine fun s h => ?_ | split

theorem Keeps.post {b₀ s : State} (r : Nat) (row : Nat) (d : Desc) (frame : Bytes) (outcome : State → Option (Nat ×
    Nat)) (hG : Keeps b₀ s) : Keeps b₀ (State.post s (r) (row) (d) (frame) (outcome)) := by
  unfold State.post
  repeat' first | with_reducible assumption | with_reducible apply Keeps.submit
                | with_reducible apply Keeps.ownUnknown | with_reducible apply Keeps.takeUp
                | with_reducible apply Keeps.enqueue | refine fun s x h => ?_ | refine fun s h => ?_ | split
                | refine Keeps.upd ?_ rfl (Nat.le_refl _) (Nat.le_refl _)

theorem Keeps.postTelemetry {b₀ s : State} (r : Nat) (d : Desc) (hG : Keeps b₀ s) : Keeps b₀ (State.postTelemetry s
    (r) (d)) := by
  unfold State.postTelemetry
  with_reducible repeat' first | assumption | apply Keeps.post

theorem Keeps.postReceive {b₀ s : State} (r : Nat) (d : Desc) (hG : Keeps b₀ s) : Keeps b₀ (State.postReceive s (r)
    (d)) := by
  unfold State.postReceive
  with_reducible repeat' first | assumption | apply Keeps.post

end Sys2Proof.Machine
end

