-- ==== Sys2Proof/Laws/KeepNet.lean ====
section
/-! SUPPORT. What each operation of Machine/Net.lean keeps (Laws/Keeps.lean). -/

set_option Elab.async false

namespace Sys2Proof.Machine

open Sys2Proof

theorem Keeps.portUp {b₀ s : State} (p : Nat) (hG : Keeps b₀ s) : Keeps b₀ (State.portUp s (p)) := by
  unfold State.portUp
  with_reducible repeat' first | assumption | apply Keeps.wr | apply Keeps.wrB | apply Keeps.setActive
                               | apply Keeps.event | refine fun s x h => ?_ | refine fun s h => ?_ | split

theorem Keeps.deafen {b₀ s : State} (p : Nat) (hG : Keeps b₀ s) : Keeps b₀ (State.deafen s (p)) := by
  unfold State.deafen
  with_reducible repeat' first | assumption | apply Keeps.each | apply Keeps.modTracker | refine fun s x h => ?_
                               | refine fun s h => ?_ | split

theorem Keeps.portDown {b₀ s : State} (p : Nat) (cause : Nat) (hG : Keeps b₀ s) : Keeps b₀ (State.portDown s (p)
    (cause)) := by
  unfold State.portDown
  dsimp only
  with_reducible repeat' first | assumption | apply Keeps.wrB | apply Keeps.deafen | apply Keeps.event
                               | apply Keeps.setActive | apply Keeps.raise | refine fun s x h => ?_
                               | refine fun s h => ?_ | split

theorem Keeps.portsDown {b₀ s : State} (cause : Nat) (hG : Keeps b₀ s) : Keeps b₀ (State.portsDown s (cause)) := by
  unfold State.portsDown
  with_reducible repeat' first | assumption | apply Keeps.each | apply Keeps.portDown | refine fun s x h => ?_
                               | refine fun s h => ?_

theorem Keeps.prpSee {b₀ s : State} (mac : Nat) (seq : Nat) (hG : Keeps b₀ s) : Keeps b₀ (State.prpSee s (mac)
    (seq)).2.2 := by
  unfold State.prpSee
  dsimp only
  repeat' first | with_reducible assumption | refine fun s x h => ?_ | refine fun s h => ?_ | split
                | refine Keeps.upd ?_ rfl (Nat.le_refl _) (Nat.le_refl _)

theorem Keeps.deliver {b₀ s : State} (p : Nat) (b : Bytes) (x : Int) (hG : Keeps b₀ s) : Keeps b₀ (State.deliver s
    (p) (b) (x)) := by
  unfold State.deliver
  with_reducible repeat' first | assumption | apply Keeps.inc | apply Keeps.emit | apply Keeps.frameIn
                               | apply Keeps.completePosted | split

theorem Keeps.takeFrame {b₀ s : State} (p : Nat) (body : Bytes) (x : Int) (hG : Keeps b₀ s) : Keeps b₀
    (State.takeFrame s (p) (body) (x)) := by
  unfold State.takeFrame
  dsimp only
  with_reducible repeat' first | assumption | apply Keeps.deliver | split

theorem Keeps.takeTrailer {b₀ s : State} (p : Nat) (seq : Nat) (lan : Nat) (mac : Nat) (hG : Keeps b₀ s) : Keeps b₀
    (State.takeTrailer s (p) (seq) (lan) (mac)).2 := by
  unfold State.takeTrailer
  with_reducible repeat' first | assumption | apply Keeps.when | apply Keeps.inc | apply Keeps.prpSee
                               | refine fun s x h => ?_ | refine fun s h => ?_

theorem Keeps.frameIn {b₀ s : State} (p : Nat) (b : Bytes) (fcs : Bool) (x : Int) (hG : Keeps b₀ s) : Keeps b₀
    (State.frameIn s (p) (b) (fcs) (x)) := by
  unfold State.frameIn
  dsimp only
  with_reducible repeat' first | assumption | apply Keeps.inc | apply Keeps.takeFrame | apply Keeps.takeTrailer
                               | split

theorem Keeps.postTransmit {b₀ s : State} (r : Nat) (d : Desc) (frame : Bytes) (hG : Keeps b₀ s) : Keeps b₀
    (State.postTransmit s (r) (d) (frame)) := by
  unfold State.postTransmit
  with_reducible repeat' first | assumption | apply Keeps.post

theorem Keeps.launch {b₀ s : State} (q : Nat) (x : Nat → Int) (hG : Keeps b₀ s) : Keeps b₀ (State.launch s (q) (x))
    := by
  unfold State.launch
  repeat' (first | (with_reducible assumption) | (with_reducible apply Keeps.completePosted)
                 | (with_reducible apply Keeps.inc) | (with_reducible apply Keeps.advanceByTicks)
                 | (with_reducible apply Keeps.each) | (with_reducible apply Keeps.emit) | (refine fun s x h => ?_)
                 | (refine fun s h => ?_)
                 | ((try lift_lets); intro x; refine Keeps.cutl (s := x) ?_ ?_; rotate_left; (intro hx; clear_value x); rotate_left; unfold x)
                 | ((try lift_lets); intro x) | split
                 | (with_reducible refine Keeps.upd ?_ ?_ ?_ ?_; rotate_left; exact rfl; (first | exact Nat.le_refl _ | exact Nat.le_max_left _ _ | exact Nat.le_add_right _ _); (first | exact Nat.le_refl _ | exact Nat.le_succ _); first | (with_reducible assumption) | (with_reducible apply Keeps.completePosted) | (with_reducible apply Keeps.inc) | (with_reducible apply Keeps.advanceByTicks) | (with_reducible apply Keeps.each) | (with_reducible apply Keeps.emit) | (with_reducible refine Keeps.of2 ‹_ = (_, _)› ?_) | (with_reducible refine Keeps.of22 ‹_ = (_, _, _)› ?_) | (with_reducible refine Keeps.of1 ‹_ = (_, _)› ?_))
                 | (with_reducible refine Keeps.of2 ‹_ = (_, _)› ?_)
                 | (with_reducible refine Keeps.of22 ‹_ = (_, _, _)› ?_)
                 | (with_reducible refine Keeps.of1 ‹_ = (_, _)› ?_) | (dsimp -zeta only) | (dsimp +zetaDelta only))

theorem Keeps.delayRequest {b₀ s : State} (i : Nat) (x : Int) (p : Nat) (hG : Keeps b₀ s) : Keeps b₀
    (State.delayRequest s (i) (x) (p)) := by
  unfold State.delayRequest
  dsimp only
  with_reducible repeat' first | assumption | apply Keeps.modTracker | apply Keeps.modPtpLink | apply Keeps.emit
                               | refine fun s x h => ?_ | refine fun s h => ?_ | split

theorem Keeps.delaySend {b₀ s : State} (i : Nat) (x : Int) (hG : Keeps b₀ s) : Keeps b₀ (State.delaySend s (i) (x)) :=
    by
  unfold State.delaySend
  with_reducible repeat' first | assumption | apply Keeps.each | apply Keeps.delayRequest | refine fun s x h => ?_
                               | refine fun s h => ?_ | split

end Sys2Proof.Machine
end

