-- ==== Sys2Proof/Laws/KeepClocks.lean ====
section
/-! SUPPORT. What each operation of Machine/Clocks.lean keeps (Laws/Keeps.lean). -/

set_option Elab.async false

namespace Sys2Proof.Machine

open Sys2Proof

theorem Keeps.search {b₀ s : State} (n : Nat) (hG : Keeps b₀ s) : Keeps b₀ (State.search s (n)) := by
  unfold State.search
  with_reducible repeat' first | assumption | apply Keeps.wrBit

theorem Keeps.judgeLoops {b₀ s : State} (hG : Keeps b₀ s) : Keeps b₀ (State.judgeLoops s) := by
  unfold State.judgeLoops
  with_reducible repeat' first | assumption | apply Keeps.each | apply Keeps.setActive | refine fun s x h => ?_
                               | refine fun s h => ?_

theorem Keeps.bootLoops {b₀ s : State} (hG : Keeps b₀ s) : Keeps b₀ (State.bootLoops s) := by
  unfold State.bootLoops
  repeat' first | with_reducible assumption | with_reducible apply Keeps.search | split
                | refine Keeps.upd ?_ rfl (Nat.le_refl _) (Nat.le_refl _)

theorem Keeps.startUp {b₀ s : State} (hG : Keeps b₀ s) : Keeps b₀ (State.startUp s) := by
  unfold State.startUp
  repeat' first | with_reducible assumption | with_reducible apply Keeps.each | with_reducible apply Keeps.search
                | with_reducible apply Keeps.restartLanes | refine fun s x h => ?_ | refine fun s h => ?_ | split
                | refine Keeps.upd ?_ rfl (Nat.le_refl _) (Nat.le_refl _)

theorem Keeps.stepSix {b₀ s : State} (hG : Keeps b₀ s) : Keeps b₀ (State.stepSix s) := by
  unfold State.stepSix
  with_reducible repeat' first | assumption | apply Keeps.startUp | refine fun s x h => ?_ | refine fun s h => ?_
                               | split

theorem Keeps.quadStarts {b₀ s : State} (n : Nat) (hG : Keeps b₀ s) : Keeps b₀ (State.quadStarts s (n)) := by
  unfold State.quadStarts
  with_reducible repeat' first | assumption | apply Keeps.startQuad | refine fun s x h => ?_ | refine fun s h => ?_
                               | split

theorem Keeps.judgeRefLost {b₀ s : State} (hG : Keeps b₀ s) : Keeps b₀ (State.judgeRefLost s) := by
  unfold State.judgeRefLost
  with_reducible repeat' first | assumption | apply Keeps.setActive

theorem Keeps.tellSlew {b₀ s : State} (rate : Int) (hG : Keeps b₀ s) : Keeps b₀ (State.tellSlew s (rate)) := by
  unfold State.tellSlew
  repeat' first | with_reducible assumption | refine fun s x h => ?_ | refine fun s h => ?_ | split
                | refine Keeps.upd ?_ rfl (Nat.le_refl _) (Nat.le_refl _)

theorem Keeps.holdover {b₀ s : State} (hG : Keeps b₀ s) : Keeps b₀ (State.holdover s) := by
  unfold State.holdover
  with_reducible repeat' first | assumption | apply Keeps.wrB | apply Keeps.wr | apply Keeps.tellSlew
                               | apply Keeps.setActive | apply Keeps.raise | refine fun s x h => ?_
                               | refine fun s h => ?_ | split

theorem Keeps.keepRefLost {b₀ s : State} (hG : Keeps b₀ s) : Keeps b₀ (State.keepRefLost s) := by
  unfold State.keepRefLost
  with_reducible repeat' first | assumption | apply Keeps.each | apply Keeps.wrB | refine fun s x h => ?_
                               | refine fun s h => ?_ | split

theorem Keeps.dropSlew {b₀ s : State} (hG : Keeps b₀ s) : Keeps b₀ (State.dropSlew s) := by
  unfold State.dropSlew
  with_reducible repeat' first | assumption | apply Keeps.wrB | apply Keeps.wr | apply Keeps.tellSlew
                               | apply Keeps.setActive | refine fun s x h => ?_ | refine fun s h => ?_ | split

theorem Keeps.refFails {b₀ s : State} (r : Nat) (hG : Keeps b₀ s) : Keeps b₀ (State.refFails s (r)) := by
  unfold State.refFails
  dsimp only
  repeat' first | with_reducible assumption | with_reducible apply Keeps.wrB | with_reducible apply Keeps.judgeRefLost
                | with_reducible apply Keeps.raise | with_reducible apply Keeps.dropSlew
                | with_reducible apply Keeps.wr | with_reducible apply Keeps.holdover | refine fun s x h => ?_
                | refine fun s h => ?_ | split | refine Keeps.upd ?_ rfl (Nat.le_refl _) (Nat.le_refl _)

theorem Keeps.judgeRef {b₀ s : State} (hG : Keeps b₀ s) : Keeps b₀ (State.judgeRef s) := by
  unfold State.judgeRef
  dsimp only
  repeat' first | with_reducible assumption | with_reducible apply Keeps.wr | refine fun s x h => ?_
                | refine fun s h => ?_ | split | refine Keeps.upd ?_ rfl (Nat.le_refl _) (Nat.le_refl _)

theorem Keeps.refQualifies {b₀ s : State} (r : Nat) (err : Int) (hG : Keeps b₀ s) : Keeps b₀ (State.refQualifies s (r)
    (err)) := by
  unfold State.refQualifies
  dsimp only
  repeat' first | with_reducible assumption | with_reducible apply Keeps.wrB | with_reducible apply Keeps.judgeRefLost
                | with_reducible apply Keeps.wr | with_reducible apply Keeps.tellSlew
                | with_reducible apply Keeps.judgeRef | refine fun s x h => ?_ | refine fun s h => ?_ | split
                | refine Keeps.upd ?_ rfl (Nat.le_refl _) (Nat.le_refl _)

theorem Keeps.slewComplete {b₀ s : State} (hG : Keeps b₀ s) : Keeps b₀ (State.slewComplete s) := by
  unfold State.slewComplete
  dsimp only
  with_reducible repeat' first | assumption | apply Keeps.wrB | apply Keeps.wr | apply Keeps.tellSlew
                               | apply Keeps.setActive | apply Keeps.judgeRef | refine fun s x h => ?_
                               | refine fun s h => ?_ | split

theorem Keeps.returnDomain {b₀ s : State} (n : Nat) (hG : Keeps b₀ s) : Keeps b₀ (State.returnDomain s (n)) := by
  unfold State.returnDomain
  repeat' first | with_reducible assumption | with_reducible apply Keeps.wrBit | with_reducible apply Keeps.judgeLoops
                | with_reducible apply Keeps.restLoops | with_reducible apply Keeps.each
                | with_reducible apply Keeps.modLane | with_reducible apply Keeps.restartLane | refine fun s x h => ?_
                | refine fun s h => ?_ | split | refine Keeps.upd ?_ rfl (Nat.le_refl _) (Nat.le_refl _)

theorem Keeps.searchDone {b₀ s : State} (n : Nat) (hG : Keeps b₀ s) : Keeps b₀ (State.searchDone s (n)) := by
  unfold State.searchDone
  dsimp only
  repeat' first | with_reducible assumption | with_reducible apply Keeps.stepSix | with_reducible apply Keeps.wrBit
                | with_reducible apply Keeps.returnDomain | with_reducible apply Keeps.judgeLoops
                | with_reducible apply Keeps.quadStarts | with_reducible apply Keeps.bootLoops
                | refine fun s x h => ?_ | refine fun s h => ?_ | split
                | refine Keeps.upd ?_ rfl (Nat.le_refl _) (Nat.le_refl _)

theorem Keeps.takeReturns {b₀ s : State} (hG : Keeps b₀ s) : Keeps b₀ (State.takeReturns s) := by
  unfold State.takeReturns
  repeat' first | with_reducible assumption | with_reducible apply Keeps.each
                | with_reducible apply Keeps.returnDomain | refine Keeps.upd ?_ rfl (Nat.le_refl _) (Nat.le_refl _)

theorem Keeps.askReturn {b₀ s : State} (n : Nat) (hG : Keeps b₀ s) : Keeps b₀ (State.askReturn s (n)) := by
  unfold State.askReturn
  repeat' first | with_reducible assumption | with_reducible apply Keeps.inc | split
                | refine Keeps.upd ?_ rfl (Nat.le_refl _) (Nat.le_refl _)

theorem Keeps.clkReturn {b₀ s : State} (v : Word) (hG : Keeps b₀ s) : Keeps b₀ (State.clkReturn s (v)) := by
  unfold State.clkReturn
  with_reducible repeat' first | assumption | apply Keeps.each | apply Keeps.askReturn | refine fun s x h => ?_
                               | refine fun s h => ?_

theorem Keeps.clkUpdate {b₀ s : State} (v : Word) (hG : Keeps b₀ s) : Keeps b₀ (State.clkUpdate s (v)) := by
  unfold State.clkUpdate
  dsimp only
  repeat' first | with_reducible assumption | with_reducible apply Keeps.wrB | split
                | refine Keeps.upd ?_ rfl (Nat.le_refl _) (Nat.le_refl _)

theorem Keeps.takeUpdate {b₀ s : State} (hG : Keeps b₀ s) : Keeps b₀ (State.takeUpdate s) := by
  unfold State.takeUpdate
  repeat' first | with_reducible assumption | with_reducible apply Keeps.wr | with_reducible apply Keeps.wrB
                | with_reducible apply Keeps.each | with_reducible apply Keeps.portDown | refine fun s x h => ?_
                | refine fun s h => ?_ | split | refine Keeps.upd ?_ rfl (Nat.le_refl _) (Nat.le_refl _)

theorem Keeps.stageWritten {b₀ s : State} (hG : Keeps b₀ s) : Keeps b₀ (State.stageWritten s) := by
  unfold State.stageWritten
  with_reducible repeat' first | assumption | apply Keeps.wrB | split

theorem Keeps.syncIn {b₀ s : State} (tbOff : Bool) (mtrOff : Bool) (hG : Keeps b₀ s) : Keeps b₀ (State.syncIn s
    (tbOff) (mtrOff)) := by
  unfold State.syncIn
  repeat' first | with_reducible assumption | with_reducible apply Keeps.inc | with_reducible apply Keeps.wrB
                | refine fun s x h => ?_ | refine fun s h => ?_ | split
                | refine Keeps.upd ?_ rfl (Nat.le_refl _) (Nat.le_refl _)

theorem Keeps.syncOut {b₀ s : State} (hG : Keeps b₀ s) : Keeps b₀ (State.syncOut s) := by
  unfold State.syncOut
  with_reducible repeat' first | assumption | apply Keeps.emit | split

end Sys2Proof.Machine
end

