-- ==== Sys2Proof/Laws/KeepPower.lean ====
section
/-! SUPPORT. What each operation of Machine/Power.lean keeps (Laws/Keeps.lean). -/

set_option Elab.async false

namespace Sys2Proof.Machine

open Sys2Proof

theorem Keeps.setPower {b₀ s : State} (p : Power) (forced : Bool) (hG : Keeps b₀ s) : Keeps b₀ (State.setPower s
    (p) (forced)) := by
  unfold State.setPower
  with_reducible repeat' first | assumption | apply Keeps.wr | apply Keeps.wrB | apply Keeps.event | split

theorem Keeps.setMove {b₀ s : State} (m : Option PowerMove) (hG : Keeps b₀ s) : Keeps b₀ (State.setMove s (m)) := by
  unfold State.setMove
  repeat' first | with_reducible assumption | with_reducible apply Keeps.wrB
                | refine Keeps.upd ?_ rfl (Nat.le_refl _) (Nat.le_refl _)

theorem Keeps.showWatch {b₀ s : State} (hG : Keeps b₀ s) : Keeps b₀ (State.showWatch s) := by
  unfold State.showWatch
  with_reducible repeat' first | assumption | apply Keeps.wr

theorem Keeps.restartWatch {b₀ s : State} (hG : Keeps b₀ s) : Keeps b₀ (State.restartWatch s) := by
  unfold State.restartWatch
  repeat' first | with_reducible assumption | with_reducible apply Keeps.showWatch
                | refine Keeps.upd ?_ rfl (Nat.le_refl _) (Nat.le_refl _)

theorem Keeps.armAtRun {b₀ s : State} (hG : Keeps b₀ s) : Keeps b₀ (State.armAtRun s) := by
  unfold State.armAtRun
  with_reducible repeat' first | assumption | apply Keeps.restartWatch | split

theorem Keeps.leaveRun {b₀ s : State} (det : Nat) (hG : Keeps b₀ s) : Keeps b₀ (State.leaveRun s (det)) := by
  unfold State.leaveRun
  with_reducible repeat' first | assumption | apply Keeps.dropGrid | apply Keeps.coastAll | apply Keeps.pwmOffAll

theorem Keeps.enterHold {b₀ s : State} (forced : Bool) (det : Nat) (hG : Keeps b₀ s) : Keeps b₀ (State.enterHold s
    (forced) (det)) := by
  unfold State.enterHold
  with_reducible repeat' first | assumption | apply Keeps.leaveRun | apply Keeps.setPower | apply Keeps.setMove

theorem Keeps.enterRun {b₀ s : State} (hG : Keeps b₀ s) : Keeps b₀ (State.enterRun s) := by
  unfold State.enterRun
  repeat' first | with_reducible assumption | with_reducible apply Keeps.setPower
                | with_reducible apply Keeps.setMove | with_reducible apply Keeps.endOverlays
                | with_reducible apply Keeps.restLoops | with_reducible apply Keeps.armAtRun
                | refine Keeps.upd ?_ rfl (Nat.le_refl _) (Nat.le_refl _)

theorem Keeps.resolvePending {b₀ s : State} (v : Verdict) (hG : Keeps b₀ s) : Keeps b₀ (State.resolvePending s (v))
    := by
  unfold State.resolvePending
  with_reducible repeat' first | assumption | apply Keeps.wr | apply Keeps.resolveWhere | refine fun s x h => ?_
                               | refine fun s h => ?_ | split

theorem Keeps.exitTowpath {b₀ s : State} (hG : Keeps b₀ s) : Keeps b₀ (State.exitTowpath s) := by
  unfold State.exitTowpath
  repeat' first | with_reducible assumption | with_reducible apply Keeps.setPower
                | with_reducible apply Keeps.setMove | with_reducible apply Keeps.each
                | with_reducible apply Keeps.search | with_reducible apply Keeps.cmpUnwatch
                | with_reducible apply Keeps.wakeAll | with_reducible apply Keeps.startTrackers
                | with_reducible apply Keeps.restartLanes | refine Keeps.upd ?_ rfl (Nat.le_refl _) (Nat.le_refl _)

theorem Keeps.startMove {b₀ s : State} (t : Power) (hG : Keeps b₀ s) : Keeps b₀ (State.startMove s (t)) := by
  unfold State.startMove
  repeat' first | with_reducible assumption | with_reducible apply Keeps.exitTowpath
                | with_reducible apply Keeps.setMove | split
                | refine Keeps.upd ?_ rfl (Nat.le_refl _) (Nat.le_refl _)

theorem Keeps.powerRequest {b₀ s : State} (t : Power) (hG : Keeps b₀ s) : Keeps b₀ (State.powerRequest s (t)).1 := by
  unfold State.powerRequest
  with_reducible repeat' first | assumption | apply Keeps.wr | apply Keeps.startMove | split

theorem Keeps.powerAsked {b₀ s : State} (t : Power) (hG : Keeps b₀ s) : Keeps b₀ (State.powerAsked s (t)).1 := by
  unfold State.powerAsked
  with_reducible repeat' first | assumption | apply Keeps.powerRequest | apply Keeps.wr

theorem Keeps.ownPower {b₀ s : State} (c : Cmd) (hG : Keeps b₀ s) : Keeps b₀ (Machine.ownPower c s).1 := by
  unfold Machine.ownPower
  with_reducible repeat' first | assumption | apply Keeps.powerAsked | refine fun s x h => ?_ | refine fun s h => ?_
                               | split

theorem Keeps.powerReg {b₀ s : State} (v : Word) (q : Requester) (hG : Keeps b₀ s) : Keeps b₀ (State.powerReg s (v)
    (q)) := by
  unfold State.powerReg
  with_reducible repeat' first | assumption | apply Keeps.powerAsked | apply Keeps.reservedWrite | split

theorem Keeps.forceHold {b₀ s : State} (why : ForceCause) (hG : Keeps b₀ s) : Keeps b₀ (State.forceHold s (why)) := by
  unfold State.forceHold
  dsimp only
  with_reducible repeat' first | assumption | apply Keeps.resolvePending | apply Keeps.enterHold
                               | apply Keeps.setMove | split

theorem Keeps.runPending {b₀ s : State} (hG : Keeps b₀ s) : Keeps b₀ (State.runPending s) := by
  unfold State.runPending
  with_reducible repeat' first | assumption | apply Keeps.wr | apply Keeps.powerAsked | apply Keeps.each
                               | apply Keeps.resolve | refine fun s x h => ?_ | refine fun s h => ?_ | split

theorem Keeps.transitionDone {b₀ s : State} (hG : Keeps b₀ s) : Keeps b₀ (State.transitionDone s) := by
  unfold State.transitionDone
  repeat' first | with_reducible assumption | with_reducible apply Keeps.setMove
                | with_reducible apply Keeps.runPending | refine fun s x h => ?_ | refine fun s h => ?_ | split
                | refine Keeps.upd ?_ rfl (Nat.le_refl _) (Nat.le_refl _)

theorem Keeps.startTowpath {b₀ s : State} (hG : Keeps b₀ s) : Keeps b₀ (State.startTowpath s) := by
  unfold State.startTowpath
  with_reducible repeat' first | assumption | apply Keeps.endOverlays | apply Keeps.setMove

theorem Keeps.powerAtMark {b₀ s : State} (hG : Keeps b₀ s) : Keeps b₀ (State.powerAtMark s) := by
  unfold State.powerAtMark
  with_reducible repeat' first | assumption | apply Keeps.enterRun | apply Keeps.enterHold | apply Keeps.startTowpath
                               | apply Keeps.setMove | split

theorem Keeps.stopLoop {b₀ s : State} (n : Nat) (hG : Keeps b₀ s) : Keeps b₀ (State.stopLoop s (n)) := by
  unfold State.stopLoop
  repeat' first | with_reducible assumption | with_reducible apply Keeps.wrBit
                | refine Keeps.upd ?_ rfl (Nat.le_refl _) (Nat.le_refl _)

theorem Keeps.towpathSteps {b₀ s : State} (hG : Keeps b₀ s) : Keeps b₀ (State.towpathSteps s) := by
  unfold State.towpathSteps
  repeat' first | with_reducible assumption | with_reducible apply Keeps.calAbandon
                | with_reducible apply Keeps.accsIdle | with_reducible apply Keeps.portsDown
                | with_reducible apply Keeps.allLanesOff | with_reducible apply Keeps.each
                | with_reducible apply Keeps.stopLoop | with_reducible apply Keeps.judgeLoops
                | with_reducible apply Keeps.cmpWatch | with_reducible apply Keeps.setPower
                | with_reducible apply Keeps.setMove | refine fun s x h => ?_ | refine fun s h => ?_ | split
                | refine Keeps.upd ?_ rfl (Nat.le_refl _) (Nat.le_refl _)

theorem Keeps.takeFollow {b₀ s : State} (hG : Keeps b₀ s) : Keeps b₀ (State.takeFollow s) := by
  unfold State.takeFollow
  dsimp only
  repeat' first | with_reducible assumption | with_reducible apply Keeps.enterRun
                | with_reducible apply Keeps.enterHold | with_reducible apply Keeps.exitTowpath
                | with_reducible apply Keeps.startTowpath | split
                | refine Keeps.upd ?_ rfl (Nat.le_refl _) (Nat.le_refl _)

theorem Keeps.channelsInvalid {b₀ s : State} (hG : Keeps b₀ s) : Keeps b₀ (State.channelsInvalid s) := by
  unfold State.channelsInvalid
  with_reducible repeat' first | assumption | apply Keeps.each | apply Keeps.wrB | refine fun s x h => ?_
                               | refine fun s h => ?_ | split

theorem Keeps.meteringLost {b₀ s : State} (hG : Keeps b₀ s) : Keeps b₀ (State.meteringLost s) := by
  unfold State.meteringLost
  dsimp only
  with_reducible repeat' first | assumption | apply Keeps.channelsInvalid | apply Keeps.each | apply Keeps.meterSlot
                               | apply Keeps.calAbandon | refine fun s x h => ?_ | refine fun s h => ?_ | split

theorem Keeps.lockEffect {b₀ s : State} (n : Nat) (hG : Keeps b₀ s) : Keeps b₀ (State.lockEffect s (n)) := by
  unfold State.lockEffect
  repeat' first | with_reducible assumption | with_reducible apply Keeps.pwmOffAll
                | with_reducible apply Keeps.forceHold | with_reducible apply Keeps.timeInvalid
                | with_reducible apply Keeps.each | with_reducible apply Keeps.laneLost
                | with_reducible apply Keeps.portsDown | with_reducible apply Keeps.trackersHold
                | with_reducible apply Keeps.meteringLost | refine fun s x h => ?_ | refine fun s h => ?_ | split
                | refine Keeps.upd ?_ rfl (Nat.le_refl _) (Nat.le_refl _)

theorem Keeps.lockLost {b₀ s : State} (n : Nat) (hG : Keeps b₀ s) : Keeps b₀ (State.lockLost s (n)) := by
  unfold State.lockLost
  repeat' first | with_reducible assumption | with_reducible apply Keeps.search | with_reducible apply Keeps.wrBit
                | with_reducible apply Keeps.inc | with_reducible apply Keeps.lockEffect
                | with_reducible apply Keeps.raise | with_reducible apply Keeps.judgeLoops | split
                | refine Keeps.upd ?_ rfl (Nat.le_refl _) (Nat.le_refl _)

theorem Keeps.searchFailed {b₀ s : State} (n : Nat) (hG : Keeps b₀ s) : Keeps b₀ (State.searchFailed s (n)) := by
  unfold State.searchFailed
  dsimp only
  repeat' first | with_reducible assumption | with_reducible apply Keeps.stepSix | with_reducible apply Keeps.wrBit
                | with_reducible apply Keeps.judgeLoops | with_reducible apply Keeps.raise
                | with_reducible apply Keeps.lockEffect | refine fun s x h => ?_ | refine fun s h => ?_ | split
                | refine Keeps.upd ?_ rfl (Nat.le_refl _) (Nat.le_refl _)

theorem Keeps.backupLost {b₀ s : State} (hG : Keeps b₀ s) : Keeps b₀ (State.backupLost s) := by
  unfold State.backupLost
  with_reducible repeat' first | assumption | apply Keeps.reset | apply Keeps.setActive | apply Keeps.raise | split

end Sys2Proof.Machine
end

