-- ==== Sys2Proof/Laws/KeepBoot.lean ====
section
/-! SUPPORT. What each operation of Machine/Boot.lean keeps (Laws/Keeps.lean). -/

set_option Elab.async false

namespace Sys2Proof.Machine

open Sys2Proof

theorem Keeps.setCause {b₀ s : State} (mon : Bool) (sys : Bool) (off : Bool) (hG : Keeps b₀ s) : Keeps b₀
    (State.setCause s (mon) (sys) (off)) := by
  unfold State.setCause
  with_reducible repeat' first | assumption | apply Keeps.wrB | apply Keeps.inc

theorem Keeps.filtered {b₀ s t : State} (hG : Keeps b₀ s) (f : Nat × Word → Bool) (hp : t.pending = s.pending)
    (hr : t.regs = s.regs.filter f) (hw : t.loop.words = s.loop.words ∨ t.loop.words = [])
    (ht : b₀.tsn.local_ ≤ t.tsn.local_) (hf : s.free ≤ t.free) (ho : t.out = s.out) : Keeps b₀ t :=
  ⟨hp.trans hG.queue, fun h => by rw [State.regsWf, hr]; exact SMap.filter_wf _ _ _ (hG.regs h),
    fun h => by
      rcases hw with hw | hw
      · rw [State.banksWf, hw]; exact hG.banks h
      · rw [State.banksWf, hw]; rfl,
    ht, Nat.le_trans hG.free hf, by rw [ho]; exact hG.sent⟩

theorem Keeps.clearMain {b₀ s : State} (hG : Keeps b₀ s) : Keeps b₀ (State.clearMain s) := by
  unfold State.clearMain
  exact hG.filtered (fun p => aonRegs.contains p.1) rfl rfl (Or.inr rfl) hG.clock (Nat.le_refl _) rfl

theorem Keeps.resetMain {b₀ s : State} (hG : Keeps b₀ s) : Keeps b₀ (State.resetMain s) := by
  unfold State.resetMain
  with_reducible repeat' first | assumption | apply Keeps.releaseClaim | apply Keeps.clearMain | apply Keeps.wrB
                               | apply Keeps.resetLevels | apply Keeps.showFuses

theorem Keeps.enterOff {b₀ s : State} (hG : Keeps b₀ s) : Keeps b₀ (State.enterOff s) := by
  unfold State.enterOff
  repeat' first | with_reducible assumption | with_reducible apply Keeps.endOverlays
                | with_reducible apply Keeps.releaseClaim | with_reducible apply Keeps.resetMain
                | refine Keeps.upd ?_ rfl (Nat.le_refl _) (Nat.le_refl _)

theorem Keeps.systemReset {b₀ s : State} (hG : Keeps b₀ s) : Keeps b₀ (State.systemReset s) := by
  unfold State.systemReset
  with_reducible repeat' first | assumption | apply Keeps.setCause | apply Keeps.resetMain

theorem Keeps.sampleStraps {b₀ s : State} (straps : BitVec 3) (hG : Keeps b₀ s) : Keeps b₀ (State.sampleStraps s
    (straps)) := by
  unfold State.sampleStraps
  with_reducible repeat' first | assumption | apply Keeps.setReg

theorem Keeps.atZero {b₀ s : State} (hG : Keeps b₀ s) : Keeps { b₀ with tsn := {} } s :=
  ⟨hG.queue, hG.regs, hG.banks, Nat.zero_le _, hG.free, hG.sent⟩

/-- A power-on reset starts the local counter again; all else is kept as by every command. -/
theorem Keeps.powerOn {b₀ s : State} (straps : BitVec 3) (feeds : BitVec 2) (hG : Keeps b₀ s) :
    Keeps { b₀ with tsn := {} } (State.powerOn s straps feeds) := by
  unfold State.powerOn
  dsimp only
  refine Keeps.resetLevels (Keeps.showFuses (Keeps.wrB _ _ (Keeps.sampleStraps _ ?_)))
  exact hG.atZero.filtered (fun p => p.1 = 0) rfl rfl (Or.inr rfl) (Nat.zero_le _) (Nat.le_succ _) rfl

theorem Keeps.monitorTrip {b₀ s : State} (rails : BitVec 6) (sys : Bool) (hG : Keeps b₀ s) : Keeps b₀
    (State.monitorTrip s (rails) (sys)) := by
  unfold State.monitorTrip
  dsimp only
  repeat' first | with_reducible assumption | with_reducible apply Keeps.setCause | with_reducible apply Keeps.wr
                | with_reducible apply Keeps.resetMain | split
                | refine Keeps.upd ?_ rfl (Nat.le_refl _) (Nat.le_refl _)

theorem Keeps.showFeeds {b₀ s : State} (hG : Keeps b₀ s) : Keeps b₀ (State.showFeeds s) := by
  unfold State.showFeeds
  with_reducible repeat' first | assumption | apply Keeps.wrB

theorem Keeps.keepLost {b₀ s : State} (hG : Keeps b₀ s) : Keeps b₀ (State.keepLost s) := by
  unfold State.keepLost
  dsimp only
  with_reducible repeat' first | assumption | apply Keeps.wrB | refine fun s x h => ?_ | refine fun s h => ?_ | split

theorem Keeps.dropFeed {b₀ s : State} (f : Nat) (hG : Keeps b₀ s) : Keeps b₀ (State.dropFeed s (f)) := by
  unfold State.dropFeed
  repeat' first | with_reducible assumption | with_reducible apply Keeps.showFeeds | with_reducible apply Keeps.wrB
                | refine Keeps.upd ?_ rfl (Nat.le_refl _) (Nat.le_refl _)

theorem Keeps.judgeFeeds {b₀ s : State} (hG : Keeps b₀ s) : Keeps b₀ (State.judgeFeeds s) := by
  unfold State.judgeFeeds
  with_reducible repeat' first | assumption | apply Keeps.setActive | apply Keeps.raise | refine fun s x h => ?_
                               | refine fun s h => ?_ | split

theorem Keeps.feedLost {b₀ s : State} (f : Nat) (hG : Keeps b₀ s) : Keeps { b₀ with tsn := {} } (State.feedLost s f) := by
  unfold State.feedLost
  split
  · exact hG.atZero
  · have h := hG.dropFeed f
    dsimp only
    split
    · exact h.powerOn _ _
    · exact h.judgeFeeds.atZero

theorem Keeps.feedBack {b₀ s : State} (f : Nat) (hG : Keeps b₀ s) : Keeps { b₀ with tsn := {} } (State.feedBack s f) := by
  unfold State.feedBack
  split
  · exact hG.atZero
  · split
    · exact (hG.powerOn _ _).showFeeds
    · refine (Keeps.judgeFeeds (Keeps.showFeeds ?_)).atZero
      exact Keeps.upd hG rfl (Nat.le_refl _) (Nat.le_refl _)

theorem Keeps.hotDie {b₀ s : State} (temp : BitVec 12) (n : Nat) (hG : Keeps b₀ s) : Keeps b₀ (State.hotDie s (temp)
    (n)) := by
  unfold State.hotDie
  dsimp only
  with_reducible repeat' first | assumption | apply Keeps.each | apply Keeps.setActive | apply Keeps.raise
                               | apply Keeps.wr | refine fun s x h => ?_ | refine fun s h => ?_ | split

theorem Keeps.clearWindow {b₀ s : State} (b : Nat) (keep : Nat → Bool) (hG : Keeps b₀ s) :
    Keeps b₀ (State.clearWindow s b keep) := by
  unfold State.clearWindow
  dsimp only
  refine Keeps.reload _ _ ?_
  exact hG.filtered (fun p => !((blockWindow b).1 ≤ p.1 && p.1 < (blockWindow b).2) || keep p.1) rfl rfl (Or.inl rfl)
    hG.clock (Nat.le_refl _) rfl

theorem Keeps.resetCanal {b₀ s : State} (hG : Keeps b₀ s) : Keeps b₀ (State.resetCanal s) := by
  unfold State.resetCanal
  repeat' first | with_reducible assumption | with_reducible apply Keeps.clearWindow
                | with_reducible apply Keeps.restartLanes | with_reducible apply Keeps.loopAgain
                | with_reducible apply Keeps.wakeAll | refine fun s x h => ?_ | refine fun s h => ?_ | split
                | refine Keeps.upd ?_ rfl (Nat.le_refl _) (Nat.le_refl _)

theorem Keeps.resetLoop {b₀ s : State} (hG : Keeps b₀ s) : Keeps b₀ (State.resetLoop s) := by
  unfold State.resetLoop
  with_reducible repeat' first | assumption | apply Keeps.clearWindow | apply Keeps.each | apply Keeps.setReg
                               | apply Keeps.restLoops | apply Keeps.showBanks | apply Keeps.showStages
                               | apply Keeps.showWindow | apply Keeps.judgeRegions | refine fun s x h => ?_
                               | refine fun s h => ?_ | split

theorem Keeps.resetCells {b₀ s : State} (hG : Keeps b₀ s) : Keeps b₀ (State.resetCells s) := by
  unfold State.resetCells
  repeat' first | with_reducible assumption | with_reducible apply Keeps.dropGrid
                | with_reducible apply Keeps.clearWindow | with_reducible apply Keeps.showKept
                | with_reducible apply Keeps.initRoles | refine Keeps.upd ?_ rfl (Nat.le_refl _) (Nat.le_refl _)

theorem Keeps.resetBasin {b₀ s : State} (hG : Keeps b₀ s) : Keeps b₀ (State.resetBasin s) := by
  unfold State.resetBasin
  repeat' first | with_reducible assumption | with_reducible apply Keeps.sluiceAbort
                | with_reducible apply Keeps.clearWindow | with_reducible apply Keeps.showKept
                | refine Keeps.upd ?_ rfl (Nat.le_refl _) (Nat.le_refl _)

theorem Keeps.resetPwm {b₀ s : State} (hG : Keeps b₀ s) : Keeps b₀ (State.resetPwm s) := by
  unfold State.resetPwm
  repeat' first | with_reducible assumption | with_reducible apply Keeps.clearWindow
                | with_reducible apply Keeps.readTripIn | with_reducible apply Keeps.pwmOffAll
                | refine Keeps.upd ?_ rfl (Nat.le_refl _) (Nat.le_refl _)

theorem Keeps.resetCmp {b₀ s : State} (hG : Keeps b₀ s) : Keeps b₀ (State.resetCmp s) := by
  unfold State.resetCmp
  repeat' first | with_reducible assumption | with_reducible apply Keeps.clearWindow
                | with_reducible apply Keeps.cmpStartAll | refine Keeps.upd ?_ rfl (Nat.le_refl _) (Nat.le_refl _)

theorem Keeps.resetAux {b₀ s : State} (hG : Keeps b₀ s) : Keeps b₀ (State.resetAux s) := by
  unfold State.resetAux
  repeat' first | with_reducible assumption | with_reducible apply Keeps.coastAll | with_reducible apply Keeps.each
                | with_reducible apply Keeps.driveMask | with_reducible apply Keeps.clearWindow
                | with_reducible apply Keeps.readAuxFlt | refine fun s x h => ?_ | refine fun s h => ?_ | split
                | refine Keeps.upd ?_ rfl (Nat.le_refl _) (Nat.le_refl _)

theorem Keeps.resetTsn {b₀ s : State} (hG : Keeps b₀ s) : Keeps b₀ (State.resetTsn s) := by
  unfold State.resetTsn
  repeat' first | with_reducible assumption | with_reducible apply Keeps.clearWindow
                | with_reducible apply Keeps.timeFree | with_reducible apply Keeps.startTrackers
                | refine Keeps.upd ?_ rfl (Nat.le_refl _) (Nat.le_refl _)

theorem Keeps.resetRed {b₀ s : State} (hG : Keeps b₀ s) : Keeps b₀ (State.resetRed s) := by
  unfold State.resetRed
  repeat' first | with_reducible assumption | with_reducible apply Keeps.releaseClaim
                | with_reducible apply Keeps.clearWindow | with_reducible apply Keeps.wrB
                | refine Keeps.upd ?_ rfl (Nat.le_refl _) (Nat.le_refl _)

theorem Keeps.clearBlock {b₀ s : State} (b : Nat) (hG : Keeps b₀ s) : Keeps b₀ (State.clearBlock s (b)) := by
  unfold State.clearBlock
  with_reducible repeat' first | assumption | apply Keeps.resetCanal | apply Keeps.resetLoop | apply Keeps.resetCells
                               | apply Keeps.resetBasin | apply Keeps.clearWindow | apply Keeps.resetPwm
                               | apply Keeps.resetCmp | apply Keeps.resetAux | apply Keeps.resetTsn
                               | apply Keeps.resetRed | apply Keeps.mtrReset | refine fun s x h => ?_
                               | refine fun s h => ?_ | split

theorem Keeps.openShadow {b₀ s : State} (b : Nat) (hG : Keeps b₀ s) : Keeps b₀ (State.openShadow s (b)) := by
  unfold State.openShadow
  repeat' first | with_reducible assumption | refine fun s x h => ?_ | refine fun s h => ?_ | split
                | refine Keeps.upd ?_ rfl (Nat.le_refl _) (Nat.le_refl _)

theorem Keeps.blockReset {b₀ s : State} (b : Nat) (hG : Keeps b₀ s) : Keeps b₀ (State.blockReset s (b)) := by
  unfold State.blockReset
  with_reducible repeat' first | assumption | apply Keeps.openShadow | apply Keeps.clearBlock | apply Keeps.setReg
                               | split

theorem Keeps.shadowEnd {b₀ s : State} (b : Nat) (hG : Keeps b₀ s) : Keeps b₀ (State.shadowEnd s (b)) := by
  unfold State.shadowEnd
  repeat' first | with_reducible assumption | with_reducible apply Keeps.each | with_reducible apply Keeps.inc
                | with_reducible apply Keeps.raiseWith | with_reducible apply Keeps.event | refine fun s x h => ?_
                | refine fun s h => ?_ | split | refine Keeps.upd ?_ rfl (Nat.le_refl _) (Nat.le_refl _)

theorem Keeps.rstWrite {b₀ s : State} (v : Word) (q : Requester) (hG : Keeps b₀ s) : Keeps b₀ (State.rstWrite s (v)
    (q)) := by
  unfold State.rstWrite
  dsimp only
  with_reducible repeat' first | assumption | apply Keeps.reservedWrite | apply Keeps.systemReset | apply Keeps.wrB
                               | apply Keeps.blockReset | split

theorem Keeps.release {b₀ s : State} (hG : Keeps b₀ s) : Keeps b₀ (State.release s) := by
  unfold State.release
  repeat' first | with_reducible assumption | with_reducible apply Keeps.reset | with_reducible apply Keeps.search
                | with_reducible apply Keeps.timeReset | split
                | refine Keeps.upd ?_ rfl (Nat.le_refl _) (Nat.le_refl _)

theorem Keeps.mainRelease {b₀ s : State} (hG : Keeps b₀ s) : Keeps b₀ (State.mainRelease s) := by
  unfold State.mainRelease
  repeat' first | with_reducible assumption | with_reducible apply Keeps.setCause
                | with_reducible apply Keeps.release | with_reducible apply Keeps.reset
                | with_reducible apply Keeps.resetMain | split
                | refine Keeps.upd ?_ rfl (Nat.le_refl _) (Nat.le_refl _)

theorem Keeps.bootStart {b₀ s : State} (hG : Keeps b₀ s) : Keeps b₀ (State.bootStart s) := by
  unfold State.bootStart
  dsimp only
  repeat' first | with_reducible assumption | with_reducible apply Keeps.release | with_reducible apply Keeps.search
                | with_reducible apply Keeps.showFeeds | with_reducible apply Keeps.judgeFeeds
                | refine fun s x h => ?_ | refine fun s h => ?_ | split
                | refine Keeps.upd ?_ rfl (Nat.le_refl _) (Nat.le_refl _)

theorem Keeps.refFound {b₀ s : State} (r : Nat) (hG : Keeps b₀ s) : Keeps b₀ (State.refFound s (r)) := by
  unfold State.refFound
  repeat' first | with_reducible assumption | with_reducible apply Keeps.search | with_reducible apply Keeps.wr
                | split | refine Keeps.upd ?_ rfl (Nat.le_refl _) (Nat.le_refl _)

theorem Keeps.bootFail {b₀ s : State} (code : Nat) (hG : Keeps b₀ s) : Keeps b₀ (State.bootFail s (code)) := by
  unfold State.bootFail
  repeat' first | with_reducible assumption | with_reducible apply Keeps.wr | with_reducible apply Keeps.wrB
                | with_reducible apply Keeps.wrBit | refine Keeps.upd ?_ rfl (Nat.le_refl _) (Nat.le_refl _)

theorem Keeps.bootTimeout {b₀ s : State} (hG : Keeps b₀ s) : Keeps b₀ (State.bootTimeout s) := by
  unfold State.bootTimeout
  with_reducible repeat' first | assumption | apply Keeps.search | apply Keeps.bootFail | apply Keeps.refFound | split

theorem Keeps.sramDone {b₀ s : State} (ok : Bool) (hG : Keeps b₀ s) : Keeps b₀ (State.sramDone s (ok)) := by
  unfold State.sramDone
  dsimp only
  repeat' first | with_reducible assumption | with_reducible apply Keeps.bootFail | with_reducible apply Keeps.wr
                | with_reducible apply Keeps.wrB | with_reducible apply Keeps.raise | split
                | refine Keeps.upd ?_ rfl (Nat.le_refl _) (Nat.le_refl _)

theorem Keeps.judgeStrap {b₀ s : State} (hG : Keeps b₀ s) : Keeps b₀ (State.judgeStrap s) := by
  unfold State.judgeStrap
  repeat' first | with_reducible assumption | with_reducible apply Keeps.setActive | with_reducible apply Keeps.raise
                | split | refine Keeps.upd ?_ rfl (Nat.le_refl _) (Nat.le_refl _)

theorem Keeps.holdImage {b₀ s : State} (b : Bytes) (hG : Keeps b₀ s) : Keeps b₀ (State.holdImage s (b)) := by
  unfold State.holdImage
  repeat' first | with_reducible assumption | refine Keeps.upd ?_ rfl (Nat.le_refl _) (Nat.le_refl _)

theorem Keeps.settingsLive {b₀ s : State} (b : Bytes) (hG : Keeps b₀ s) : Keeps b₀ (State.settingsLive s (b)) := by
  unfold State.settingsLive
  dsimp only
  with_reducible repeat' first | assumption | apply Keeps.showDigest | apply Keeps.wr | apply Keeps.wrB
                               | apply Keeps.judgeRegions | apply Keeps.initRoles | apply Keeps.showBanks
                               | apply Keeps.cmpStartAll | apply Keeps.timeFree | apply Keeps.showWatch
                               | apply Keeps.judgeStrap | apply Keeps.wakeAll | apply Keeps.readTripIn
                               | apply Keeps.readAuxFlt | apply Keeps.soloClaim | refine fun s x h => ?_
                               | refine fun s h => ?_ | split

theorem Keeps.goLive {b₀ s : State} (b : Bytes) (secs : List Section) (hG : Keeps b₀ s) : Keeps b₀ (State.goLive s
    (b) (secs)) := by
  unfold State.goLive
  with_reducible repeat' first | assumption | apply Keeps.showFuses | apply Keeps.resetLevels | apply Keeps.holdImage
                               | apply Keeps.applyImage | apply Keeps.settingsLive | split

theorem Keeps.useImage {b₀ s : State} (b : Bytes) (copy : Nat) (bad : List Nat) (hG : Keeps b₀ s) : Keeps b₀
    (State.useImage s (b) (copy) (bad)) := by
  unfold State.useImage
  repeat' first | with_reducible assumption | with_reducible apply Keeps.wr | with_reducible apply Keeps.wrB
                | with_reducible apply Keeps.fuseActions | with_reducible apply Keeps.goLive
                | with_reducible apply Keeps.event | refine fun s x h => ?_ | refine fun s h => ?_ | split
                | refine Keeps.upd ?_ rfl (Nat.le_refl _) (Nat.le_refl _)

theorem Keeps.settingsLoaded {b₀ s : State} (primary : Option Bytes) (backup : Option Bytes) (bad : List Nat) (hG :
    Keeps b₀ s) : Keeps b₀ (State.settingsLoaded s (primary) (backup) (bad)) := by
  unfold State.settingsLoaded
  dsimp only
  with_reducible repeat' first | assumption | apply Keeps.fixRows | apply Keeps.showFuses | apply Keeps.wr
                               | apply Keeps.useImage | apply Keeps.wrB | apply Keeps.raise | apply Keeps.bootFail
                               | split

theorem Keeps.jtagImage {b₀ s : State} (b : Bytes) (bad : List Nat) (hG : Keeps b₀ s) : Keeps b₀ (State.jtagImage s
    (b) (bad)) := by
  unfold State.jtagImage
  dsimp only
  with_reducible repeat' first | assumption | apply Keeps.fixRows | apply Keeps.showFuses | apply Keeps.wr
                               | apply Keeps.wrB | apply Keeps.useImage | apply Keeps.bootFail | split

theorem Keeps.bootDone_ {b₀ s : State} (hG : Keeps b₀ s) : Keeps b₀ (State.bootDone_ s) := by
  unfold State.bootDone_
  dsimp only
  repeat' first | with_reducible assumption | with_reducible apply Keeps.stepSix | with_reducible apply Keeps.wr
                | with_reducible apply Keeps.wrB | with_reducible apply Keeps.startTrackers
                | with_reducible apply Keeps.event | refine fun s x h => ?_ | refine fun s h => ?_ | split
                | refine Keeps.upd ?_ rfl (Nat.le_refl _) (Nat.le_refl _)

end Sys2Proof.Machine
end

