-- ==== Sys2Proof/Laws/KeepFaultCmds.lean ====
section
/-! SUPPORT. What each operation of Machine/FaultCmds.lean keeps (Laws/Keeps.lean). -/

set_option Elab.async false

namespace Sys2Proof.Machine

open Sys2Proof

theorem Keeps.enterSafe {b₀ s : State} (hG : Keeps b₀ s) : Keeps b₀ (State.enterSafe s) := by
  unfold State.enterSafe
  with_reducible repeat' first | assumption | apply Keeps.forceHold | apply Keeps.pwmOffAll | apply Keeps.coastAll
                               | apply Keeps.sluiceAbort | apply Keeps.resolveWhere | refine fun s x h => ?_
                               | refine fun s h => ?_

theorem Keeps.judgeSafety {b₀ s : State} (leave : Bool) (hG : Keeps b₀ s) : Keeps b₀ (State.judgeSafety s (leave))
    := by
  unfold State.judgeSafety
  dsimp only
  with_reducible repeat' first | assumption | apply Keeps.wr | apply Keeps.event | apply Keeps.enterSafe | split

theorem Keeps.captureFinal {b₀ s : State} (hG : Keeps b₀ s) : Keeps b₀ (State.captureFinal s) := by
  unfold State.captureFinal
  with_reducible repeat' first | assumption | apply Keeps.wrB | apply Keeps.modLog | refine fun s x h => ?_
                               | refine fun s h => ?_ | split

theorem Keeps.captureWindowEnd {b₀ s : State} (hG : Keeps b₀ s) : Keeps b₀ (State.captureWindowEnd s) := by
  unfold State.captureWindowEnd
  with_reducible repeat' first | assumption | apply Keeps.captureFinal | split

theorem Keeps.rearm {b₀ s : State} (hG : Keeps b₀ s) : Keeps b₀ (State.rearm s) := by
  unfold State.rearm
  with_reducible repeat' first | assumption | apply Keeps.each | apply Keeps.setReg | refine fun s x h => ?_
                               | refine fun s h => ?_

theorem Keeps.logCopy {b₀ s : State} (hG : Keeps b₀ s) : Keeps b₀ (State.logCopy s) := by
  unfold State.logCopy
  with_reducible repeat' first | assumption | apply Keeps.each | apply Keeps.wr | refine fun s x h => ?_
                               | refine fun s h => ?_

theorem Keeps.ownClear {b₀ s : State} (c : Cmd) (hG : Keeps b₀ s) : Keeps b₀ (Machine.ownClear c s).1 := by
  unfold Machine.ownClear
  repeat' first | with_reducible assumption | with_reducible apply Keeps.incBy
                | refine Keeps.upd ?_ rfl (Nat.le_refl _) (Nat.le_refl _)

theorem Keeps.clearSource {b₀ s : State} (n : Nat) (hG : Keeps b₀ s) : Keeps b₀ (State.clearSource s (n)) := by
  unfold State.clearSource
  repeat' first | with_reducible assumption | with_reducible apply Keeps.setLatch
                | with_reducible apply Keeps.auxCleared | with_reducible apply Keeps.wrBit | refine fun s x h => ?_
                | refine fun s h => ?_ | split | refine Keeps.upd ?_ rfl (Nat.le_refl _) (Nat.le_refl _)

theorem Keeps.runClearing {b₀ s : State} (x : Clearing) (hG : Keeps b₀ s) : Keeps b₀ (State.runClearing s (x)) := by
  unfold State.runClearing
  with_reducible repeat' first | assumption | apply Keeps.each | apply Keeps.clearSource | apply Keeps.showLog
                               | apply Keeps.rearm | apply Keeps.inc | apply Keeps.raise | apply Keeps.judgeSafety
                               | apply Keeps.event | refine fun s x h => ?_ | refine fun s h => ?_ | split

theorem Keeps.runClears {b₀ s : State} (hG : Keeps b₀ s) : Keeps b₀ (State.runClears s) := by
  unfold State.runClears
  repeat' first | with_reducible assumption | with_reducible apply Keeps.each
                | with_reducible apply Keeps.runClearing | refine Keeps.upd ?_ rfl (Nat.le_refl _) (Nat.le_refl _)

theorem Keeps.sourceSeen {b₀ s : State} (n : Nat) (inst : Nat) (pair : Nat) (i : FaultInfo) (hG : Keeps b₀ s) :
    Keeps b₀ (State.sourceSeen s (n) (inst) (pair) (i)) := by
  unfold State.sourceSeen
  repeat' first | with_reducible assumption | with_reducible apply Keeps.setActive
                | with_reducible apply Keeps.raiseWith | refine fun s x h => ?_ | refine fun s h => ?_ | split
                | refine Keeps.upd ?_ rfl (Nat.le_refl _) (Nat.le_refl _)

theorem Keeps.pairBroken {b₀ s : State} (n : Nat) (hG : Keeps b₀ s) : Keeps b₀ (State.pairBroken s (n)) := by
  unfold State.pairBroken
  repeat' first | with_reducible assumption | with_reducible apply Keeps.setActive | with_reducible apply Keeps.raise
                | split | refine Keeps.upd ?_ rfl (Nat.le_refl _) (Nat.le_refl _)

theorem Keeps.integrity {b₀ s : State} (hG : Keeps b₀ s) : Keeps b₀ (State.integrity s) := by
  unfold State.integrity
  dsimp only
  with_reducible repeat' first | assumption | apply Keeps.wrB | apply Keeps.wrBit | apply Keeps.raise
                               | apply Keeps.releaseClaim | apply Keeps.pwmOffAll | split

theorem Keeps.logOverflow {b₀ s : State} (hG : Keeps b₀ s) : Keeps b₀ (State.logOverflow s) := by
  unfold State.logOverflow
  repeat' first | with_reducible assumption | with_reducible apply Keeps.raise | split
                | refine Keeps.upd ?_ rfl (Nat.le_refl _) (Nat.le_refl _)

end Sys2Proof.Machine
end

