-- ==== Sys2Proof/Laws/KeepHostLink.lean ====
section
/-! SUPPORT. What each operation of Machine/HostLink.lean keeps (Laws/Keeps.lean). -/

set_option Elab.async false

namespace Sys2Proof.Machine

open Sys2Proof

theorem Keeps.ringError {b₀ s : State} (r : Nat) (code : Nat) (hG : Keeps b₀ s) : Keeps b₀ (State.ringError s (r)
    (code)) := by
  unfold State.ringError
  with_reducible repeat' first | assumption | apply Keeps.wr | apply Keeps.wrB | apply Keeps.event

theorem Keeps.doorbellBad {b₀ s : State} (r : Nat) (hG : Keeps b₀ s) : Keeps b₀ (State.doorbellBad s (r)) := by
  unfold State.doorbellBad
  with_reducible repeat' first | assumption | apply Keeps.wrB | apply Keeps.raise | apply Keeps.ringError

theorem Keeps.dmaError {b₀ s : State} (r : Nat) (addr : Nat) (write : Bool) (hG : Keeps b₀ s) : Keeps b₀
    (State.dmaError s (r) (addr) (write)) := by
  unfold State.dmaError
  with_reducible repeat' first | assumption | apply Keeps.wrB | apply Keeps.raiseWith | apply Keeps.ringError | split

theorem Keeps.setupBad {b₀ s : State} (r : Nat) (hG : Keeps b₀ s) : Keeps b₀ (State.setupBad s (r)) := by
  unfold State.setupBad
  with_reducible repeat' first | assumption | apply Keeps.wr | apply Keeps.wrB

theorem Keeps.flushHost {b₀ s : State} (hG : Keeps b₀ s) : Keeps b₀ (State.flushHost s) := by
  unfold State.flushHost
  with_reducible repeat' first | assumption | apply Keeps.flushIndex | apply Keeps.flushWb | apply Keeps.drainStore
                               | apply Keeps.showHeld | refine fun s x h => ?_ | refine fun s h => ?_ | split

theorem Keeps.doorbell {b₀ s : State} (r : Nat) (idx : Nat) (hG : Keeps b₀ s) : Keeps b₀ (State.doorbell s (r)
    (idx)) := by
  unfold State.doorbell
  dsimp only
  with_reducible repeat' first | assumption | apply Keeps.wr | apply Keeps.modRing | apply Keeps.restartWatch
                               | apply Keeps.doorbellBad | refine fun s x h => ?_ | refine fun s h => ?_ | split

theorem Keeps.consumed {b₀ s : State} (idx : Nat) (hG : Keeps b₀ s) : Keeps b₀ (State.consumed s (idx)) := by
  unfold State.consumed
  dsimp only
  with_reducible repeat' first | assumption | apply Keeps.wr | apply Keeps.flushHost | apply Keeps.doorbellBad | split

theorem Keeps.doorbellWrite {b₀ s : State} (r : Nat) (v : Word) (q : Requester) (hG : Keeps b₀ s) : Keeps b₀
    (State.doorbellWrite s (r) (v) (q)) := by
  unfold State.doorbellWrite
  with_reducible repeat' first | assumption | apply Keeps.hostWrite | apply Keeps.consumed | apply Keeps.doorbell
                               | refine fun s x h => ?_ | refine fun s h => ?_ | split

theorem Keeps.enableRing {b₀ s : State} (r : Nat) (hG : Keeps b₀ s) : Keeps b₀ (State.enableRing s (r)) := by
  unfold State.enableRing
  with_reducible repeat' first | assumption | apply Keeps.wrB | apply Keeps.wr | apply Keeps.modRing
                               | apply Keeps.indexWord | apply Keeps.flushHost | refine fun s x h => ?_
                               | refine fun s h => ?_ | split

theorem Keeps.disableRing {b₀ s : State} (r : Nat) (fetched : Nat) (hG : Keeps b₀ s) : Keeps b₀ (State.disableRing
    s (r) (fetched)) := by
  unfold State.disableRing
  dsimp only
  with_reducible repeat' first | assumption | apply Keeps.wrB | apply Keeps.modRing | refine fun s x h => ?_
                               | refine fun s h => ?_ | split

theorem Keeps.ringCtl {b₀ s : State} (r : Nat) (v : Word) (fetched : Nat) (q : Requester) (hG : Keeps b₀ s) : Keeps
    b₀ (State.ringCtl s (r) (v) (fetched) (q)) := by
  unfold State.ringCtl
  dsimp only
  with_reducible repeat' first | assumption | apply Keeps.hostWrite | apply Keeps.setupBad | apply Keeps.enableRing
                               | apply Keeps.wrB | apply Keeps.disableRing | refine fun s x h => ?_
                               | refine fun s h => ?_ | split

theorem Keeps.fixedWrite {b₀ s : State} (fixed : Bool) (r : Nat) (off : Nat) (v : Word) (q : Requester) (hG : Keeps
    b₀ s) : Keeps b₀ (State.fixedWrite s (fixed) (r) (off) (v) (q)) := by
  unfold State.fixedWrite
  dsimp only
  with_reducible repeat' first | assumption | apply Keeps.setupBad | apply Keeps.hostWrite | apply Keeps.id_
                               | refine fun s x h => ?_ | refine fun s h => ?_ | split

theorem Keeps.ringQuiesced {b₀ s : State} (r : Nat) (hG : Keeps b₀ s) : Keeps b₀ (State.ringQuiesced s (r)) := by
  unfold State.ringQuiesced
  dsimp only
  repeat' first | with_reducible assumption | with_reducible apply Keeps.each | with_reducible apply Keeps.wbPosted
                | with_reducible apply Keeps.wrB | with_reducible apply Keeps.enableRing | refine fun s x h => ?_
                | refine fun s h => ?_ | split | refine Keeps.upd ?_ rfl (Nat.le_refl _) (Nat.le_refl _)

theorem Keeps.dropWriteBacks {b₀ s : State} (r : Nat) (hG : Keeps b₀ s) : Keeps b₀ (State.dropWriteBacks s (r)) := by
  unfold State.dropWriteBacks
  repeat' first | with_reducible assumption | with_reducible apply Keeps.modRing | refine fun s x h => ?_
                | refine fun s h => ?_ | split | refine Keeps.upd ?_ rfl (Nat.le_refl _) (Nat.le_refl _)

theorem Keeps.dropRings {b₀ s : State} (hG : Keeps b₀ s) : Keeps b₀ (State.dropRings s) := by
  unfold State.dropRings
  dsimp only
  with_reducible repeat' first | assumption | apply Keeps.each | apply Keeps.disableRing | apply Keeps.dropWriteBacks
                               | refine fun s x h => ?_ | refine fun s h => ?_ | split

theorem Keeps.msixClear {b₀ s : State} (hG : Keeps b₀ s) : Keeps b₀ (State.msixClear s) := by
  unfold State.msixClear
  repeat' first | with_reducible assumption | refine Keeps.upd ?_ rfl (Nat.le_refl _) (Nat.le_refl _)

theorem Keeps.perst {b₀ s : State} (hG : Keeps b₀ s) : Keeps b₀ (State.perst s) := by
  unfold State.perst
  repeat' first | with_reducible assumption | with_reducible apply Keeps.msixClear
                | with_reducible apply Keeps.dropRings | refine Keeps.upd ?_ rfl (Nat.le_refl _) (Nat.le_refl _)

theorem Keeps.perstRelease {b₀ s : State} (hG : Keeps b₀ s) : Keeps b₀ (State.perstRelease s) := by
  unfold State.perstRelease
  repeat' first | with_reducible assumption | refine Keeps.upd ?_ rfl (Nat.le_refl _) (Nat.le_refl _)

theorem Keeps.flr {b₀ s : State} (hG : Keeps b₀ s) : Keeps b₀ (State.flr s) := by
  unfold State.flr
  repeat' first | with_reducible assumption | with_reducible apply Keeps.msixClear
                | with_reducible apply Keeps.dropRings | split
                | refine Keeps.upd ?_ rfl (Nat.le_refl _) (Nat.le_refl _)

theorem Keeps.bmeClear {b₀ s : State} (hG : Keeps b₀ s) : Keeps b₀ (State.bmeClear s) := by
  unfold State.bmeClear
  repeat' first | with_reducible assumption | with_reducible apply Keeps.dropRings | split
                | refine Keeps.upd ?_ rfl (Nat.le_refl _) (Nat.le_refl _)

theorem Keeps.bmeSet {b₀ s : State} (hG : Keeps b₀ s) : Keeps b₀ (State.bmeSet s) := by
  unfold State.bmeSet
  repeat' first | with_reducible assumption | with_reducible apply Keeps.flushHost | split
                | refine Keeps.upd ?_ rfl (Nat.le_refl _) (Nat.le_refl _)

theorem Keeps.linkDown {b₀ s : State} (hG : Keeps b₀ s) : Keeps b₀ (State.linkDown s) := by
  unfold State.linkDown
  repeat' first | with_reducible assumption | refine Keeps.upd ?_ rfl (Nat.le_refl _) (Nat.le_refl _)

theorem Keeps.linkUps {b₀ s : State} (hG : Keeps b₀ s) : Keeps b₀ (State.linkUps s) := by
  unfold State.linkUps
  repeat' first | with_reducible assumption | with_reducible apply Keeps.reset | with_reducible apply Keeps.flushHost
                | split | refine Keeps.upd ?_ rfl (Nat.le_refl _) (Nat.le_refl _)

theorem Keeps.d3hot {b₀ s : State} (hG : Keeps b₀ s) : Keeps b₀ (State.d3hot s) := by
  unfold State.d3hot
  repeat' first | with_reducible assumption | split | refine Keeps.upd ?_ rfl (Nat.le_refl _) (Nat.le_refl _)

theorem Keeps.d0 {b₀ s : State} (hG : Keeps b₀ s) : Keeps b₀ (State.d0 s) := by
  unfold State.d0
  repeat' first | with_reducible assumption | with_reducible apply Keeps.flushHost | split
                | refine Keeps.upd ?_ rfl (Nat.le_refl _) (Nat.le_refl _)

theorem Keeps.sendPending {b₀ s : State} (hG : Keeps b₀ s) : Keeps b₀ (State.sendPending s) := by
  unfold State.sendPending
  repeat' first | with_reducible assumption | with_reducible apply Keeps.each | with_reducible apply Keeps.emit
                | refine fun s x h => ?_ | refine fun s h => ?_ | split
                | refine Keeps.upd ?_ rfl (Nat.le_refl _) (Nat.le_refl _)

theorem Keeps.holdoff {b₀ s : State} (r : Nat) (hG : Keeps b₀ s) : Keeps b₀ (State.holdoff s (r)) := by
  unfold State.holdoff
  with_reducible repeat' first | assumption | apply Keeps.ringMessage | split

theorem Keeps.unmask {b₀ s : State} (v : Nat) (enable : Bool) (mask : Bool) (hG : Keeps b₀ s) : Keeps b₀ (State.unmask
    s (v) (enable) (mask)) := by
  unfold State.unmask
  repeat' first | with_reducible assumption | with_reducible apply Keeps.sendPending | refine fun s x h => ?_
                | refine fun s h => ?_ | split | refine Keeps.upd ?_ rfl (Nat.le_refl _) (Nat.le_refl _)

theorem Keeps.msixWrite {b₀ s : State} (off : Nat) (v : Word) (hG : Keeps b₀ s) : Keeps b₀ (State.msixWrite s (off)
    (v)) := by
  unfold State.msixWrite
  repeat' first | with_reducible assumption | with_reducible apply Keeps.sendPending | split
                | refine Keeps.upd ?_ rfl (Nat.le_refl _) (Nat.le_refl _)

theorem Keeps.ownHeartbeat {b₀ s : State} (c : Cmd) (hG : Keeps b₀ s) : Keeps b₀ (Machine.ownHeartbeat c s).1 := by
  unfold Machine.ownHeartbeat
  with_reducible repeat' first | assumption | apply Keeps.restartWatch | refine fun s x h => ?_ | refine fun s h => ?_

theorem Keeps.ownResume {b₀ s : State} (c : Cmd) (hG : Keeps b₀ s) : Keeps b₀ (Machine.ownResume c s).1 := by
  unfold Machine.ownResume
  repeat' first | with_reducible assumption | with_reducible apply Keeps.wrBit | with_reducible apply Keeps.event
                | with_reducible apply Keeps.showWatch | refine fun s x h => ?_ | refine fun s h => ?_ | split
                | refine Keeps.upd ?_ rfl (Nat.le_refl _) (Nat.le_refl _)

theorem Keeps.watchWarn {b₀ s : State} (hG : Keeps b₀ s) : Keeps b₀ (State.watchWarn s) := by
  unfold State.watchWarn
  repeat' first | with_reducible assumption | with_reducible apply Keeps.showWatch | with_reducible apply Keeps.event
                | with_reducible apply Keeps.sendVec | split
                | refine Keeps.upd ?_ rfl (Nat.le_refl _) (Nat.le_refl _)

theorem Keeps.planIdle {b₀ s : State} (p : Plan) (hG : Keeps b₀ s) : Keeps b₀ (State.planIdle s (p)) := by
  unfold State.planIdle
  repeat' first | with_reducible assumption | with_reducible apply Keeps.reachIdle
                | with_reducible apply Keeps.complete | with_reducible apply Keeps.startMove
                | with_reducible apply Keeps.showWatch | refine fun s x h => ?_ | refine fun s h => ?_ | split
                | refine Keeps.upd ?_ rfl (Nat.le_refl _) (Nat.le_refl _)

theorem Keeps.planStart {b₀ s : State} (p : Plan) (hG : Keeps b₀ s) : Keeps b₀ (State.planStart s (p)) := by
  unfold State.planStart
  dsimp only
  repeat' first | with_reducible assumption | with_reducible apply Keeps.complete | with_reducible apply Keeps.wrBit
                | with_reducible apply Keeps.showWatch | with_reducible apply Keeps.planIdle | refine fun s x h => ?_
                | refine fun s h => ?_ | split | refine Keeps.upd ?_ rfl (Nat.le_refl _) (Nat.le_refl _)

theorem Keeps.planDue {b₀ s : State} (hG : Keeps b₀ s) : Keeps b₀ (State.planDue s) := by
  unfold State.planDue
  repeat' first | with_reducible assumption | with_reducible apply Keeps.showWatch
                | with_reducible apply Keeps.planStart | refine fun s x h => ?_ | refine fun s h => ?_ | split
                | refine Keeps.upd ?_ rfl (Nat.le_refl _) (Nat.le_refl _)

theorem Keeps.expiredIn {b₀ s : State} (r : Role) (swap : Bool) (hG : Keeps b₀ s) : Keeps b₀ (State.expiredIn s (r)
    (swap)) := by
  unfold State.expiredIn
  repeat' first | with_reducible assumption | with_reducible apply Keeps.showWatch
                | with_reducible apply Keeps.swapStart | with_reducible apply Keeps.planDue | refine fun s x h => ?_
                | refine fun s h => ?_ | split | refine Keeps.upd ?_ rfl (Nat.le_refl _) (Nat.le_refl _)

theorem Keeps.watchExpired {b₀ s : State} (hG : Keeps b₀ s) : Keeps b₀ (State.watchExpired s) := by
  unfold State.watchExpired
  dsimp only
  repeat' first | with_reducible assumption | with_reducible apply Keeps.wrB | with_reducible apply Keeps.inc
                | with_reducible apply Keeps.raise | with_reducible apply Keeps.event
                | with_reducible apply Keeps.sendVec | with_reducible apply Keeps.resolveWhere
                | with_reducible apply Keeps.expiredIn | refine fun s x h => ?_ | refine fun s h => ?_ | split
                | refine Keeps.upd ?_ rfl (Nat.le_refl _) (Nat.le_refl _)

theorem Keeps.watchSwapAtMark {b₀ s : State} (hG : Keeps b₀ s) : Keeps b₀ (State.watchSwapAtMark s) := by
  unfold State.watchSwapAtMark
  repeat' first | with_reducible assumption | with_reducible apply Keeps.planDue | refine fun s x h => ?_
                | refine fun s h => ?_ | split | refine Keeps.upd ?_ rfl (Nat.le_refl _) (Nat.le_refl _)

theorem Keeps.planAtMark {b₀ s : State} (hG : Keeps b₀ s) : Keeps b₀ (State.planAtMark s) := by
  unfold State.planAtMark
  dsimp only
  repeat' first | with_reducible assumption | with_reducible apply Keeps.watchSwapAtMark
                | with_reducible apply Keeps.planStart | with_reducible apply Keeps.complete
                | with_reducible apply Keeps.rampStep | with_reducible apply Keeps.planIdle | refine fun s x h => ?_
                | refine fun s h => ?_ | split | refine Keeps.upd ?_ rfl (Nat.le_refl _) (Nat.le_refl _)

theorem Keeps.planRampEnd {b₀ s : State} (hG : Keeps b₀ s) : Keeps b₀ (State.planRampEnd s) := by
  unfold State.planRampEnd
  dsimp only
  repeat' first | with_reducible assumption | with_reducible apply Keeps.complete
                | with_reducible apply Keeps.advanceTo | with_reducible apply Keeps.rampStep
                | with_reducible apply Keeps.planIdle | refine fun s x h => ?_ | refine fun s h => ?_ | split
                | refine Keeps.upd ?_ rfl (Nat.le_refl _) (Nat.le_refl _)

theorem Keeps.overlayWrite {b₀ s : State} (v : Word) (q : Requester) (hG : Keeps b₀ s) : Keeps b₀
    (State.overlayWrite s (v) (q)) := by
  unfold State.overlayWrite
  repeat' (first | (with_reducible assumption) | (with_reducible apply Keeps.hostWrite)
                 | (with_reducible apply Keeps.setReg) | (with_reducible apply Keeps.wrB)
                 | (with_reducible apply Keeps.wr) | (with_reducible apply Keeps.each)
                 | (with_reducible apply Keeps.unloopPound) | (with_reducible apply Keeps.pwmOffAll)
                 | (with_reducible apply Keeps.loopPound) | (with_reducible apply Keeps.overlayEvent)
                 | (refine fun s x h => ?_) | (refine fun s h => ?_)
                 | ((try lift_lets); intro x; refine Keeps.cutl (s := x) ?_ ?_; rotate_left; (intro hx; clear_value x); rotate_left; unfold x)
                 | ((try lift_lets); intro x) | split
                 | (with_reducible refine Keeps.upd ?_ ?_ ?_ ?_; rotate_left; exact rfl; (first | exact Nat.le_refl _ | exact Nat.le_max_left _ _ | exact Nat.le_add_right _ _); (first | exact Nat.le_refl _ | exact Nat.le_succ _); first | (with_reducible assumption) | (with_reducible apply Keeps.hostWrite) | (with_reducible apply Keeps.setReg) | (with_reducible apply Keeps.wrB) | (with_reducible apply Keeps.wr) | (with_reducible apply Keeps.each) | (with_reducible apply Keeps.unloopPound) | (with_reducible apply Keeps.pwmOffAll) | (with_reducible apply Keeps.loopPound) | (with_reducible apply Keeps.overlayEvent) | (with_reducible refine Keeps.of2 ‹_ = (_, _)› ?_) | (with_reducible refine Keeps.of22 ‹_ = (_, _, _)› ?_) | (with_reducible refine Keeps.of1 ‹_ = (_, _)› ?_))
                 | (with_reducible refine Keeps.of2 ‹_ = (_, _)› ?_)
                 | (with_reducible refine Keeps.of22 ‹_ = (_, _, _)› ?_)
                 | (with_reducible refine Keeps.of1 ‹_ = (_, _)› ?_) | (dsimp -zeta only) | (dsimp +zetaDelta only))

theorem Keeps.cycleWrite {b₀ s : State} (v : Word) (q : Requester) (hG : Keeps b₀ s) : Keeps b₀ (State.cycleWrite s
    (v) (q)) := by
  unfold State.cycleWrite
  repeat' first | with_reducible assumption | with_reducible apply Keeps.hostWrite | with_reducible apply Keeps.wrB
                | with_reducible apply Keeps.wr | refine fun s x h => ?_ | refine fun s h => ?_ | split
                | refine Keeps.upd ?_ rfl (Nat.le_refl _) (Nat.le_refl _)

theorem Keeps.setStream {b₀ s : State} (i : Nat) (x : Stream) (hG : Keeps b₀ s) : Keeps b₀ (State.setStream s (i)
    (x)) := by
  unfold State.setStream
  repeat' first | with_reducible assumption | refine Keeps.upd ?_ rfl (Nat.le_refl _) (Nat.le_refl _)

theorem Keeps.tlmCtl {b₀ s : State} (i : Nat) (v : Word) (list : Option (List Word)) (q : Requester) (hG : Keeps b₀
    s) : Keeps b₀ (State.tlmCtl s (i) (v) (list) (q)) := by
  unfold State.tlmCtl
  dsimp only
  with_reducible repeat' first | assumption | apply Keeps.hostWrite | apply Keeps.setupBad | apply Keeps.wrB
                               | apply Keeps.wr | apply Keeps.setStream | refine fun s x h => ?_
                               | refine fun s h => ?_ | split

theorem Keeps.dropBlock {b₀ s : State} (i : Nat) (x : Stream) (hG : Keeps b₀ s) : Keeps b₀ (State.dropBlock s (i)
    (x)) := by
  unfold State.dropBlock
  with_reducible repeat' first | assumption | apply Keeps.setStream | apply Keeps.inc

theorem Keeps.blockWrite {b₀ s : State} (i : Nat) (hG : Keeps b₀ s) : Keeps b₀ (State.blockWrite s (i)) := by
  unfold State.blockWrite
  dsimp only
  with_reducible repeat' first | assumption | apply Keeps.dropBlock | apply Keeps.completePosted | apply Keeps.emit
                               | apply Keeps.setStream | split

end Sys2Proof.Machine
end

