-- ==== Sys2Proof/Laws/KeepCanal.lean ====
section
/-! SUPPORT. What each operation of Machine/Canal.lean keeps (Laws/Keeps.lean). -/

set_option Elab.async false

namespace Sys2Proof.Machine

open Sys2Proof

theorem Keeps.capByDelay {b₀ s : State} (p : Nat) (hG : Keeps b₀ s) : Keeps b₀ (State.capByDelay s (p)) := by
  unfold State.capByDelay
  dsimp only
  with_reducible repeat' first | assumption | apply Keeps.each | apply Keeps.wr | apply Keeps.raise
                               | refine fun s x h => ?_ | refine fun s h => ?_ | split

theorem Keeps.showPaths {b₀ s : State} (p : Nat) (hG : Keeps b₀ s) : Keeps b₀ (State.showPaths s (p)) := by
  unfold State.showPaths
  with_reducible repeat' first | assumption | apply Keeps.each | apply Keeps.wr | refine fun s x h => ?_
                               | refine fun s h => ?_ | split

theorem Keeps.showReached {b₀ s : State} (p : Nat) (hG : Keeps b₀ s) : Keeps b₀ (State.showReached s (p)) := by
  unfold State.showReached
  dsimp only
  with_reducible repeat' first | assumption | apply Keeps.each | apply Keeps.wrB | apply Keeps.wr | apply Keeps.wrBit
                               | apply Keeps.showPaths | refine fun s x h => ?_ | refine fun s h => ?_ | split

theorem Keeps.evalService {b₀ s : State} (p : Nat) (hG : Keeps b₀ s) : Keeps b₀ (State.evalService s (p)) := by
  unfold State.evalService
  repeat' (first | (with_reducible assumption) | (with_reducible apply Keeps.wr) | (with_reducible apply Keeps.wrB)
                 | (with_reducible apply Keeps.showReached) | (with_reducible apply Keeps.event)
                 | (with_reducible apply Keeps.level) | (with_reducible apply Keeps.modPound)
                 | (with_reducible apply Keeps.poundOut) | (with_reducible apply Keeps.poundBack)
                 | (refine fun s x h => ?_) | (refine fun s h => ?_)
                 | ((try lift_lets); intro x; refine Keeps.cutl (s := x) ?_ ?_; rotate_left; (intro hx; clear_value x); rotate_left; unfold x)
                 | ((try lift_lets); intro x) | split
                 | (with_reducible refine Keeps.upd ?_ ?_ ?_ ?_; rotate_left; exact rfl; (first | exact Nat.le_refl _ | exact Nat.le_max_left _ _ | exact Nat.le_add_right _ _); (first | exact Nat.le_refl _ | exact Nat.le_succ _); first | (with_reducible assumption) | (with_reducible apply Keeps.wr) | (with_reducible apply Keeps.wrB) | (with_reducible apply Keeps.showReached) | (with_reducible apply Keeps.event) | (with_reducible apply Keeps.level) | (with_reducible apply Keeps.modPound) | (with_reducible apply Keeps.poundOut) | (with_reducible apply Keeps.poundBack) | (with_reducible refine Keeps.of2 ‹_ = (_, _)› ?_) | (with_reducible refine Keeps.of22 ‹_ = (_, _, _)› ?_) | (with_reducible refine Keeps.of1 ‹_ = (_, _)› ?_))
                 | (with_reducible refine Keeps.of2 ‹_ = (_, _)› ?_)
                 | (with_reducible refine Keeps.of22 ‹_ = (_, _, _)› ?_)
                 | (with_reducible refine Keeps.of1 ‹_ = (_, _)› ?_) | (dsimp -zeta only) | (dsimp +zetaDelta only))

theorem Keeps.countOut {b₀ s : State} (p : Nat) (hG : Keeps b₀ s) : Keeps b₀ (State.countOut s (p)) := by
  unfold State.countOut
  with_reducible repeat' first | assumption | apply Keeps.modPound | refine fun s x h => ?_ | refine fun s h => ?_
                               | split

theorem Keeps.evalServices {b₀ s : State} (hG : Keeps b₀ s) : Keeps b₀ (State.evalServices s) := by
  unfold State.evalServices
  with_reducible repeat' first | assumption | apply Keeps.each | apply Keeps.evalService | apply Keeps.countOut
                               | apply Keeps.regroupAll | refine fun s x h => ?_ | refine fun s h => ?_

theorem Keeps.judgeDark {b₀ s : State} (p : Nat) (hG : Keeps b₀ s) : Keeps b₀ (State.judgeDark s (p)) := by
  unfold State.judgeDark
  dsimp only
  with_reducible repeat' first | assumption | apply Keeps.each | apply Keeps.wrB | apply Keeps.wrBit
                               | apply Keeps.event | apply Keeps.raise | apply Keeps.suspect | refine fun s x h => ?_
                               | refine fun s h => ?_ | split

theorem Keeps.reachSettled {b₀ s : State} (n : Nat) (hG : Keeps b₀ s) : Keeps b₀ (State.reachSettled s (n)) := by
  unfold State.reachSettled
  with_reducible repeat' first | assumption | apply Keeps.modLane | apply Keeps.leaveEnum | apply Keeps.judgeDark
                               | refine fun s x h => ?_ | refine fun s h => ?_ | split

theorem Keeps.writeCellSlots {b₀ s : State} (g : Nat) (k : Nat) (full : Bool) (b : Bytes) (hG : Keeps b₀ s) : Keeps
    b₀ (State.writeCellSlots s (g) (k) (full) (b)) := by
  unfold State.writeCellSlots
  with_reducible repeat' first | assumption | apply Keeps.each | apply Keeps.writeSlot | refine fun s x h => ?_
                               | refine fun s h => ?_ | split

theorem Keeps.cellNews {b₀ s : State} (g : Nat) (k : Nat) (hG : Keeps b₀ s) : Keeps b₀ (State.cellNews s (g) (k))
    := by
  unfold State.cellNews
  repeat' (first | (with_reducible assumption) | (with_reducible apply Keeps.modCell)
                 | (with_reducible apply Keeps.suspect) | (with_reducible apply Keeps.modPmgr)
                 | (refine fun s x h => ?_) | (refine fun s h => ?_)
                 | ((try lift_lets); intro x; refine Keeps.cutl (s := x) ?_ ?_; rotate_left; (intro hx; clear_value x); rotate_left; unfold x)
                 | ((try lift_lets); intro x) | split
                 | (with_reducible refine Keeps.upd ?_ ?_ ?_ ?_; rotate_left; exact rfl; (first | exact Nat.le_refl _ | exact Nat.le_max_left _ _ | exact Nat.le_add_right _ _); (first | exact Nat.le_refl _ | exact Nat.le_succ _); first | (with_reducible assumption) | (with_reducible apply Keeps.modCell) | (with_reducible apply Keeps.suspect) | (with_reducible apply Keeps.modPmgr) | (with_reducible refine Keeps.of2 ‹_ = (_, _)› ?_) | (with_reducible refine Keeps.of22 ‹_ = (_, _, _)› ?_) | (with_reducible refine Keeps.of1 ‹_ = (_, _)› ?_))
                 | (with_reducible refine Keeps.of2 ‹_ = (_, _)› ?_)
                 | (with_reducible refine Keeps.of22 ‹_ = (_, _, _)› ?_)
                 | (with_reducible refine Keeps.of1 ‹_ = (_, _)› ?_) | (dsimp -zeta only) | (dsimp +zetaDelta only))

theorem Keeps.takeClosure {b₀ s : State} (g : Nat) (hG : Keeps b₀ s) : Keeps b₀ (State.takeClosure s (g)) := by
  unfold State.takeClosure
  dsimp only
  with_reducible repeat' first | assumption | apply Keeps.modPound | refine fun s x h => ?_ | refine fun s h => ?_
                               | split

theorem Keeps.acceptState {b₀ s : State} (g k : Nat) (b : Barge) (hG : Keeps b₀ s) : Keeps b₀ (State.acceptState s (g)
    (k) (b)) := by
  unfold State.acceptState
  dsimp only
  with_reducible repeat' first | assumption | apply Keeps.modLink | apply Keeps.showPaths | apply Keeps.capByDelay
                               | apply Keeps.writeCellSlots | apply Keeps.writeLegSum | split

theorem Keeps.showNode {b₀ s : State} (g : Nat) (hG : Keeps b₀ s) : Keeps b₀ (State.showNode s (g)) := by
  unfold State.showNode
  dsimp only
  repeat' first | with_reducible assumption | with_reducible apply Keeps.wr | with_reducible apply Keeps.event | split
                | refine Keeps.upd ?_ rfl (Nat.le_refl _) (Nat.le_refl _)

theorem Keeps.stateFrom {b₀ s : State} (west : Bool) (b : Barge) (t : Nat) (hG : Keeps b₀ s) : Keeps b₀
    (State.stateFrom s (west) (b) (t)) := by
  unfold State.stateFrom
  dsimp only
  with_reducible repeat' first | assumption | apply Keeps.screen | apply Keeps.acceptState | apply Keeps.showNode
                               | apply Keeps.cellNews | apply Keeps.takeClosure | apply Keeps.prechargeDone
                               | refine fun s h => ?_ | split

theorem Keeps.showWindows {b₀ s : State} (hG : Keeps b₀ s) : Keeps b₀ (State.showWindows s) := by
  unfold State.showWindows
  with_reducible repeat' first | assumption | apply Keeps.wr

theorem Keeps.ackReport {b₀ s : State} (g : Nat) (seq : Nat) (hG : Keeps b₀ s) : Keeps b₀ (State.ackReport s (g)
    (seq)) := by
  unfold State.ackReport
  repeat' first | with_reducible assumption | refine Keeps.upd ?_ rfl (Nat.le_refl _) (Nat.le_refl _)

theorem Keeps.joinWindow {b₀ s : State} (w : CoalWin) (g : Nat) (cause : Nat) (hG : Keeps b₀ s) : Keeps b₀
    (State.joinWindow s (w) (g) (cause)) := by
  unfold State.joinWindow
  dsimp only
  repeat' first | with_reducible assumption | with_reducible apply Keeps.modLog | with_reducible apply Keeps.setLatch
                | with_reducible apply Keeps.faultIrq | refine fun s x h => ?_ | refine fun s h => ?_ | split
                | refine Keeps.upd ?_ rfl (Nat.le_refl _) (Nat.le_refl _)

theorem Keeps.logReport {b₀ s : State} (n : Nat) (g : Nat) (cause : Nat) (value : F32) (opens : Bool) (tell : Bool)
    (hG : Keeps b₀ s) : Keeps b₀ (State.logReport s (n) (g) (cause) (value) (opens) (tell)) := by
  unfold State.logReport
  dsimp only
  repeat' first | with_reducible assumption | with_reducible apply Keeps.setLatch
                | with_reducible apply Keeps.countLogged | with_reducible apply Keeps.writeLog
                | with_reducible apply Keeps.faultRaised | with_reducible apply Keeps.showWindows
                | with_reducible apply Keeps.capture | with_reducible apply Keeps.faultIrq | split
                | refine Keeps.upd ?_ rfl (Nat.le_refl _) (Nat.le_refl _)

theorem Keeps.cellReport {b₀ s : State} (g : Nat) (b : Bytes) (hG : Keeps b₀ s) : Keeps b₀ (State.cellReport s (g)
    (b)) := by
  unfold State.cellReport
  dsimp only
  with_reducible repeat' first | assumption | apply Keeps.ackReport | apply Keeps.suppress | apply Keeps.joinWindow
                               | apply Keeps.logReport | apply Keeps.inc | apply Keeps.suspect
                               | refine fun s x h => ?_ | refine fun s h => ?_ | split

theorem Keeps.closeWindows {b₀ s : State} (hG : Keeps b₀ s) : Keeps b₀ (State.closeWindows s) := by
  unfold State.closeWindows
  dsimp only
  repeat' first | with_reducible assumption | with_reducible apply Keeps.each | with_reducible apply Keeps.modLog
                | with_reducible apply Keeps.event | with_reducible apply Keeps.showWindows | refine fun s x h => ?_
                | refine fun s h => ?_ | split | refine Keeps.upd ?_ rfl (Nat.le_refl _) (Nat.le_refl _)

theorem Keeps.faultFrom {b₀ s : State} (b : Barge) (hG : Keeps b₀ s) : Keeps b₀ (State.faultFrom s (b)) := by
  unfold State.faultFrom
  with_reducible repeat' first | assumption | apply Keeps.screen | apply Keeps.cellReport | refine fun s x h => ?_
                               | refine fun s h => ?_ | split

theorem Keeps.ownService {b₀ s : State} (c : Cmd) (hG : Keeps b₀ s) : Keeps b₀ (Machine.ownService c s).1 := by
  unfold Machine.ownService
  dsimp only
  with_reducible repeat' first | assumption | apply Keeps.modLink | refine fun s x h => ?_ | refine fun s h => ?_
                               | split

theorem Keeps.serviceDone {b₀ s : State} (g : Nat) (r : ServiceReq) (result : Nat) (data : Nat) (hG : Keeps b₀ s) :
    Keeps b₀ (State.serviceDone s (g) (r) (result) (data)) := by
  unfold State.serviceDone
  with_reducible repeat' first | assumption | apply Keeps.modLink | apply Keeps.event | refine fun s x h => ?_
                               | refine fun s h => ?_ | split

theorem Keeps.serviceFrom {b₀ s : State} (b : Barge) (hG : Keeps b₀ s) : Keeps b₀ (State.serviceFrom s (b)) := by
  unfold State.serviceFrom
  dsimp only
  with_reducible repeat' first | assumption | apply Keeps.screen | apply Keeps.serviceDone | refine fun s x h => ?_
                               | refine fun s h => ?_ | split

theorem Keeps.serviceTimeout {b₀ s : State} (g : Nat) (hG : Keeps b₀ s) : Keeps b₀ (State.serviceTimeout s (g)) := by
  unfold State.serviceTimeout
  with_reducible repeat' first | assumption | apply Keeps.serviceDone | split

theorem Keeps.settingWrite {b₀ s : State} (g : Nat) (hG : Keeps b₀ s) : Keeps b₀ (State.settingWrite s (g)) := by
  unfold State.settingWrite
  dsimp only
  with_reducible repeat' first | assumption | apply Keeps.modLink | refine fun s x h => ?_ | refine fun s h => ?_
                               | split

theorem Keeps.upstream {b₀ s : State} (n : Nat) (b : Barge) (t : Nat) (hG : Keeps b₀ s) : Keeps b₀ (State.upstream s
    (n) (b) (t)) := by
  unfold State.upstream
  with_reducible repeat' first | assumption | apply Keeps.stateFrom | apply Keeps.faultFrom | apply Keeps.serviceFrom
                               | apply Keeps.screen | apply Keeps.nodeReport | refine fun s x h => ?_
                               | refine fun s h => ?_ | split

theorem Keeps.received {b₀ s : State} (n : Nat) (b : Barge) (t : Nat) (hG : Keeps b₀ s) : Keeps b₀ (State.received s
    (n) (b) (t)) := by
  unfold State.received
  with_reducible repeat' first | assumption | apply Keeps.sendRelay | apply Keeps.upstream | refine fun s x h => ?_
                               | refine fun s h => ?_ | split

theorem Keeps.relayed {b₀ s : State} (ll : Nat) (kind : Nat) (n : Nat) (b : Barge) (t : Nat) (hG : Keeps b₀ s) : Keeps
    b₀ (State.relayed s (ll) (kind) (n) (b) (t)) := by
  unfold State.relayed
  dsimp only
  repeat' first | with_reducible assumption | with_reducible apply Keeps.upstream | with_reducible apply Keeps.screen
                | with_reducible apply Keeps.emit | refine fun s x h => ?_ | refine fun s h => ?_ | split
                | refine Keeps.upd ?_ rfl (Nat.le_refl _) (Nat.le_refl _)

theorem Keeps.delayMeasured {b₀ s : State} (n : Nat) (rtt : Nat) (b : Barge) (hG : Keeps b₀ s) : Keeps b₀
    (State.delayMeasured s (n) (rtt) (b)) := by
  unfold State.delayMeasured
  dsimp only
  with_reducible repeat' first | assumption | apply Keeps.screen | apply Keeps.modLane | apply Keeps.showPaths
                               | apply Keeps.capByDelay | refine fun s x h => ?_ | refine fun s h => ?_ | split

theorem Keeps.delayReq {b₀ s : State} (n : Nat) (turn : Nat) (b : Barge) (hG : Keeps b₀ s) : Keeps b₀ (State.delayReq
    s (n) (turn) (b)) := by
  unfold State.delayReq
  with_reducible repeat' first | assumption | apply Keeps.screen | apply Keeps.sendTrain | refine fun s x h => ?_
                               | refine fun s h => ?_ | split

theorem Keeps.sendEnd {b₀ s : State} (n : Nat) (typ : Nat) (position : Nat) (payload : Bytes) (hG : Keeps b₀ s) :
    Keeps b₀ (State.sendEnd s (n) (typ) (position) (payload)) := by
  unfold State.sendEnd
  with_reducible repeat' first | assumption | apply Keeps.sendBarge | apply Keeps.bargeSeq | apply Keeps.sendRelay
                               | split

theorem Keeps.noteCommand {b₀ s : State} (g : Nat) (hG : Keeps b₀ s) : Keeps b₀ (State.noteCommand s (g)) := by
  unfold State.noteCommand
  with_reducible repeat' first | assumption | apply Keeps.modCell | refine fun s x h => ?_ | refine fun s h => ?_
                               | split

theorem Keeps.noteHold {b₀ s : State} (g : Nat) (typ : Nat) (action : Nat) (hG : Keeps b₀ s) : Keeps b₀
    (State.noteHold s (g) (typ) (action)) := by
  unfold State.noteHold
  with_reducible repeat' first | assumption | apply Keeps.modCell | refine fun s x h => ?_ | refine fun s h => ?_
                               | split

theorem Keeps.downlinkCell {b₀ s : State} (n : Nat) (g : Nat) (i : Nat) (hG : Keeps b₀ s) : Keeps b₀
    (State.downlinkCell s (n) (g) (i)) := by
  unfold State.downlinkCell
  dsimp only
  with_reducible repeat' first | assumption | apply Keeps.launch | apply Keeps.sendEnd | apply Keeps.modCell
                               | refine fun s x h => ?_ | refine fun s h => ?_ | split

theorem Keeps.noteDownlink {b₀ s : State} (p : Nat) (hG : Keeps b₀ s) : Keeps b₀ (State.noteDownlink s (p)) := by
  unfold State.noteDownlink
  split
  · exact Keeps.each (fun _ _ h => h.noteHold _ _ _) hG
  · exact Keeps.each (fun _ _ h => h.noteCommand _) hG

theorem Keeps.downlinkPound {b₀ s : State} (p : Nat) (hG : Keeps b₀ s) : Keeps b₀ (State.downlinkPound s (p)) := by
  unfold State.downlinkPound
  extract_lets _ _ _ t
  have h : Keeps b₀ t := Keeps.each (fun _ _ h => h.downlinkCell _ _ _) hG
  exact Keeps.each (fun _ _ h => h.downlinkCell _ _ _) h

theorem Keeps.downlink {b₀ s : State} (hG : Keeps b₀ s) : Keeps b₀ (State.downlink s) := by
  unfold State.downlink
  split
  · exact hG
  · extract_lets _ t told u
    have h : Keeps b₀ t := Keeps.upd hG rfl (Nat.le_refl _) (Nat.le_refl _)
    have h' : Keeps b₀ u := Keeps.each (fun _ _ h => h.noteDownlink _) h
    clear_value u
    split
    · exact Keeps.each (fun _ _ h => h.downlinkPound _) h'
    · exact h'

theorem Keeps.sendService {b₀ s : State} (n : Nat) (typ : Nat) (position : Nat) (payload : Int → Bytes) (w : Window)
    (hG : Keeps b₀ s) : Keeps b₀ (State.sendService s (n) (typ) (position) (payload) (w)).1 := by
  unfold State.sendService
  dsimp only
  repeat' first | with_reducible assumption | with_reducible apply Keeps.sendEnd | refine fun s x h => ?_
                | refine fun s h => ?_ | split | refine Keeps.upd ?_ rfl (Nat.le_refl _) (Nat.le_refl _)

theorem Keeps.sendRequest {b₀ s : State} (n : Nat) (w : Window) (hG : Keeps b₀ s) : Keeps b₀ (State.sendRequest s (n)
    (w)).1 := by
  unfold State.sendRequest
  dsimp only
  with_reducible repeat' first | assumption | apply Keeps.each | apply Keeps.settingWrite | apply Keeps.sendService
                               | apply Keeps.modLink | refine fun s x h => ?_ | refine fun s h => ?_ | split

theorem Keeps.broadcastIf {b₀ : State} (due : Bool) (n typ : Nat) (payload : Int → Bytes) (q : State × Window)
    (hG : Keeps b₀ q.1) : Keeps b₀ (Machine.broadcastIf due n typ payload q).1 := by
  unfold Machine.broadcastIf
  with_reducible repeat' first | assumption | apply Keeps.sendService | split

theorem Keeps.serviceBarges {b₀ s : State} (n : Nat) (w : Window) (hG : Keeps b₀ s) : Keeps b₀ (State.serviceBarges s
    (n) (w)).1 := by
  unfold State.serviceBarges
  extract_lets p gate q1 q2 q3 q4
  have h1 : Keeps b₀ q1.1 := Keeps.broadcastIf _ _ _ _ _ hG
  have h2 : Keeps b₀ q2.1 := Keeps.broadcastIf _ _ _ _ _ h1
  have h3 : Keeps b₀ q3.1 := Keeps.broadcastIf _ _ _ _ _ h2
  have h4 : Keeps b₀ q4.1 := Keeps.broadcastIf _ _ _ _ _ h3
  clear_value q4
  split
  · exact h4.sendRequest _ _
  · exact h4

theorem Keeps.serviceEnd {b₀ s : State} (n : Nat) (hG : Keeps b₀ s) : Keeps b₀ (State.serviceEnd s (n)) := by
  unfold State.serviceEnd
  extract_lets _ _ _
  split
  · exact hG
  · split
    · exact hG
    · extract_lets q
      have h : Keeps b₀ q.1 := hG.serviceBarges _ _
      clear_value q
      split
      · exact h.sendDelayReq _
      · exact h

theorem Keeps.serviceWindow {b₀ s : State} (hG : Keeps b₀ s) : Keeps b₀ (State.serviceWindow s) := by
  unfold State.serviceWindow
  with_reducible repeat' first | assumption | apply Keeps.advanceTo | apply Keeps.each | apply Keeps.serviceEnd
                               | refine fun s x h => ?_ | refine fun s h => ?_ | split

theorem Keeps.judgeMisses {b₀ s : State} (hG : Keeps b₀ s) : Keeps b₀ (State.judgeMisses s) := by
  unfold State.judgeMisses
  dsimp only
  with_reducible repeat' first | assumption | apply Keeps.each | apply Keeps.inc | apply Keeps.modCell
                               | apply Keeps.suspect | refine fun s x h => ?_ | refine fun s h => ?_ | split

theorem Keeps.steer {b₀ s : State} (p : Nat) (hG : Keeps b₀ s) : Keeps b₀ (State.steer s (p)) := by
  unfold State.steer
  dsimp only
  with_reducible repeat' first | assumption | apply Keeps.wr | apply Keeps.modPound | apply Keeps.level
                               | refine fun s x h => ?_ | refine fun s h => ?_ | split

end Sys2Proof.Machine
end

