-- ==== Sys2Proof/Laws/KeepCycle.lean ====
section
/-! SUPPORT. What each operation of Machine/Cycle.lean keeps (Laws/Keeps.lean). -/

set_option Elab.async false

namespace Sys2Proof.Machine

open Sys2Proof

theorem Keeps.toMark {b₀ s : State} (hG : Keeps b₀ s) : Keeps b₀ (State.toMark s) := by
  unfold State.toMark
  repeat' first | with_reducible assumption | with_reducible apply Keeps.advanceTo
                | with_reducible apply Keeps.scheduleDone | with_reducible apply Keeps.overrun
                | with_reducible apply Keeps.wr | refine Keeps.upd ?_ rfl (Nat.le_refl _) (Nat.le_refl _)

theorem Keeps.takePeriod {b₀ s : State} (hG : Keeps b₀ s) : Keeps b₀ (State.takePeriod s) := by
  unfold State.takePeriod
  repeat' first | with_reducible assumption | with_reducible apply Keeps.wr | split
                | refine Keeps.upd ?_ rfl (Nat.le_refl _) (Nat.le_refl _)

theorem Keeps.takeHolderGrid {b₀ s : State} (hG : Keeps b₀ s) : Keeps b₀ (State.takeHolderGrid s) := by
  unfold State.takeHolderGrid
  repeat' first | with_reducible assumption | with_reducible apply Keeps.wr | refine fun s x h => ?_
                | refine fun s h => ?_ | split | refine Keeps.upd ?_ rfl (Nat.le_refl _) (Nat.le_refl _)

theorem Keeps.takeMetered {b₀ s : State} (hG : Keeps b₀ s) : Keeps b₀ (State.takeMetered s) := by
  unfold State.takeMetered
  repeat' first | with_reducible assumption | with_reducible apply Keeps.each | with_reducible apply Keeps.putSlot
                | refine fun s x h => ?_ | refine fun s h => ?_ | split
                | refine Keeps.upd ?_ rfl (Nat.le_refl _) (Nat.le_refl _)

theorem Keeps.takeStaged {b₀ s : State} (hG : Keeps b₀ s) : Keeps b₀ (State.takeStaged s) := by
  unfold State.takeStaged
  repeat' first | with_reducible assumption | with_reducible apply Keeps.each | with_reducible apply Keeps.putSlot
                | refine fun s x h => ?_ | refine fun s h => ?_ | split
                | refine Keeps.upd ?_ rfl (Nat.le_refl _) (Nat.le_refl _)

theorem Keeps.dueEffect {b₀ s : State} (x : Due) (hG : Keeps b₀ s) : Keeps b₀ (State.dueEffect s (x)) := by
  unfold State.dueEffect
  with_reducible repeat' first | assumption | apply Keeps.gridEffect | apply Keeps.wr | apply Keeps.poundEnable
                               | apply Keeps.poundDisable | apply Keeps.cellBypass | apply Keeps.sluiceCmd
                               | apply Keeps.auxRun | apply Keeps.auxStop | split

theorem Keeps.takeDue {b₀ s : State} (hG : Keeps b₀ s) : Keeps b₀ (State.takeDue s) := by
  unfold State.takeDue
  repeat' first | with_reducible assumption | with_reducible apply Keeps.each | with_reducible apply Keeps.dueEffect
                | refine Keeps.upd ?_ rfl (Nat.le_refl _) (Nat.le_refl _)

theorem Keeps.frameAtMark {b₀ s : State} (entered : Bool) (hG : Keeps b₀ s) : Keeps b₀ (State.frameAtMark s
    (entered)) := by
  unfold State.frameAtMark
  repeat' first | with_reducible assumption | with_reducible apply Keeps.advanceFrame | split
                | refine Keeps.upd ?_ rfl (Nat.le_refl _) (Nat.le_refl _)

theorem Keeps.markFirst {b₀ s : State} (hG : Keeps b₀ s) : Keeps b₀ (State.markFirst s) := by
  unfold State.markFirst
  with_reducible repeat' first | assumption | apply Keeps.takeHolderGrid | apply Keeps.toMark
                               | apply Keeps.captureFinal | apply Keeps.takePeriod | apply Keeps.stepAtMark
                               | apply Keeps.showWindow | apply Keeps.runMirrors | apply Keeps.swapBank
                               | apply Keeps.takeStaged | apply Keeps.powerAtMark | apply Keeps.takeFollow
                               | apply Keeps.takeReturns | apply Keeps.takeUpdate | refine fun s x h => ?_
                               | refine fun s h => ?_ | split

theorem Keeps.markCommands {b₀ s : State} (hG : Keeps b₀ s) : Keeps b₀ (State.markCommands s) := by
  unfold State.markCommands
  with_reducible repeat' first | assumption | apply Keeps.shutRamp | apply Keeps.evalServices
                               | apply Keeps.judgeMisses | apply Keeps.takeDue | apply Keeps.runClears
                               | apply Keeps.planAtMark

theorem Keeps.markBasin {b₀ s : State} (hG : Keeps b₀ s) : Keeps b₀ (State.markBasin s) := by
  unfold State.markBasin
  with_reducible repeat' first | assumption | apply Keeps.feedStrings | apply Keeps.meterStrings | apply Keeps.each | apply Keeps.guardString
                               | apply Keeps.sluicePending | apply Keeps.judgeLeg | apply Keeps.prechargeDone
                               | apply Keeps.blendEnd | apply Keeps.rejoinCells | apply Keeps.limitPower
                               | apply Keeps.auxAllowance | apply Keeps.recheckDeferred | apply Keeps.autoSluice
                               | apply Keeps.sluiceAdvance

theorem Keeps.sampleMark {b₀ s : State} (xs : List MarkSample) (hG : Keeps b₀ s) : Keeps b₀ (State.sampleMark s (xs))
    := by
  unfold State.sampleMark
  dsimp only
  with_reducible repeat' first | assumption | apply Keeps.markFirst | apply Keeps.takeMetered
                               | apply Keeps.markCommands | apply Keeps.closeWindows | apply Keeps.markValues
                               | apply Keeps.markBasin | apply Keeps.each | apply Keeps.steer
                               | apply Keeps.frameAtMark | apply Keeps.attestAtMark | apply Keeps.syncOut
                               | refine fun s x h => ?_ | refine fun s h => ?_ | split

theorem Keeps.runWindow {b₀ s : State} (flagged : Bool) (hG : Keeps b₀ s) : Keeps b₀ (State.runWindow s (flagged))
    := by
  unfold State.runWindow
  dsimp only
  with_reducible repeat' first | assumption | apply Keeps.judgeFeedback | apply Keeps.each | apply Keeps.runLoop | apply Keeps.haltAt
                               | apply Keeps.selfTest | refine fun s x h => ?_ | refine fun s h => ?_ | split

theorem Keeps.engineWindow {b₀ s : State} (mismatch : Option Nat) (flagged : Bool) (hG : Keeps b₀ s) : Keeps b₀
    (State.engineWindow s (mismatch) (flagged)) := by
  unfold State.engineWindow
  dsimp only
  repeat' first | with_reducible assumption | with_reducible apply Keeps.resumeEngine
                | with_reducible apply Keeps.lockstepMismatch | with_reducible apply Keeps.runWindow | split
                | refine Keeps.upd ?_ rfl (Nat.le_refl _) (Nat.le_refl _)

theorem Keeps.computeOpen {b₀ s : State} (mismatch : Option Nat) (flagged : Bool) (hG : Keeps b₀ s) : Keeps b₀
    (State.computeOpen s (mismatch) (flagged)) := by
  unfold State.computeOpen
  dsimp only
  repeat' first | with_reducible assumption | with_reducible apply Keeps.advanceTo
                | with_reducible apply Keeps.judgeMisses | with_reducible apply Keeps.failCells
                | with_reducible apply Keeps.writeLegSums | with_reducible apply Keeps.updateLedger
                | with_reducible apply Keeps.energyAtMark | with_reducible apply Keeps.runForward
                | with_reducible apply Keeps.judgeCopy | with_reducible apply Keeps.engineWindow
                | with_reducible apply Keeps.mismatch | with_reducible apply Keeps.capCheck | refine fun s x h => ?_
                | refine fun s h => ?_ | split | refine Keeps.upd ?_ rfl (Nat.le_refl _) (Nat.le_refl _)

theorem Keeps.scheduleDone {b₀ s : State} (hG : Keeps b₀ s) : Keeps b₀ (State.scheduleDone s) := by
  unfold State.scheduleDone
  repeat' first | with_reducible assumption | with_reducible apply Keeps.overrun
                | with_reducible apply Keeps.sendCopy | with_reducible apply Keeps.runInverse
                | with_reducible apply Keeps.formCommands | with_reducible apply Keeps.capCheck
                | with_reducible apply Keeps.stageSlots | split
                | refine Keeps.upd ?_ rfl (Nat.le_refl _) (Nat.le_refl _)

theorem Keeps.overrun {b₀ s : State} (hG : Keeps b₀ s) : Keeps b₀ (State.overrun s) := by
  unfold State.overrun
  repeat' first | with_reducible assumption | with_reducible apply Keeps.scheduleDone
                | with_reducible apply Keeps.inc | with_reducible apply Keeps.raise | split
                | refine Keeps.upd ?_ rfl (Nat.le_refl _) (Nat.le_refl _)

theorem Keeps.downlinkStart {b₀ s : State} (hG : Keeps b₀ s) : Keeps b₀ (State.downlinkStart s) := by
  unfold State.downlinkStart
  with_reducible repeat' first | assumption | apply Keeps.overrun | apply Keeps.stageSlots | apply Keeps.advanceTo
                               | apply Keeps.downlink | refine fun s x h => ?_ | refine fun s h => ?_ | split

theorem Keeps.applyMark {b₀ s : State} (hG : Keeps b₀ s) : Keeps b₀ (State.applyMark s) := by
  unfold State.applyMark
  repeat' first | with_reducible assumption | with_reducible apply Keeps.advanceTo | with_reducible apply Keeps.each
                | with_reducible apply Keeps.redistDone | with_reducible apply Keeps.pwmApply
                | with_reducible apply Keeps.beat | split | refine Keeps.upd ?_ rfl (Nat.le_refl _) (Nat.le_refl _)

end Sys2Proof.Machine
end

