-- ==== Sys2Proof/Laws/KeepSettle.lean ====
section
/-! SUPPORT. What each operation of Machine/Settle.lean keeps (Laws/Keeps.lean). -/

set_option Elab.async false

namespace Sys2Proof.Machine

open Sys2Proof

theorem Keeps.rowOf {b₀ : State} {op : Nat} {resp : Bytes} {fmt : Format} {own : Owner}
    (e : Machine.rowOf op resp = (fmt, own)) (c : Cmd) {t : State} (hG : Keeps b₀ t) : Keeps b₀ (own c t).1 := by
  unfold Machine.rowOf at e
  split at e
  all_goals
    (simp only [Prod.mk.injEq] at e
     obtain ⟨-, rfl⟩ := e
     with_reducible first
       | exact Keeps.ownHeartbeat c hG
       | exact Keeps.ownPower c hG
       | exact Keeps.ownResume c hG
       | exact Keeps.ownGrid _ c hG
       | exact Keeps.ownDir c hG
       | exact Keeps.ownSetpoint _ c hG
       | exact Keeps.ownString _ c hG
       | exact Keeps.ownCommit c hG
       | exact Keeps.ownPoundEnable _ c hG
       | exact Keeps.ownPoundDisable c hG
       | exact Keeps.ownBypass _ c hG
       | exact Keeps.ownService c hG
       | exact Keeps.ownSluice c hG
       | exact Keeps.ownRecord c hG
       | exact Keeps.ownAuxRun c hG
       | exact Keeps.ownAuxStop c hG
       | exact Keeps.ownClear c hG
       | exact Keeps.ownSwap c hG
       | exact Keeps.ownAttest c hG
       | exact Keeps.ownUnlock _ c hG
       | exact Keeps.ownUnknown c hG)

theorem Keeps.drainHeld {b₀ s : State} (hG : Keeps b₀ s) : Keeps b₀ (State.drainHeld s) := by
  unfold State.drainHeld
  split
  · exact hG
  · exact Keeps.check _ _ _ _ (fun c _ h => Keeps.rowOf rfl c h) (Keeps.upd hG rfl (Nat.le_refl _) (Nat.le_refl _))

theorem Keeps.react {b₀ s : State} (r : Reaction) (hG : Keeps b₀ s) : Keeps b₀ (State.react s (r)) := by
  unfold State.react
  with_reducible repeat' first | assumption | apply Keeps.swapAbort | apply Keeps.blockReset | apply Keeps.forceHold
                               | apply Keeps.releaseClaim | refine fun s x h => ?_ | refine fun s h => ?_ | split

theorem Keeps.reactions {b₀ s : State} (hG : Keeps b₀ s) : Keeps b₀ (State.reactions s) := by
  unfold State.reactions
  repeat' first | with_reducible assumption | with_reducible apply Keeps.each | with_reducible apply Keeps.react
                | refine Keeps.upd ?_ rfl (Nat.le_refl _) (Nat.le_refl _)

theorem Keeps.withoutMarks {b₀ s : State} (hG : Keeps b₀ s) : Keeps b₀ (State.withoutMarks s) := by
  unfold State.withoutMarks
  with_reducible repeat' first | assumption | apply Keeps.attestAtMark | apply Keeps.takeReturns
                               | apply Keeps.takeUpdate | apply Keeps.runClears | apply Keeps.takeFollow | split

theorem Keeps.takeOff {b₀ s : State} (hG : Keeps b₀ s) : Keeps b₀ (State.takeOff s) := by
  unfold State.takeOff
  repeat' first | with_reducible assumption | with_reducible apply Keeps.enterOff | split
                | refine Keeps.upd ?_ rfl (Nat.le_refl _) (Nat.le_refl _)

theorem Keeps.judgePair {b₀ s : State} (hG : Keeps b₀ s) : Keeps b₀ (State.judgePair s) := by
  unfold State.judgePair
  with_reducible repeat' first | assumption | apply Keeps.judgeTake | apply Keeps.judgeLink | split

theorem Keeps.settleOnce {b₀ s : State} (hG : Keeps b₀ s) : Keeps b₀ (State.settleOnce s) := by
  unfold State.settleOnce
  with_reducible repeat' first | assumption | apply Keeps.judgeSafety | apply Keeps.judgePair | apply Keeps.showWatch
                               | apply Keeps.sendPending | apply Keeps.takeOff | apply Keeps.reactions
                               | apply Keeps.withoutMarks | apply Keeps.showLevels | apply Keeps.judgeHalt
                               | apply Keeps.logOverflow | apply Keeps.drainHeld | split

theorem Keeps.settleN {b₀ : State} (n : Nat) {s : State} (hG : Keeps b₀ s) : Keeps b₀ (State.settleN n s) := by
  induction n generalizing s with
  | zero => exact hG
  | succ n ih =>
    unfold State.settleN
    dsimp only
    split
    · exact hG
    · exact ih hG.settleOnce

theorem Keeps.settle {b₀ : State} {s : State} (hG : Keeps b₀ s) : Keeps b₀ (State.settle s) := hG.settleN 80

theorem Keeps.awake {b₀ s : State} (f : State → State) (hf : ∀ t, Keeps b₀ t → Keeps b₀ (f t)) (hG : Keeps b₀ s) :
    Keeps b₀ (State.awake s (f)) := by
  unfold State.awake
  with_reducible repeat' first | assumption | apply hf | split

end Sys2Proof.Machine
end

