-- ==== Sys2Proof/Laws/KeepRegisters.lean ====
section
/-! SUPPORT. What each operation of Machine/Registers.lean keeps (Laws/Keeps.lean). -/

set_option Elab.async false

namespace Sys2Proof.Machine

open Sys2Proof

theorem Keeps.readReg {b₀ s : State} (q : Requester) (off : Nat) (hG : Keeps b₀ s) : Keeps b₀ (State.readReg s (q)
    (off)).2 := by
  unfold State.readReg
  dsimp only
  with_reducible repeat' first | assumption | apply Keeps.wakeLink | apply Keeps.undecoded | apply Keeps.captureNow
                               | apply Keeps.captureAcc | refine fun s x h => ?_ | refine fun s h => ?_ | split

theorem Keeps.sysWrite {b₀ s : State} (q : Requester) (off : Nat) (w : Word) (hG : Keeps b₀ s) : Keeps b₀
    (State.sysWrite s (q) (off) (w)) := by
  unfold State.sysWrite
  repeat' first | with_reducible assumption | with_reducible apply Keeps.cycleWrite
                | with_reducible apply Keeps.hostWrite | with_reducible apply Keeps.keepLost
                | with_reducible apply Keeps.rstWrite | with_reducible apply Keeps.powerReg
                | with_reducible apply Keeps.overlayWrite | refine fun s x h => ?_ | refine fun s h => ?_ | split
                | refine Keeps.upd ?_ rfl (Nat.le_refl _) (Nat.le_refl _)

theorem Keeps.clkWrite {b₀ s : State} (q : Requester) (off : Nat) (w : Word) (hG : Keeps b₀ s) : Keeps b₀
    (State.clkWrite s (q) (off) (w)) := by
  unfold State.clkWrite
  with_reducible repeat' first | assumption | apply Keeps.hostWrite | apply Keeps.judgeRef | apply Keeps.keepRefLost
                               | apply Keeps.clkReturn | apply Keeps.stageWritten | apply Keeps.clkUpdate
                               | refine fun s x h => ?_ | refine fun s h => ?_ | split

theorem Keeps.hstWrite {b₀ s : State} (q : Requester) (off : Nat) (w : Word) (hG : Keeps b₀ s) : Keeps b₀
    (State.hstWrite s (q) (off) (w)) := by
  unfold State.hstWrite
  repeat' first | with_reducible assumption | with_reducible apply Keeps.fixedWrite
                | with_reducible apply Keeps.ringCtl | with_reducible apply Keeps.doorbellWrite
                | with_reducible apply Keeps.hostWrite | with_reducible apply Keeps.tlmCtl
                | with_reducible apply Keeps.indexAll | refine fun s x h => ?_ | refine fun s h => ?_ | split
                | refine Keeps.upd ?_ rfl (Nat.le_refl _) (Nat.le_refl _)

theorem Keeps.laneCtl {b₀ s : State} (n : Nat) (w : Word) (q : Requester) (hG : Keeps b₀ s) : Keeps b₀
    (State.laneCtl s (n) (w) (q)) := by
  unfold State.laneCtl
  with_reducible repeat' first | assumption | apply Keeps.hostWrite | apply Keeps.restartLane
                               | refine fun s x h => ?_ | refine fun s h => ?_ | split

theorem Keeps.cnlWrite {b₀ s : State} (q : Requester) (off : Nat) (w : Word) (hG : Keeps b₀ s) : Keeps b₀
    (State.cnlWrite s (q) (off) (w)) := by
  unfold State.cnlWrite
  with_reducible repeat' first | assumption | apply Keeps.laneCtl | apply Keeps.hostWrite | apply Keeps.id_
                               | refine fun s x h => ?_ | refine fun s h => ?_ | split

theorem Keeps.loopWrite {b₀ s : State} (q : Requester) (off : Nat) (w : Word) (hG : Keeps b₀ s) : Keeps b₀
    (State.loopWrite s (q) (off) (w)) := by
  unfold State.loopWrite
  with_reducible repeat' first | assumption | apply Keeps.hostWrite | apply Keeps.verifyGo | apply Keeps.judgeRegions
                               | refine fun s x h => ?_ | refine fun s h => ?_ | split

theorem Keeps.soeWrite {b₀ s : State} (i : Nat) (w : Word) (q : Requester) (hG : Keeps b₀ s) : Keeps b₀
    (State.soeWrite s (i) (w) (q)) := by
  unfold State.soeWrite
  repeat' first | with_reducible assumption | with_reducible apply Keeps.hostWrite | refine fun s x h => ?_
                | refine fun s h => ?_ | split | refine Keeps.upd ?_ rfl (Nat.le_refl _) (Nat.le_refl _)

theorem Keeps.nrgWrite {b₀ s : State} (q : Requester) (off : Nat) (w : Word) (hG : Keeps b₀ s) : Keeps b₀
    (State.nrgWrite s (q) (off) (w)) := by
  unfold State.nrgWrite
  with_reducible repeat' first | assumption | apply Keeps.soeWrite | apply Keeps.hostWrite | apply Keeps.id_
                               | refine fun s x h => ?_ | refine fun s h => ?_ | split

theorem Keeps.mtrWrite {b₀ s : State} (q : Requester) (off : Nat) (w : Word) (hG : Keeps b₀ s) : Keeps b₀
    (State.mtrWrite s (q) (off) (w)) := by
  unfold State.mtrWrite
  with_reducible repeat' first | assumption | apply Keeps.hostWrite | apply Keeps.diagGo | apply Keeps.trkClear
                               | refine fun s x h => ?_ | refine fun s h => ?_ | split

theorem Keeps.pwmChannel {b₀ s : State} (q : Requester) (n : Nat) (off : Nat) (w : Word) (hG : Keeps b₀ s) : Keeps b₀
    (State.pwmChannel s (q) (n) (off) (w)) := by
  unfold State.pwmChannel
  repeat' first | with_reducible assumption | with_reducible apply Keeps.stagedWrite
                | with_reducible apply Keeps.hostWrite | with_reducible apply Keeps.cutAll
                | with_reducible apply Keeps.channelWritten | with_reducible apply Keeps.keepTripped
                | refine fun s x h => ?_ | refine fun s h => ?_ | split
                | refine Keeps.upd ?_ rfl (Nat.le_refl _) (Nat.le_refl _)

theorem Keeps.pwmGroupWrite {b₀ s : State} (g : Nat) (w : Word) (q : Requester) (hG : Keeps b₀ s) : Keeps b₀
    (State.pwmGroupWrite s (g) (w) (q)) := by
  unfold State.pwmGroupWrite
  with_reducible repeat' first | assumption | apply Keeps.hostWrite | apply Keeps.grpWritten | refine fun s x h => ?_
                               | refine fun s h => ?_ | split

theorem Keeps.pwmWrite {b₀ s : State} (q : Requester) (off : Nat) (w : Word) (hG : Keeps b₀ s) : Keeps b₀
    (State.pwmWrite s (q) (off) (w)) := by
  unfold State.pwmWrite
  with_reducible repeat' first | assumption | apply Keeps.hostWrite | apply Keeps.pwmLoad | apply Keeps.readTripIn
                               | apply Keeps.pwmChannel | apply Keeps.pwmGroupWrite | apply Keeps.id_
                               | refine fun s x h => ?_ | refine fun s h => ?_ | split

theorem Keeps.latchStat {b₀ s : State} (c : Nat) (w : Word) (blanked : Bool) (q : Requester := byHost) (hG : Keeps b₀
    s) : Keeps b₀ (State.latchStat s (c) (w) (blanked) (q)) := by
  unfold State.latchStat
  dsimp only
  with_reducible repeat' first | assumption | apply Keeps.wakeLink | apply Keeps.undecoded | apply Keeps.latchWrite
                               | refine fun s x h => ?_ | refine fun s h => ?_ | split

theorem Keeps.cmpWrite {b₀ s : State} (q : Requester) (off : Nat) (w : Word) (hG : Keeps b₀ s) : Keeps b₀
    (State.cmpWrite s (q) (off) (w)) := by
  unfold State.cmpWrite
  repeat' first | with_reducible assumption | with_reducible apply Keeps.hostWrite
                | with_reducible apply Keeps.cmpRearm | with_reducible apply Keeps.showLines
                | with_reducible apply Keeps.keepLatched | with_reducible apply Keeps.latchStat
                | with_reducible apply Keeps.cmpWritten | refine fun s x h => ?_ | refine fun s h => ?_ | split
                | refine Keeps.upd ?_ rfl (Nat.le_refl _) (Nat.le_refl _)

theorem Keeps.tsnWrite {b₀ s : State} (q : Requester) (off : Nat) (w : Word) (hG : Keeps b₀ s) : Keeps b₀
    (State.tsnWrite s (q) (off) (w)) := by
  unfold State.tsnWrite
  dsimp only
  with_reducible repeat' first | assumption | apply Keeps.hostWrite | apply Keeps.stepReq | apply Keeps.judgeSelection
                               | apply Keeps.startSlew | apply Keeps.portDown | apply Keeps.domWritten
                               | refine fun s x h => ?_ | refine fun s h => ?_ | split

theorem Keeps.fltWrite {b₀ s : State} (q : Requester) (off : Nat) (w : Word) (hG : Keeps b₀ s) : Keeps b₀
    (State.fltWrite s (q) (off) (w)) := by
  unfold State.fltWrite
  with_reducible repeat' first | assumption | apply Keeps.hostWrite | apply Keeps.rearm | apply Keeps.logCopy
                               | refine fun s x h => ?_ | refine fun s h => ?_ | split

theorem Keeps.writeMemory {b₀ s : State} (q : Requester) (off : Nat) (w : Word) (hG : Keeps b₀ s) : Keeps b₀
    (State.writeMemory s (q) (off) (w)) := by
  unfold State.writeMemory
  dsimp only
  with_reducible repeat' first | assumption | apply Keeps.wakeLink | apply Keeps.undecoded | apply Keeps.bankWrite
                               | apply Keeps.msixWrite | refine fun s x h => ?_ | refine fun s h => ?_ | split

theorem Keeps.writeLow {b₀ s : State} (q : Requester) (off : Nat) (w : Word) (hG : Keeps b₀ s) : Keeps b₀
    (State.writeLow s (q) (off) (w)) := by
  unfold State.writeLow
  with_reducible repeat' first | assumption | apply Keeps.sysWrite | apply Keeps.clkWrite | apply Keeps.hstWrite
                               | apply Keeps.cnlWrite | apply Keeps.loopWrite | apply Keeps.hostWrite
                               | apply Keeps.id_ | refine fun s x h => ?_ | refine fun s h => ?_ | split

theorem Keeps.writeHigh {b₀ s : State} (q : Requester) (off : Nat) (w : Word) (hG : Keeps b₀ s) : Keeps b₀
    (State.writeHigh s (q) (off) (w)) := by
  unfold State.writeHigh
  with_reducible repeat' first | assumption | apply Keeps.nrgWrite | apply Keeps.mtrWrite | apply Keeps.pwmWrite
                               | apply Keeps.cmpWrite | apply Keeps.hostWrite | apply Keeps.tsnWrite
                               | apply Keeps.fltWrite | apply Keeps.id_ | refine fun s x h => ?_
                               | refine fun s h => ?_ | split

theorem Keeps.writeReg {b₀ s : State} (q : Requester) (off : Nat) (w : Word) (hG : Keeps b₀ s) : Keeps b₀
    (State.writeReg s (q) (off) (w)) := by
  unfold State.writeReg
  with_reducible repeat' first | assumption | apply Keeps.writeMemory | apply Keeps.writeLow | apply Keeps.writeHigh
                               | split

theorem Keeps.sramRead {b₀ s : State} (a : Nat) (hG : Keeps b₀ s) : Keeps b₀ (State.sramRead s (a)).2 := by
  unfold State.sramRead
  with_reducible repeat' first | assumption | apply Keeps.fresh | refine fun s x h => ?_ | refine fun s h => ?_
                               | split

theorem Keeps.engineWrite {b₀ s : State} (i : Nat) (w : Word) (mismatch : Bool) (hG : Keeps b₀ s) : Keeps b₀
    (State.engineWrite s (i) (w) (mismatch)) := by
  unfold State.engineWrite
  with_reducible repeat' first | assumption | apply Keeps.debugRefused | apply Keeps.leHalt | apply Keeps.leResume
                               | apply Keeps.setBreak | apply Keeps.leStep | apply Keeps.mismatch | split

theorem Keeps.debugRead {b₀ s : State} (i : Nat) (a : Nat) (hG : Keeps b₀ s) : Keeps b₀ (State.debugRead s (i)
    (a)).2 := by
  unfold State.debugRead
  with_reducible repeat' first | assumption | apply Keeps.debugRefused | apply Keeps.readReg | apply Keeps.sramRead
                               | split

theorem Keeps.debugWrite {b₀ s : State} (i : Nat) (a : Nat) (w : Word) (hG : Keeps b₀ s) : Keeps b₀
    (State.debugWrite s (i) (a) (w)).2 := by
  unfold State.debugWrite
  repeat' first | with_reducible assumption | with_reducible apply Keeps.debugRefused
                | with_reducible apply Keeps.writeReg | with_reducible apply Keeps.engineWrite
                | refine fun s x h => ?_ | refine fun s h => ?_ | split
                | refine Keeps.upd ?_ rfl (Nat.le_refl _) (Nat.le_refl _)

theorem Keeps.dbgShow {b₀ s : State} (ok : Bool) (hG : Keeps b₀ s) : Keeps b₀ (State.dbgShow s (ok)) := by
  unfold State.dbgShow
  with_reducible repeat' first | assumption | apply Keeps.wrB

theorem Keeps.dbgGoRead {b₀ s : State} (hG : Keeps b₀ s) : Keeps b₀ (State.dbgGoRead s) := by
  unfold State.dbgGoRead
  repeat' (first | (with_reducible assumption) | (with_reducible apply Keeps.debugRead)
                 | (with_reducible apply Keeps.wr) | (with_reducible apply Keeps.dbgShow) | (refine fun s x h => ?_)
                 | (refine fun s h => ?_)
                 | ((try lift_lets); intro x; refine Keeps.cutl (s := x) ?_ ?_; rotate_left; (intro hx; clear_value x); rotate_left; unfold x)
                 | ((try lift_lets); intro x) | split
                 | (with_reducible refine Keeps.upd ?_ ?_ ?_ ?_; rotate_left; exact rfl; (first | exact Nat.le_refl _ | exact Nat.le_max_left _ _ | exact Nat.le_add_right _ _); (first | exact Nat.le_refl _ | exact Nat.le_succ _); first | (with_reducible assumption) | (with_reducible apply Keeps.debugRead) | (with_reducible apply Keeps.wr) | (with_reducible apply Keeps.dbgShow) | (with_reducible refine Keeps.of2 ‹_ = (_, _)› ?_) | (with_reducible refine Keeps.of22 ‹_ = (_, _, _)› ?_) | (with_reducible refine Keeps.of1 ‹_ = (_, _)› ?_))
                 | (with_reducible refine Keeps.of2 ‹_ = (_, _)› ?_)
                 | (with_reducible refine Keeps.of22 ‹_ = (_, _, _)› ?_)
                 | (with_reducible refine Keeps.of1 ‹_ = (_, _)› ?_) | (dsimp -zeta only) | (dsimp +zetaDelta only))

theorem Keeps.dbgGoWrite {b₀ s : State} (hG : Keeps b₀ s) : Keeps b₀ (State.dbgGoWrite s) := by
  unfold State.dbgGoWrite
  with_reducible repeat' first | assumption | apply Keeps.debugWrite | apply Keeps.dbgShow

theorem Keeps.dbgCmd {b₀ s : State} (w : Word) (hG : Keeps b₀ s) : Keeps b₀ (State.dbgCmd s (w)) := by
  unfold State.dbgCmd
  with_reducible repeat' first | assumption | apply Keeps.hostWrite | apply Keeps.dbgGoRead | apply Keeps.dbgGoWrite
                               | refine fun s x h => ?_ | refine fun s h => ?_ | split

theorem Keeps.jtagAccess {b₀ s : State} (a : Nat) (write : Bool) (w : Word) (hG : Keeps b₀ s) : Keeps b₀
    (State.jtagAccess s (a) (write) (w)) := by
  unfold State.jtagAccess
  dsimp only
  repeat' first | with_reducible assumption | with_reducible apply Keeps.debugWrite
                | with_reducible apply Keeps.debugRead | split
                | refine Keeps.upd ?_ rfl (Nat.le_refl _) (Nat.le_refl _)

theorem Keeps.hostWord {b₀ s : State} (a : Nat) (w : Word) (enables : Nat) (hG : Keeps b₀ s) : Keeps b₀
    (State.hostWord s (a) (w) (enables)) := by
  unfold State.hostWord
  with_reducible repeat' first | assumption | apply Keeps.wakeLink | apply Keeps.undecoded | apply Keeps.dbgCmd
                               | apply Keeps.writeReg | refine fun s x h => ?_ | refine fun s h => ?_ | split

theorem Keeps.hostAccess {b₀ s : State} (a : Nat) (data : BitVec 64) (enables : Nat) (wide : Bool) (hG : Keeps b₀
    s) : Keeps b₀ (State.hostAccess s (a) (data) (enables) (wide)) := by
  unfold State.hostAccess
  with_reducible repeat' first | assumption | apply Keeps.hostWord | split

theorem Keeps.hostRead {b₀ s : State} (off : Nat) (hG : Keeps b₀ s) : Keeps b₀ (State.hostRead s (off)) := by
  unfold State.hostRead
  with_reducible repeat' first | assumption | apply Keeps.readReg | apply Keeps.emit | refine fun s x h => ?_
                               | refine fun s h => ?_ | split

theorem Keeps.hostReadWord {b₀ s : State} (a : Nat) (hG : Keeps b₀ s) : Keeps b₀ (State.hostReadWord s (a)) := by
  unfold State.hostReadWord
  with_reducible repeat' first | assumption | apply Keeps.hostRead | apply Keeps.wakeLink | apply Keeps.undecoded
                               | apply Keeps.emit | refine fun s x h => ?_ | refine fun s h => ?_ | split

theorem Keeps.hostReadBytes {b₀ s : State} (a : Nat) (n : Nat) (hG : Keeps b₀ s) : Keeps b₀ (State.hostReadBytes s (a)
    (n)) := by
  unfold State.hostReadBytes
  with_reducible repeat' first | assumption | apply Keeps.hostReadWord | apply Keeps.wakeLink | apply Keeps.undecoded
                               | apply Keeps.emit | refine fun s x h => ?_ | refine fun s h => ?_ | split

end Sys2Proof.Machine
end

