-- ==== Sys2Proof/Laws/State.lean ====
section
/-! SUPPORT. What the plainest updates of the state leave alone, one lemma per component: a write of a register changes
registers only, what is sent changes `out` only, a ring's indices lie in `hst`. -/

set_option Elab.async false

namespace Sys2Proof.Machine

open Sys2Proof

@[simp] theorem State.setReg_sys (s : State) (off : Nat) (v : Word) : (s.setReg off v).sys = s.sys := rfl
@[simp] theorem State.setReg_clk (s : State) (off : Nat) (v : Word) : (s.setReg off v).clk = s.clk := rfl
@[simp] theorem State.setReg_hst (s : State) (off : Nat) (v : Word) : (s.setReg off v).hst = s.hst := rfl
@[simp] theorem State.setReg_flt (s : State) (off : Nat) (v : Word) : (s.setReg off v).flt = s.flt := rfl
@[simp] theorem State.setReg_tsn (s : State) (off : Nat) (v : Word) : (s.setReg off v).tsn = s.tsn := rfl
@[simp] theorem State.setReg_red (s : State) (off : Nat) (v : Word) : (s.setReg off v).red = s.red := rfl
@[simp] theorem State.setReg_cnl (s : State) (off : Nat) (v : Word) : (s.setReg off v).cnl = s.cnl := rfl
@[simp] theorem State.setReg_loop (s : State) (off : Nat) (v : Word) : (s.setReg off v).loop = s.loop := rfl
@[simp] theorem State.setReg_cell (s : State) (off : Nat) (v : Word) : (s.setReg off v).cell = s.cell := rfl
@[simp] theorem State.setReg_nrg (s : State) (off : Nat) (v : Word) : (s.setReg off v).nrg = s.nrg := rfl
@[simp] theorem State.setReg_mtr (s : State) (off : Nat) (v : Word) : (s.setReg off v).mtr = s.mtr := rfl
@[simp] theorem State.setReg_pwm (s : State) (off : Nat) (v : Word) : (s.setReg off v).pwm = s.pwm := rfl
@[simp] theorem State.setReg_cmp (s : State) (off : Nat) (v : Word) : (s.setReg off v).cmp = s.cmp := rfl
@[simp] theorem State.setReg_aux (s : State) (off : Nat) (v : Word) : (s.setReg off v).aux = s.aux := rfl
@[simp] theorem State.setReg_sec (s : State) (off : Nat) (v : Word) : (s.setReg off v).sec = s.sec := rfl
@[simp] theorem State.setReg_out (s : State) (off : Nat) (v : Word) : (s.setReg off v).out = s.out := rfl
@[simp] theorem State.setReg_free (s : State) (off : Nat) (v : Word) : (s.setReg off v).free = s.free := rfl
@[simp] theorem State.setReg_pending (s : State) (off : Nat) (v : Word) : (s.setReg off v).pending = s.pending := rfl

@[simp] theorem State.wr_sys (s : State) (f : Fld) (v : Nat) : (s.wr f v).sys = s.sys := rfl
@[simp] theorem State.wr_clk (s : State) (f : Fld) (v : Nat) : (s.wr f v).clk = s.clk := rfl
@[simp] theorem State.wr_hst (s : State) (f : Fld) (v : Nat) : (s.wr f v).hst = s.hst := rfl
@[simp] theorem State.wr_flt (s : State) (f : Fld) (v : Nat) : (s.wr f v).flt = s.flt := rfl
@[simp] theorem State.wr_tsn (s : State) (f : Fld) (v : Nat) : (s.wr f v).tsn = s.tsn := rfl
@[simp] theorem State.wr_red (s : State) (f : Fld) (v : Nat) : (s.wr f v).red = s.red := rfl
@[simp] theorem State.wr_cnl (s : State) (f : Fld) (v : Nat) : (s.wr f v).cnl = s.cnl := rfl
@[simp] theorem State.wr_loop (s : State) (f : Fld) (v : Nat) : (s.wr f v).loop = s.loop := rfl
@[simp] theorem State.wr_cell (s : State) (f : Fld) (v : Nat) : (s.wr f v).cell = s.cell := rfl
@[simp] theorem State.wr_nrg (s : State) (f : Fld) (v : Nat) : (s.wr f v).nrg = s.nrg := rfl
@[simp] theorem State.wr_mtr (s : State) (f : Fld) (v : Nat) : (s.wr f v).mtr = s.mtr := rfl
@[simp] theorem State.wr_pwm (s : State) (f : Fld) (v : Nat) : (s.wr f v).pwm = s.pwm := rfl
@[simp] theorem State.wr_cmp (s : State) (f : Fld) (v : Nat) : (s.wr f v).cmp = s.cmp := rfl
@[simp] theorem State.wr_aux (s : State) (f : Fld) (v : Nat) : (s.wr f v).aux = s.aux := rfl
@[simp] theorem State.wr_sec (s : State) (f : Fld) (v : Nat) : (s.wr f v).sec = s.sec := rfl
@[simp] theorem State.wr_out (s : State) (f : Fld) (v : Nat) : (s.wr f v).out = s.out := rfl
@[simp] theorem State.wr_free (s : State) (f : Fld) (v : Nat) : (s.wr f v).free = s.free := rfl
@[simp] theorem State.wr_pending (s : State) (f : Fld) (v : Nat) : (s.wr f v).pending = s.pending := rfl

@[simp] theorem State.wrB_sys (s : State) (f : Fld) (b : Bool) : (s.wrB f b).sys = s.sys := rfl
@[simp] theorem State.wrB_clk (s : State) (f : Fld) (b : Bool) : (s.wrB f b).clk = s.clk := rfl
@[simp] theorem State.wrB_hst (s : State) (f : Fld) (b : Bool) : (s.wrB f b).hst = s.hst := rfl
@[simp] theorem State.wrB_flt (s : State) (f : Fld) (b : Bool) : (s.wrB f b).flt = s.flt := rfl
@[simp] theorem State.wrB_tsn (s : State) (f : Fld) (b : Bool) : (s.wrB f b).tsn = s.tsn := rfl
@[simp] theorem State.wrB_red (s : State) (f : Fld) (b : Bool) : (s.wrB f b).red = s.red := rfl
@[simp] theorem State.wrB_cnl (s : State) (f : Fld) (b : Bool) : (s.wrB f b).cnl = s.cnl := rfl
@[simp] theorem State.wrB_loop (s : State) (f : Fld) (b : Bool) : (s.wrB f b).loop = s.loop := rfl
@[simp] theorem State.wrB_cell (s : State) (f : Fld) (b : Bool) : (s.wrB f b).cell = s.cell := rfl
@[simp] theorem State.wrB_nrg (s : State) (f : Fld) (b : Bool) : (s.wrB f b).nrg = s.nrg := rfl
@[simp] theorem State.wrB_mtr (s : State) (f : Fld) (b : Bool) : (s.wrB f b).mtr = s.mtr := rfl
@[simp] theorem State.wrB_pwm (s : State) (f : Fld) (b : Bool) : (s.wrB f b).pwm = s.pwm := rfl
@[simp] theorem State.wrB_cmp (s : State) (f : Fld) (b : Bool) : (s.wrB f b).cmp = s.cmp := rfl
@[simp] theorem State.wrB_aux (s : State) (f : Fld) (b : Bool) : (s.wrB f b).aux = s.aux := rfl
@[simp] theorem State.wrB_sec (s : State) (f : Fld) (b : Bool) : (s.wrB f b).sec = s.sec := rfl
@[simp] theorem State.wrB_out (s : State) (f : Fld) (b : Bool) : (s.wrB f b).out = s.out := rfl
@[simp] theorem State.wrB_free (s : State) (f : Fld) (b : Bool) : (s.wrB f b).free = s.free := rfl
@[simp] theorem State.wrB_pending (s : State) (f : Fld) (b : Bool) : (s.wrB f b).pending = s.pending := rfl

@[simp] theorem State.wrBit_sys (s : State) (f : Fld) (i : Nat) (b : Bool) : (s.wrBit f i b).sys = s.sys := rfl
@[simp] theorem State.wrBit_clk (s : State) (f : Fld) (i : Nat) (b : Bool) : (s.wrBit f i b).clk = s.clk := rfl
@[simp] theorem State.wrBit_hst (s : State) (f : Fld) (i : Nat) (b : Bool) : (s.wrBit f i b).hst = s.hst := rfl
@[simp] theorem State.wrBit_flt (s : State) (f : Fld) (i : Nat) (b : Bool) : (s.wrBit f i b).flt = s.flt := rfl
@[simp] theorem State.wrBit_tsn (s : State) (f : Fld) (i : Nat) (b : Bool) : (s.wrBit f i b).tsn = s.tsn := rfl
@[simp] theorem State.wrBit_red (s : State) (f : Fld) (i : Nat) (b : Bool) : (s.wrBit f i b).red = s.red := rfl
@[simp] theorem State.wrBit_cnl (s : State) (f : Fld) (i : Nat) (b : Bool) : (s.wrBit f i b).cnl = s.cnl := rfl
@[simp] theorem State.wrBit_loop (s : State) (f : Fld) (i : Nat) (b : Bool) : (s.wrBit f i b).loop = s.loop := rfl
@[simp] theorem State.wrBit_cell (s : State) (f : Fld) (i : Nat) (b : Bool) : (s.wrBit f i b).cell = s.cell := rfl
@[simp] theorem State.wrBit_nrg (s : State) (f : Fld) (i : Nat) (b : Bool) : (s.wrBit f i b).nrg = s.nrg := rfl
@[simp] theorem State.wrBit_mtr (s : State) (f : Fld) (i : Nat) (b : Bool) : (s.wrBit f i b).mtr = s.mtr := rfl
@[simp] theorem State.wrBit_pwm (s : State) (f : Fld) (i : Nat) (b : Bool) : (s.wrBit f i b).pwm = s.pwm := rfl
@[simp] theorem State.wrBit_cmp (s : State) (f : Fld) (i : Nat) (b : Bool) : (s.wrBit f i b).cmp = s.cmp := rfl
@[simp] theorem State.wrBit_aux (s : State) (f : Fld) (i : Nat) (b : Bool) : (s.wrBit f i b).aux = s.aux := rfl
@[simp] theorem State.wrBit_sec (s : State) (f : Fld) (i : Nat) (b : Bool) : (s.wrBit f i b).sec = s.sec := rfl
@[simp] theorem State.wrBit_out (s : State) (f : Fld) (i : Nat) (b : Bool) : (s.wrBit f i b).out = s.out := rfl
@[simp] theorem State.wrBit_free (s : State) (f : Fld) (i : Nat) (b : Bool) : (s.wrBit f i b).free = s.free := rfl
@[simp] theorem State.wrBit_pending (s : State) (f : Fld) (i : Nat) (b : Bool) : (s.wrBit f i b).pending = s.pending := rfl

@[simp] theorem State.incBy_sys (s : State) (f : Fld) (n : Nat) : (s.incBy f n).sys = s.sys := rfl
@[simp] theorem State.incBy_clk (s : State) (f : Fld) (n : Nat) : (s.incBy f n).clk = s.clk := rfl
@[simp] theorem State.incBy_hst (s : State) (f : Fld) (n : Nat) : (s.incBy f n).hst = s.hst := rfl
@[simp] theorem State.incBy_flt (s : State) (f : Fld) (n : Nat) : (s.incBy f n).flt = s.flt := rfl
@[simp] theorem State.incBy_tsn (s : State) (f : Fld) (n : Nat) : (s.incBy f n).tsn = s.tsn := rfl
@[simp] theorem State.incBy_red (s : State) (f : Fld) (n : Nat) : (s.incBy f n).red = s.red := rfl
@[simp] theorem State.incBy_cnl (s : State) (f : Fld) (n : Nat) : (s.incBy f n).cnl = s.cnl := rfl
@[simp] theorem State.incBy_loop (s : State) (f : Fld) (n : Nat) : (s.incBy f n).loop = s.loop := rfl
@[simp] theorem State.incBy_cell (s : State) (f : Fld) (n : Nat) : (s.incBy f n).cell = s.cell := rfl
@[simp] theorem State.incBy_nrg (s : State) (f : Fld) (n : Nat) : (s.incBy f n).nrg = s.nrg := rfl
@[simp] theorem State.incBy_mtr (s : State) (f : Fld) (n : Nat) : (s.incBy f n).mtr = s.mtr := rfl
@[simp] theorem State.incBy_pwm (s : State) (f : Fld) (n : Nat) : (s.incBy f n).pwm = s.pwm := rfl
@[simp] theorem State.incBy_cmp (s : State) (f : Fld) (n : Nat) : (s.incBy f n).cmp = s.cmp := rfl
@[simp] theorem State.incBy_aux (s : State) (f : Fld) (n : Nat) : (s.incBy f n).aux = s.aux := rfl
@[simp] theorem State.incBy_sec (s : State) (f : Fld) (n : Nat) : (s.incBy f n).sec = s.sec := rfl
@[simp] theorem State.incBy_out (s : State) (f : Fld) (n : Nat) : (s.incBy f n).out = s.out := rfl
@[simp] theorem State.incBy_free (s : State) (f : Fld) (n : Nat) : (s.incBy f n).free = s.free := rfl
@[simp] theorem State.incBy_pending (s : State) (f : Fld) (n : Nat) : (s.incBy f n).pending = s.pending := rfl

@[simp] theorem State.inc_sys (s : State) (f : Fld) : (s.inc f).sys = s.sys := rfl
@[simp] theorem State.inc_clk (s : State) (f : Fld) : (s.inc f).clk = s.clk := rfl
@[simp] theorem State.inc_hst (s : State) (f : Fld) : (s.inc f).hst = s.hst := rfl
@[simp] theorem State.inc_flt (s : State) (f : Fld) : (s.inc f).flt = s.flt := rfl
@[simp] theorem State.inc_tsn (s : State) (f : Fld) : (s.inc f).tsn = s.tsn := rfl
@[simp] theorem State.inc_red (s : State) (f : Fld) : (s.inc f).red = s.red := rfl
@[simp] theorem State.inc_cnl (s : State) (f : Fld) : (s.inc f).cnl = s.cnl := rfl
@[simp] theorem State.inc_loop (s : State) (f : Fld) : (s.inc f).loop = s.loop := rfl
@[simp] theorem State.inc_cell (s : State) (f : Fld) : (s.inc f).cell = s.cell := rfl
@[simp] theorem State.inc_nrg (s : State) (f : Fld) : (s.inc f).nrg = s.nrg := rfl
@[simp] theorem State.inc_mtr (s : State) (f : Fld) : (s.inc f).mtr = s.mtr := rfl
@[simp] theorem State.inc_pwm (s : State) (f : Fld) : (s.inc f).pwm = s.pwm := rfl
@[simp] theorem State.inc_cmp (s : State) (f : Fld) : (s.inc f).cmp = s.cmp := rfl
@[simp] theorem State.inc_aux (s : State) (f : Fld) : (s.inc f).aux = s.aux := rfl
@[simp] theorem State.inc_sec (s : State) (f : Fld) : (s.inc f).sec = s.sec := rfl
@[simp] theorem State.inc_out (s : State) (f : Fld) : (s.inc f).out = s.out := rfl
@[simp] theorem State.inc_free (s : State) (f : Fld) : (s.inc f).free = s.free := rfl
@[simp] theorem State.inc_pending (s : State) (f : Fld) : (s.inc f).pending = s.pending := rfl

@[simp] theorem State.emit_regs (s : State) (o : Out) : (s.emit o).regs = s.regs := rfl
@[simp] theorem State.emit_sys (s : State) (o : Out) : (s.emit o).sys = s.sys := rfl
@[simp] theorem State.emit_clk (s : State) (o : Out) : (s.emit o).clk = s.clk := rfl
@[simp] theorem State.emit_hst (s : State) (o : Out) : (s.emit o).hst = s.hst := rfl
@[simp] theorem State.emit_flt (s : State) (o : Out) : (s.emit o).flt = s.flt := rfl
@[simp] theorem State.emit_tsn (s : State) (o : Out) : (s.emit o).tsn = s.tsn := rfl
@[simp] theorem State.emit_red (s : State) (o : Out) : (s.emit o).red = s.red := rfl
@[simp] theorem State.emit_cnl (s : State) (o : Out) : (s.emit o).cnl = s.cnl := rfl
@[simp] theorem State.emit_loop (s : State) (o : Out) : (s.emit o).loop = s.loop := rfl
@[simp] theorem State.emit_cell (s : State) (o : Out) : (s.emit o).cell = s.cell := rfl
@[simp] theorem State.emit_nrg (s : State) (o : Out) : (s.emit o).nrg = s.nrg := rfl
@[simp] theorem State.emit_mtr (s : State) (o : Out) : (s.emit o).mtr = s.mtr := rfl
@[simp] theorem State.emit_pwm (s : State) (o : Out) : (s.emit o).pwm = s.pwm := rfl
@[simp] theorem State.emit_cmp (s : State) (o : Out) : (s.emit o).cmp = s.cmp := rfl
@[simp] theorem State.emit_aux (s : State) (o : Out) : (s.emit o).aux = s.aux := rfl
@[simp] theorem State.emit_sec (s : State) (o : Out) : (s.emit o).sec = s.sec := rfl
@[simp] theorem State.emit_free (s : State) (o : Out) : (s.emit o).free = s.free := rfl
@[simp] theorem State.emit_pending (s : State) (o : Out) : (s.emit o).pending = s.pending := rfl
@[simp] theorem State.emit_out (s : State) (o : Out) : (s.emit o).out = o :: s.out := rfl

@[simp] theorem State.modRing_regs (s : State) (r : Nat) (f : RingSt → RingSt) : (s.modRing r f).regs = s.regs := rfl
@[simp] theorem State.modRing_sys (s : State) (r : Nat) (f : RingSt → RingSt) : (s.modRing r f).sys = s.sys := rfl
@[simp] theorem State.modRing_clk (s : State) (r : Nat) (f : RingSt → RingSt) : (s.modRing r f).clk = s.clk := rfl
@[simp] theorem State.modRing_flt (s : State) (r : Nat) (f : RingSt → RingSt) : (s.modRing r f).flt = s.flt := rfl
@[simp] theorem State.modRing_tsn (s : State) (r : Nat) (f : RingSt → RingSt) : (s.modRing r f).tsn = s.tsn := rfl
@[simp] theorem State.modRing_red (s : State) (r : Nat) (f : RingSt → RingSt) : (s.modRing r f).red = s.red := rfl
@[simp] theorem State.modRing_cnl (s : State) (r : Nat) (f : RingSt → RingSt) : (s.modRing r f).cnl = s.cnl := rfl
@[simp] theorem State.modRing_loop (s : State) (r : Nat) (f : RingSt → RingSt) : (s.modRing r f).loop = s.loop := rfl
@[simp] theorem State.modRing_cell (s : State) (r : Nat) (f : RingSt → RingSt) : (s.modRing r f).cell = s.cell := rfl
@[simp] theorem State.modRing_nrg (s : State) (r : Nat) (f : RingSt → RingSt) : (s.modRing r f).nrg = s.nrg := rfl
@[simp] theorem State.modRing_mtr (s : State) (r : Nat) (f : RingSt → RingSt) : (s.modRing r f).mtr = s.mtr := rfl
@[simp] theorem State.modRing_pwm (s : State) (r : Nat) (f : RingSt → RingSt) : (s.modRing r f).pwm = s.pwm := rfl
@[simp] theorem State.modRing_cmp (s : State) (r : Nat) (f : RingSt → RingSt) : (s.modRing r f).cmp = s.cmp := rfl
@[simp] theorem State.modRing_aux (s : State) (r : Nat) (f : RingSt → RingSt) : (s.modRing r f).aux = s.aux := rfl
@[simp] theorem State.modRing_sec (s : State) (r : Nat) (f : RingSt → RingSt) : (s.modRing r f).sec = s.sec := rfl
@[simp] theorem State.modRing_out (s : State) (r : Nat) (f : RingSt → RingSt) : (s.modRing r f).out = s.out := rfl
@[simp] theorem State.modRing_free (s : State) (r : Nat) (f : RingSt → RingSt) : (s.modRing r f).free = s.free := rfl
@[simp] theorem State.modRing_pending (s : State) (r : Nat) (f : RingSt → RingSt) : (s.modRing r f).pending = s.pending := rfl

@[simp] theorem State.fresh_regs (s : State) (w : Nat) : (s.fresh w).2.regs = s.regs := rfl
@[simp] theorem State.fresh_sys (s : State) (w : Nat) : (s.fresh w).2.sys = s.sys := rfl
@[simp] theorem State.fresh_clk (s : State) (w : Nat) : (s.fresh w).2.clk = s.clk := rfl
@[simp] theorem State.fresh_hst (s : State) (w : Nat) : (s.fresh w).2.hst = s.hst := rfl
@[simp] theorem State.fresh_flt (s : State) (w : Nat) : (s.fresh w).2.flt = s.flt := rfl
@[simp] theorem State.fresh_tsn (s : State) (w : Nat) : (s.fresh w).2.tsn = s.tsn := rfl
@[simp] theorem State.fresh_red (s : State) (w : Nat) : (s.fresh w).2.red = s.red := rfl
@[simp] theorem State.fresh_cnl (s : State) (w : Nat) : (s.fresh w).2.cnl = s.cnl := rfl
@[simp] theorem State.fresh_loop (s : State) (w : Nat) : (s.fresh w).2.loop = s.loop := rfl
@[simp] theorem State.fresh_cell (s : State) (w : Nat) : (s.fresh w).2.cell = s.cell := rfl
@[simp] theorem State.fresh_nrg (s : State) (w : Nat) : (s.fresh w).2.nrg = s.nrg := rfl
@[simp] theorem State.fresh_mtr (s : State) (w : Nat) : (s.fresh w).2.mtr = s.mtr := rfl
@[simp] theorem State.fresh_pwm (s : State) (w : Nat) : (s.fresh w).2.pwm = s.pwm := rfl
@[simp] theorem State.fresh_cmp (s : State) (w : Nat) : (s.fresh w).2.cmp = s.cmp := rfl
@[simp] theorem State.fresh_aux (s : State) (w : Nat) : (s.fresh w).2.aux = s.aux := rfl
@[simp] theorem State.fresh_sec (s : State) (w : Nat) : (s.fresh w).2.sec = s.sec := rfl
@[simp] theorem State.fresh_out (s : State) (w : Nat) : (s.fresh w).2.out = s.out := rfl
@[simp] theorem State.fresh_pending (s : State) (w : Nat) : (s.fresh w).2.pending = s.pending := rfl
@[simp] theorem State.fresh_free (s : State) (w : Nat) : (s.fresh w).2.free = s.free + 1 := rfl

end Sys2Proof.Machine
end

