-- ==== Sys2Proof/Laws/Step.lean ====
section
/-! SUPPORT. How a command runs: what a meaning answers while the main domains run, what a host write of a register that
decodes does, and where a ring command that comes up is checked. -/

set_option Elab.async false

namespace Sys2Proof.Machine

open Sys2Proof

/-- While the main domains run a meaning answers what it leaves, and all that follows from it at once. -/
theorem finish_awake {s : State} (h : s.collects = true) (f : State → State) : finish (s.awake f) = .next (f s).settle := by
  unfold finish State.awake; rw [if_pos h]

/-- While they are held in reset it answers the state it was given. -/
theorem finish_asleep {s : State} (h : s.collects = false) (f : State → State) : finish (s.awake f) = .next s.settle := by
  unfold finish State.awake; rw [if_neg (by simp [h])]

/-- Waking the link changes no register. -/
@[simp] theorem State.wakeLink_regs (s : State) (q : Requester) : (s.wakeLink q).regs = s.regs := by
  unfold State.wakeLink; split <;> rfl

/-- Waking the link changes no address that decodes. -/
@[simp] theorem State.wakeLink_decodes (s : State) (q : Requester) (off : Nat) : (s.wakeLink q).decodes off = s.decodes off := by
  unfold State.wakeLink; split <;> rfl

/-- A write of a register that decodes wakes the link, writes the register's fields, then acts. -/
theorem hostWrite_of_decodes {s : State} {off : Nat} {w : Word} (hd : s.decodes off = true) (f : State → State)
    (q : Requester := byHost) : s.hostWrite off w f q = f ((s.wakeLink q).writeFields q off w) := by
  unfold State.hostWrite; simp [hd]

/-- A host write of a register that decodes acts on the state in which the word is written. -/
theorem hostWrite_written {s : State} {off : Nat} {w : Word} (hd : s.decodes off = true) (f : State → State) :
    s.hostWrite off w f = f (s.written off w) := hostWrite_of_decodes hd f

/-- A ring command is submitted under its row's opcode, format and owner. -/
theorem ring_exec {c : Instr} {op : Nat} {r : RingIx} {d : Desc} {resp : Bytes} {fmt : Format} {own : Owner}
    (h : ringRow c = some (op, r, d, resp)) (h2 : rowOf op resp = (fmt, own)) (s : State) :
    exec c s = finish (s.awake fun s => s.submit r op d fmt own resp) := by
  cases c <;> simp only [ringRow, Option.some.injEq, Prod.mk.injEq, reduceCtorEq] at h
  all_goals
    obtain ⟨rfl, rfl, rfl, rfl⟩ := h
    simp only [rowOf, Prod.mk.injEq] at h2
    obtain ⟨rfl, rfl⟩ := h2
    rfl

/-- A descriptor that comes up in a command ring is checked at once. -/
theorem submit_up {s : State} {r : RingIx} {d : Desc} (h : s.comesUp r d) (op : Nat) (fmt : Format) (own : Owner) (resp : Bytes) :
    s.submit r op d fmt own resp = (s.taken r).check op fmt own (s.cmdOf r d) := by
  obtain ⟨h1, h2, h3, h4, h5, h7⟩ := h
  unfold State.submit
  have hr : ¬ (r.val = evtq) := by unfold evtq; omega
  have h6 : ¬ 4 ≤ r.val := by omega
  have e : s.takeUp r = (s.nextIx r, s.hst.fetchSeq, s.taken r) := rfl
  simp only [hr, h3, e, h6, h4, h5, h7, decide_false, Bool.not_true, Bool.or_self, Bool.false_eq_true, if_false]
  rfl

/-- A ring command that comes up answers its check's state, and all that follows from it at once. -/
theorem exec_up {c : Instr} {op : Nat} {r : RingIx} {d : Desc} {resp : Bytes} {fmt : Format} {own : Owner}
    (h : ringRow c = some (op, r, d, resp)) (h2 : rowOf op resp = (fmt, own)) {s : State} (hu : s.comesUp r d) :
    exec c s = .next ((s.taken r).check op fmt own (s.cmdOf r d)).settle := by
  rw [ring_exec h h2, finish_awake hu.1, submit_up hu]

end Sys2Proof.Machine
end

