-- ==== Sys2Proof/Tests/Slice0.lean ====
section
/-! SUPPORT. Small tests: ill-formed commands that the checks of WellFormed refuse, values the spec gives worked out by
hand, and for every statement a state and operands that meet the hypotheses of each of its clauses. -/

set_option Elab.async false

namespace Sys2Proof.Tests

open Sys2Proof Sys2Proof.Machine

/-! ### Builders -/

/-- A state with register fields set. -/
def sets (xs : List (Fld × Nat)) (s : State) : State := each xs (fun s x => s.wr x.1 x.2) s

/-- Boot done, in a power state (1 RUN, 2 HOLD, 3 TOWPATH), with fields set. -/
def up (p : Nat) (xs : List (Fld × Nat)) : State :=
  sets ([(R.SYS_BOOT_STAT_DONE, 1), (R.SYS_PWR_STAT_STATE, p)] ++ xs)
    { State.reset with sys := { State.reset.sys with boot := .done } }

/-- In boot, at a step. -/
def inBoot (b : BootPhase) : State := { State.reset with sys := { State.reset.sys with boot := b } }

/-- A descriptor of an opcode with operands given by byte, length and value (Table 4.4). -/
def cmd (op : Nat) (xs : List (Nat × Nat × Nat)) : Desc :=
  { opcode := BitVec.ofNat 8 op, flags := 0, tag := 7, ops := layBytes 20 (xs.map fun (o, n, v) => (o - 4, n, v)) }

/-- The state with ring `r` running and `n` descriptors fetched, every opcode permitted. -/
def ringed (r n : Nat) (s : State) : State :=
  (sets [(R.HST_RING_CTL_ENABLE r, 1), (R.HST_RING_STATE_QUIESCED r, 0), (R.HST_RING_STAT_PROD r, n),
    (R.HST_CMD_PERMIT01_RING0, 0xFFFF), (R.HST_CMD_PERMIT01_RING1, 0)] s).modRing r fun g => { g with fetched := n }

/-- A barge of a type at a position of a pound, its CRC good. -/
def barge (typ pos pound hops cycle words : Nat) (xs : List (Nat × Nat × Nat)) : Barge :=
  let b : Barge := { typ := typ, position := pos, pound := pound, flags := 0, hops := hops, cycle := cycle, seq := 1
                     length := words, payload := layBytes (4 * words) xs, crc := 0 }
  { b with crc := b.goodCrc }

/-! ### WellFormed refuses -/

theorem test_wf_descriptor_short : (Instr.heartbeat 0 { cmd 1 [] with ops := [] }).wf = false := by decide
theorem test_wf_descriptor : (Instr.heartbeat 0 (cmd 1 [])).wf = true := by decide
theorem test_wf_doorbell_of_event_ring : (Instr.ringDoorbell 12 ⟨0, false⟩).wf = false := by decide
theorem test_wf_disable_that_enables : (Instr.ringDisable 0 0x80000000#32 0).wf = false := by decide
theorem test_wf_enable_that_disables : (Instr.ringEnable 0 0).wf = false := by decide
theorem test_unaligned_write_is_well_formed : (Instr.registerWrite 2 0 15 .write32).wf = true := by decide
theorem test_wf_enables_of_a_narrow_write : (Instr.registerWrite 4 0 0xF0 .write32).wf = false := by decide
theorem test_wf_barge_length : (Instr.helloReceived 0 { barge 10 0 0 0 0 4 [] with length := 3 }).wf = false := by decide +kernel
theorem test_wf_barge_position : (Instr.helloReceived 0 { barge 10 0 0 0 0 4 [] with position := 256 }).wf = false := by
  decide +kernel
theorem test_wf_towpath_frame : (Instr.towpathFrameReceived 0 []).wf = false := by decide
theorem test_wf_sample_channel : (Instr.fineResult 1 [{ channel := 64, x := 0, clean := true }]).wf = false := by decide
theorem test_wf_mark_fraction :
    (Instr.sampleMark [{ channel := 0, y0 := 0, y1 := 0, frac := 50001, clean := true }]).wf = false := by decide
theorem test_wf_shunt_vector : (Instr.auxDecision 0 [{ vec := 8, mark := { channel := 0, y0 := 0, y1 := 0, frac := 0, clean := true } }]).wf =
    false := by decide
theorem test_wf_loop_number : (Instr.computeWindowOpen (some 1024) false).wf = false := by decide
theorem test_wf_no_rail : (Instr.supplyMonitorTrip 0 false).wf = false := by decide

/-! ### Values worked out from the spec -/

/-- The keep-alive CRC of R145 on the check string 123456789. -/
theorem test_crc16_check_string :
    keepAliveCrc [0x31#8, 0x32#8, 0x33#8, 0x34#8, 0x35#8, 0x36#8, 0x37#8, 0x38#8, 0x39#8] = 0x29B1#16 := by decide +kernel

/-- The barge CRC of R153 on the check string 123456789. -/
theorem test_crc32c_check_string :
    crc32c [0x31#8, 0x32#8, 0x33#8, 0x34#8, 0x35#8, 0x36#8, 0x37#8, 0x38#8, 0x39#8] = 0xE3069283#32 := by decide +kernel

/-- A signature made with the private key 1 verifies under its public key, the base point (R266). -/
theorem test_signature : ecdsaOk (beBytes 32 p256G.1 ++ beBytes 32 p256G.2) (List.replicate 32 0x5A#8)
    (ecdsaSign 1 12345 (List.replicate 32 0x5A#8)) = true := by decide +kernel

/-- The waits of R127: 512 ms after the tenth failure, 1 s from then on. -/
theorem test_backoff : backoffMs 1 = 1 ∧ backoffMs 10 = 512 ∧ backoffMs 11 = 1000 := by decide

/-- 1 + 2 = 3 and 1/3 rounds to 0x3EAAAAAB in binary32. -/
theorem test_binary32 : fAdd 0x3F800000#32 0x40000000#32 = 0x40400000#32 ∧ fOfRat (1 / 3) = 0x3EAAAAAB#32 := by decide +kernel

/-- `SYS_ID` of a KZT-6192 of revision B0 (R4). -/
theorem test_part : State.reset.rd R.SYS_ID_PART = 0x6192 := by decide +kernel

/-- SAMPLE marks of a 30 µs period 30 µs apart (R17, R25). -/
theorem test_mark_times : State.reset.markTime 2 - State.reset.markTime 1 = 30000 := by decide +kernel

theorem test_no_word_spells_a_command : decodeTableWord 16 0 = none ∧ State.reset.withFetchWord 16 0 = State.reset := by
  decide +kernel

/-- Before boot is DONE six registers decode (R80). -/
theorem test_early_registers : (inBoot .search).decodes 0x30 = true ∧ (inBoot .search).decodes 0x40 = false := by decide +kernel

/-- A write of 1 clears a W1C bit and leaves the others (Table 0.3): CHANGED of `CNL_POUND_STAT`. -/
theorem test_w1c : ((up 2 [(R.CNL_POUND_STAT_CHANGED 0, 1)]).writeFields byHost 0x10A04 0x100#32).is
    (R.CNL_POUND_STAT_CHANGED 0) = false := by decide +kernel

/-- HEARTBEAT on a ring completes OK and restarts the watchdog (R118). -/
theorem test_heartbeat : (match exec (.heartbeat 0 (cmd 1 [])) (ringed 0 1 (up 2 [])) with
    | .next t => t.hst.armed && decide ((t.ring 0).fetch = 1)
    | _ => false) = true := by decide +kernel

/-- A step takes the front command. -/
theorem test_step_takes_front : (match step { up 2 [] with pending := [.testLogicReset, .applyMark] } with
    | .next t => decide (t.pending = [.applyMark])
    | _ => false) = true := by decide +kernel

/-! ### States that meet the hypotheses of the statements -/

theorem wit_EmptyQueueIsOneTick : State.reset.pending = [] ∧ State.reset.sys.feeds ≠ 0 ∧ State.reset.sys.railsOk.getLsbD 0 = true ∧
    { State.reset with sys := { State.reset.sys with feeds := 0 } }.sys.feeds = 0 := by decide +kernel

theorem wit_QuietStateIsLeftAlone : State.reset.quiet = true ∧ (up 2 []).quiet = true := by decide +kernel

theorem wit_EveryCommandHasItsEffect : (up 2 []).collects = true ∧ actsInReset .testLogicReset = true ∧
    (inBoot .reset).collects = false := by decide +kernel

theorem wit_StepTakesOneCommand : ∃ t, step { up 2 [] with pending := [.testLogicReset, .applyMark] } = .next t := ⟨_, rfl⟩

theorem wit_StepKeepsCanonicalForm : State.reset.regsWf = true ∧ State.reset.banksWf = true ∧ (up 2 []).regsWf = true := by
  decide +kernel

theorem wit_LocalCounterNeverGoesBack :
    startsAnew .testLogicReset = false ∧ ∃ t, exec .testLogicReset (up 2 []) = .next t := ⟨by decide, _, rfl⟩

theorem wit_ResetHoldsTheMainDomains : (inBoot .reset).collects = false ∧ (inBoot .off).collects = false ∧
    actsInReset .applyMark = false ∧ (inBoot .off).sec.scan = false ∧ (up 1 [(R.FLT_STAT_SAFETY, 2)]).isSafe = true ∧
    (up 1 [(R.FLT_STAT_SAFETY, 2)]).sec.scan = false := by decide +kernel

/-- Table 2.4, HOLD: `SAFE_N` and `READY` high, the transceivers powered. -/
theorem test_pins_in_hold : (up 2 []).safeN = .high ∧ (up 2 []).readyPin = .high ∧ (up 2 []).optPwrEn = .high := by
  decide +kernel

theorem wit_FieldsAreIndependent : (up 2 []).regsWf = true ∧ (R.HST_RING_CTL_SIZE_LOG2 3).fits ∧
    (R.HST_RING_CTL_SIZE_LOG2 3).apart (R.HST_RING_CTL_ENABLE 3) ∧ (R.HST_RING_CTL_SIZE_LOG2 3).apart R.SYS_CYCLE_PERIOD := by
  unfold Fld.fits Fld.apart; decide +kernel

theorem wit_WriteObeysAccessCodes : (match regAt 0x8108 with
    | some (d, _) => d.fields.any fun f => decide (f.access = .rw ∧ 0 < f.width) && !(f.legal.ok 3)
    | none => false) = true ∧ (regAt 0x10A04).isSome = true := by decide +kernel

theorem wit_HostWritesReachRegisters :
    (up 2 []).collects = true ∧
    plainReg 0x28004 = true ∧
    (up 2 []).decodes 0x28004 = true ∧
    (0x28004#20).toNat % 4 = 0 ∧
    (0xF#8).toNat % 16 = 15 ∧
    (2#20).toNat % 4 ≠ 0 ∧
    (3#8).toNat % 16 ≠ 15 ∧
    plainReg 0x28FF0 = true ∧
    (up 2 []).decodes 0x28FF0 = false ∧
    (up 2 []).bootDone = true ∧
    (inBoot .search).bootDone = false ∧
    (inBoot .search).collects = true ∧
    (2 ≠ 4 ∧ 2 ≠ 8) := by
  and_intros <;> decide +kernel

theorem wit_RestIsLeftAlone :
    (up 2 []).collects = true ∧
    (up 2 []).bootDone = true ∧
    { up 2 [] with red := { (up 2 []).red with startT := true } }.quiet = true ∧
    { up 2 [] with sec := { (up 2 []).sec with scan := false } }.quiet = true ∧
    ((up 2 []).outTimeout 3).quiet = true ∧
    ((up 2 []).mirrorIn []).quiet = true ∧
    ((up 2 []).copyIn []).quiet = true ∧
    { up 2 [] with hst := { (up 2 []).hst with linkUp := false } }.quiet = true ∧
    plainReg 0x28018 = true ∧
    (0x28018#20).toNat % 4 = 0 ∧
    (up 2 []).decodes 0x28018 = true ∧
    ((up 2 []).written 0x28018 50#32).quiet = true ∧
    (up 2 []).fusedBits 0x28018 50#32 = 50#32 ∧
    (up 2 []).locked = false ∧
    (match regAt 0x28018 with
      | some (d, _) => decide (d.fields.foldl ((up 2 []).writeField 0x28018 50#32 true false) { word := (up 2 []).reg 0x28018 } =
          { word := 50#32, reserved := false, locked := false })
      | none => false) = true ∧
    (up 1 [(R.AUX_STAT_STATE 0, 3)]).driveState 0 = .running ∧
    (((up 1 [(R.AUX_STAT_STATE 0, 3)]).advanceByTicks (((up 1 [(R.AUX_STAT_STATE 0, 3)]).drive 0).since + 500000000)).wr
      (R.AUX_STAT_RECATCH_CNT 0) 0).quiet = true ∧
    (up 1 [(R.AUX_STAT_STATE 0, 3)]).regsWf = true := by
  and_intros <;> decide +kernel

/-- LE's reference loop 3 on the backup clock, locked or not. -/
def fellBack (locked : Nat) : State := up 2 [(R.CLK_FB_STAT_DOMAIN, 8), (R.CLK_PLL_STAT_LOCKED, 8 * locked)]

theorem wit_PowerAndClockRegistersAct :
    (up 2 []).collects = true ∧
    (up 2 []).decodes 0x40 = true ∧
    Power.ofReq 1 = some .run ∧
    ((up 2 []).written 0x40 1#32).power ≠ .towpath ∧
    ((up 2 []).written 0x40 1#32).sys.move = none ∧
    ((up 2 []).written 0x40 1#32).powerDetail .run true = none ∧
    Power.ofReq 2 = some .hold ∧
    ((up 3 []).written 0x40 2#32).power = .towpath ∧
    ((up 3 []).written 0x40 2#32).sys.move = none ∧
    ((up 3 []).written 0x40 2#32).powerDetail .hold true = none ∧
    Power.ofReq 4 = some .off ∧
    ((up 2 []).written 0x40 4#32).powerDetail .off true = none ∧
    Power.ofReq 3 = some .towpath ∧
    ((up 1 []).written 0x40 3#32).sys.move.isNone = true ∧
    ((up 1 []).written 0x40 3#32).powerDetail .towpath true = some 13 ∧
    (up 2 []).decodes 0x10 = true ∧
    ((up 2 []).written 0x10 (3000#32 ||| 0x80000000#32)).cycleRefused 3000 = none ∧
    ((up 2 []).written 0x10 (3000#32 ||| 0x80000000#32)).rd R.SYS_CYCLE_PERIOD = 3000 ∧
    ((up 2 []).written 0x10 (100#32 ||| 0x80000000#32)).cycleRefused
      (((up 2 []).written 0x10 (100#32 ||| 0x80000000#32)).rd R.SYS_CYCLE_PERIOD) = some 2 ∧
    (up 2 []).decodes 0x4010 = true ∧
    (clkLoops.filter fun n => (8#32).getLsbD n) = [3] ∧
    ((fellBack 1).written 0x4010 8#32).onBackup 3 = true ∧
    ((fellBack 1).written 0x4010 8#32).loopLocked 3 = true ∧
    ((fellBack 0).written 0x4010 8#32).loopLocked 3 = false ∧
    (up 2 []).decodes 0x4028 = true ∧
    (1#32).getLsbD 0 = true ∧
    ((up 2 []).written 0x4028 1#32).is R.CLK_UPDATE_BUSY = false ∧
    ((up 2 []).written 0x4028 1#32).onBackup 1 = false ∧
    ((up 2 []).written 0x4028 1#32).clk.stopped = 0 ∧
    ((up 2 []).written 0x4028 1#32).onBackup 9 = false := by
  and_intros <;> decide +kernel

theorem wit_ResetsAndOverlaysAct : (up 2 []).decodes 0x34 = true ∧ (0xC1A50001#32).toNat / 65536 = 0xC1A5 ∧
    (0xC1A50001#32).getLsbD 0 = true ∧ (0xC1A50001#32).getLsbD 1 = false ∧ (0xC1A50A02#32).getLsbD 0 = false ∧
    (0xC1A50A02#32).getLsbD 1 = true ∧ (0xC1A50A02#32).toNat / 256 % 16 = 10 ∧ resettable 10 = true ∧ resettable 1 = true ∧
    ((up 2 []).written 0x34 0xC1A50A02#32).power ≠ .run ∧ ((up 1 []).written 0x34 0xC1A50A02#32).power = .run ∧
    (1#32).toNat / 65536 ≠ 0xC1A5 ∧ aonRegs.contains 0x8108 = false ∧ (up 2 []).decodes 0x50 = true ∧ (up 2 []).reg 0x50 = 0#32 ∧
    (up 2 []).isSafe = false ∧ (up 2 []).power = .hold ∧ (up 1 []).power = .run ∧ (up 2 []).grid = 0 ∧
    (up 2 []).noDriveTurns = true ∧ (up 2 [(R.FLT_STAT_SAFETY, 2)]).isSafe = true := by decide +kernel

theorem wit_BanksAreWrittenAndVerified : (up 2 []).bootDone = true ∧ (up 2 []).bankClosed 0 = true ∧ (up 2 []).bankClosed 1 = false ∧
    ((32768 : Fin 65536).val / 32768 = 1) ∧ ((up 2 []).written 0x20004 1#32).is R.LOOP_BANK_STAT_VERIFY_BUSY = false ∧
    { up 2 [] with loop := { (up 2 []).loop with verifying := some false } }.loop.verifying.isSome = true := by decide +kernel

/-- Comparator 5 persistent and escalated. -/
def tripped : State := up 2 [(R.CMP_CH_STAT_ESCALATED 5, 1), (R.CMP_CH_STAT_PERSIST_CNT 5, 3)]

theorem wit_SwitchingRegistersAct : (up 2 [(R.PWM_GRP_STAT_RUNNING 2, 1)]).decodes 0x34000 = true ∧
    ((List.range 8).filter fun g => (4#32).getLsbD g) = [2] ∧ (up 2 []).decodes 0x34120 = true ∧
    ((up 2 []).written 0x34120 0x80000100#32).is (R.PWM_GRP_CTL_EN 2) = true ∧
    ((up 2 [(R.PWM_GRP_STAT_RUNNING 2, 1)]).written 0x34120 0#32).is (R.PWM_GRP_CTL_EN 2) = false ∧
    ((up 2 [(R.PWM_GRP_STAT_RUNNING 2, 1)]).written 0x34120 0#32).pwmRuns 2 = true ∧
    (((up 2 [(R.PWM_GRP_STAT_RUNNING 2, 1)]).written 0x34120 0#32).wrB (R.PWM_GRP_STAT_RUNNING 2) false).is
      (R.PWM_GRP_STAT_ARMED 2) = false ∧ (up 2 []).decodes (R.PWM_GRP_CTL_PERIOD 2).off = true ∧
    ((up 2 []).setLatch 0x0E2 true).decodes 0x36018 = true ∧
    (((up 2 []).setLatch 0x0E2 true).written 0x36018 1#32).latched 0x0E2 = true ∧
    (up 2 []).decodes (0x3610C + 0x10 * 5) = true ∧ (up 2 []).is (cmpRaw 5 true) = false ∧
    (up 2 []).collects = true ∧ (up 2 []).decodes (R.PWM_CH_DUTY_DUTY 7).off = true ∧ (up 2 []).rd (R.PWM_CH_CFG_SRC 7) = 0 ∧
    (up 2 [(R.PWM_CH_CFG_SRC 7, 1)]).rd (R.PWM_CH_CFG_SRC 7) ≠ 0 ∧ (up 2 []).decodes (R.PWM_CH_PHASE_PHASE 7).off = true ∧
    ((up 2 [(R.PWM_GRP_STAT_RUNNING 2, 1)]).written 0x34000 4#32).pwmRuns 2 = true ∧ ((up 2 []).written 0x34000 4#32).pwmRuns 2 = false ∧
    (tripped.written 0x36018 0x20#32).latched 0x0E2 = false ∧ tripped.decodes 0x36018 = true ∧
    ((List.range 32).filter fun i => (0x20#32).getLsbD i && (tripped.written 0x36018 0x20#32).is (R.CMP_CH_STAT_ESCALATED (0 + i))) = [5] ∧
    (up 2 []).decodes 0x3601C = true ∧ (up 2 [(cmpRaw 5 true, 1)]).is (cmpRaw 5 true) = true := by
  and_intros <;> decide +kernel

/-- The test DAC granted. -/
def dac : State := up 2 [(R.SYS_OVERLAY_MTR_TESTDAC, 1)]

theorem wit_ServiceRegistersAct : (up 2 []).decodes 0x30010 = true ∧ ((up 2 []).written 0x30010 0x80000000#32).mtr.diag = none ∧
    ((up 2 []).written 0x30010 0x80000000#32).is R.MTR_DIAG_RES_WAITING = false ∧
    ((up 2 []).written 0x30010 0x80000000#32).is R.SYS_OVERLAY_MTR_TESTDAC = false ∧
    (dac.written 0x30010 0x80000003#32).is R.SYS_OVERLAY_MTR_TESTDAC = true ∧
    (dac.written 0x30010 0x80000003#32).rd R.MTR_DIAG_CH < 40 ∧ (dac.written 0x30010 0x80000003#32).mtr.calStep ≠ 3 ∧
    (dac.written 0x30010 0x80000003#32).mtr.diag = none ∧
    (dac.written 0x30010 0x80000003#32).is R.MTR_DIAG_RES_WAITING = false ∧
    ((List.range 32).filter fun t => (2#32).getLsbD t &&
      ((up 2 [(R.MTR_TRK_CFG_EN 1, 1)]).written 0x30018 2#32).is (R.MTR_TRK_CFG_EN t)) = [1] ∧
    (up 2 []).decodes 0x30018 = true ∧ (up 2 []).decodes 0x10040 = true ∧ (up 2 []).decodes 0x3A010 = true ∧
    (up 2 []).decodes 0x31020 = true ∧ (up 2 []).decodes 0x3E000 = true ∧ (up 2 []).decodes 0x3E040 = true ∧ (up 2 []).regsWf = true ∧
    { up 2 [(R.MTR_DIAG_LEVEL, 9)] with mtr := { (up 2 []).mtr with diag := some 3 } }.mtr.diag = some 3 ∧
    (up 2 [(R.MTR_DIAG_LEVEL, 9)]).rd R.MTR_DIAG_LEVEL ≠ 0 ∧
    (up 2 []).collects = true ∧
    ({ dac with mtr := { dac.mtr with calStep := 3 } }.written 0x30010 0x80000003#32).mtr.calStep = 3 ∧
    (up 2 []).decodes 0x10000 = true := by decide +kernel

/-! Commands on the rings -/

/-- Ring 0 with one descriptor to take up, in a power state and with fields set. -/
def at0 (p : Nat) (xs : List (Fld × Nat)) : State := ringed 0 1 (up p xs)

/-- The same in a known lifecycle state. -/
def asReset (p : Nat) : State := at0 p []

theorem wit_RingChecksInOrder :
    (ringRow (.heartbeat 0 (cmd 1 [])) = some (1, 0, cmd 1 [], [])) ∧
    rowOf 1 [] = some (fmtNone, ownHeartbeat) ∧
    rowOf 0x10 [] = some (fmtGrid, ownGrid false) ∧
    (asReset 2).comesUp 0 (cmd 1 []) ∧
    (asReset 2).comesUp 0 (cmd 0x10 []) ∧
    (cmd 2 []).opcode.toNat ≠ 1 ∧
    (cmd 1 []).flagsOk = true ∧
    ({ cmd 1 [] with flags := 0x80 } : Desc).flagsOk = false ∧
    (asReset 2).comesUp 0 { cmd 1 [] with flags := 0x80 } ∧
    fmtNone ((asReset 2).taken 0) (cmd 1 [(4, 1, 1)]) = some 5 ∧
    fmtGrid ((asReset 2).taken 0) (cmd 0x10 [(4, 1, 1)]) = none ∧
    ((at0 2 []).wr R.HST_CMD_PERMIT01_RING0 0).permitted 0 0x10 = false ∧
    ((at0 2 []).taken 0).permitted 0 0x10 = true ∧
    ((at0 2 []).taken 0).modeRefusal (cmd 0x10 [(4, 1, 1)]) = some 13 := by
  and_intros <;> first | decide +kernel | (unfold State.comesUp; decide +kernel) | rfl

/-- A seat that is standby of a pair, and one with a host-loss plan in progress. -/
def planned : State := { up 1 [] with hst := { (up 1 []).hst with plan := some { plan := 1, waiting := false, since := 0, start := [] } } }
def standby (p : Nat) (xs : List (Fld × Nat)) : State := up p ([(R.RED_CTL_PAIRED, 1), (R.RED_STAT_LINK_UP, 1)] ++ xs)

theorem wit_ModesRefuseInOrder :
    (up 2 [(R.FLT_STAT_SAFETY, 2)]).isSafe = true ∧
    (cmd 0x50 [(4, 1, 0)]).le 4 1 ≠ 1 ∧
    (cmd 0x42 [(6, 1, 1)]).le 6 1 ≠ 0 ∧
    (up 2 []).isSafe = false ∧
    (up 2 [(R.CLK_FB_STAT_DOMAIN, 1)]).onBackup 0 = true ∧
    (up 2 [(R.CLK_FB_STAT_DOMAIN, 1)]).isSafe = false ∧
    (up 2 []).onBackup 0 = false ∧
    (up 2 []).power = .hold ∧
    (up 3 []).power = .towpath ∧
    (up 3 []).isSafe = false ∧
    (up 1 [(R.SEC_LC_STATE, 3)]).power = .run ∧
    (up 1 [(R.SEC_LC_STATE, 3)]).rd R.SEC_LC_STATE = 3 ∧
    (standby 1 []).role = .standby ∧
    (standby 1 []).rd R.SEC_LC_STATE ≠ 3 ∧
    (up 1 []).role ≠ .standby ∧
    (up 1 []).planActive = false ∧
    planned.planActive = true ∧
    planned.role ≠ .standby ∧
    planned.onBackup 0 = false := by decide +kernel

/-- Sixty-four commands kept. -/
def keptFull (s : State) : State := { s with hst := { s.hst with kept := (List.range 64).map fun i =>
  { seq := i, ring := 1, idx := i, desc := cmd 0x20 [], deferred := true, since := 0 } } }

/-- A set-point slot of region 0, and SETPOINT to it. -/
def slotted (p : Nat) (xs : List (Fld × Nat)) : State :=
  at0 p ([(R.LOOP_REGION_KIND 0, 1), (R.LOOP_REGION_BASE 0, 0), (R.LOOP_REGION_COUNT 0, 16)] ++ xs)

/-- In RUN while a shut-down runs, which makes GRID_MODE pending (R241). -/
def shutting : State := { at0 1 [] with cell := { (up 1 []).cell with shut := some { since := 0, start := [], legs := 0 } } }

theorem wit_OwnerDecidesLast :
    (ringRow (.heartbeat 0 (cmd 1 [])) = some (1, 0, cmd 1 [], [])) ∧
    rowOf 1 [] = some (fmtNone, ownHeartbeat) ∧
    (at0 2 []).passes 1 fmtNone 0 (cmd 1 []) ∧
    ((ownHeartbeat ((at0 2 []).cmdOf 0 (cmd 1 [])) ((at0 2 []).taken 0)).2).status.keeps = false ∧
    (keptFull shutting).hst.kept.length = 64 ∧
    (ringRow (.gridMode 0 (cmd 0x10 [(4, 1, 1)])) = some (0x10, 0, cmd 0x10 [(4, 1, 1)], [])) ∧
    rowOf 0x10 [] = some (fmtGrid, ownGrid false) ∧
    (keptFull shutting).passes 0x10 fmtGrid 0 (cmd 0x10 [(4, 1, 1)]) ∧
    ((ownGrid false ((keptFull shutting).cmdOf 0 (cmd 0x10 [(4, 1, 1)])) ((keptFull shutting).taken 0)).2).status.keeps = true ∧
    shutting.passes 0x10 fmtGrid 0 (cmd 0x10 [(4, 1, 1)]) ∧
    shutting.hst.kept.length < 64 ∧
    ((ownGrid false (shutting.cmdOf 0 (cmd 0x10 [(4, 1, 1)])) (shutting.taken 0)).2).status.keeps = true := by
  refine ⟨rfl, rfl, ?_, ?_, ?_, rfl, rfl, ?_⟩ <;>  and_intros <;> first | decide +kernel | (unfold State.passes State.comesUp; decide +kernel)

/-- A command held by a fence before it. -/
def heldOne (r : Nat) (s : State) : State := { s with hst := { s.hst with
  held := [{ seq := 0, ring := r, idx := 0, row := 1, desc := cmd 1 [], fetchTime := 0 }], fetchSeq := 5 } }

/-- A descriptor fetched in `CMDQ0`, and one in `CMDQ1`. -/
def lowerFetched (s : State) : State := ringed 1 1 s

theorem wit_FenceHoldsACommand :
    (at0 2 []).collects = true ∧
    (heldOne 0 (at0 2 [])).hasDesc 0 = true ∧
    ((heldOne 0 (at0 2 [])).taken 0).ringWaits 0 5 = true ∧
    (heldOne 0 (at0 2 [])).hst.fetchSeq = 5 ∧
    ({ cmd 1 [] with flags := 2 } : Desc).fence = true ∧
    ((heldOne 1 (at0 2 [])).taken 0).fenced 5 = true ∧
    (heldOne 1 (at0 2 [])).hasDesc 0 = true ∧
    ((lowerFetched (at0 2 [])).taken 1).lowerWaits 1 = true ∧
    (lowerFetched (at0 2 [])).hasDesc 1 = true := by decide +kernel

theorem wit_HeartbeatsAndPowerRequests :
    (at0 2 []).passes 1 fmtNone 0 (cmd 1 []) ∧
    (at0 2 []).passes 3 fmtNone 0 (cmd 3 []) ∧
    ((at0 2 []).taken 0).planActive = false ∧
    (ringed 0 1 planned).passes 3 fmtNone 0 (cmd 3 []) ∧
    ((ringed 0 1 planned).taken 0).planActive = true ∧
    (at0 2 []).passes 2 fmtPower 0 (cmd 2 [(4, 1, 4)]) ∧
    Power.ofReq ((cmd 2 [(4, 1, 4)]).le 4 1) = some .off ∧
    ((at0 2 []).taken 0).powerDetail .off true = none ∧
    ((at0 2 []).taken 0).sys.move = none ∧
    (at0 2 []).passes 2 fmtPower 0 (cmd 2 [(4, 1, 1)]) ∧
    Power.ofReq ((cmd 2 [(4, 1, 1)]).le 4 1) = some .run ∧
    ((at0 2 []).taken 0).powerDetail .run true = none ∧
    ((at0 2 []).taken 0).power ≠ .towpath ∧
    (at0 3 []).passes 2 fmtPower 0 (cmd 2 [(4, 1, 2)]) ∧
    ((at0 3 []).taken 0).power = .towpath ∧
    ((at0 3 []).taken 0).powerDetail .hold true = none ∧
    (at0 1 []).passes 2 fmtPower 0 (cmd 2 [(4, 1, 3)]) ∧
    ((at0 1 []).taken 0).powerDetail .towpath true = some 13 ∧
    ((at0 1 []).taken 0).sys.move.isNone = true ∧
    ((at0 3 []).taken 0).sys.move = none ∧
    (ringed 0 1 planned).collects = true := by
  and_intros <;> first | decide +kernel | (unfold State.passes State.comesUp; decide +kernel)

/-! Commands of the Canal, the cells, the Basin, the drives and the pair -/

/-- The Manager's slots in one region of KIND 5, every leg with a need. -/
def gridReady : State := at0 1 [(R.LOOP_REGION_KIND 0, 5), (R.LOOP_REGION_COUNT 0, 64), (R.CELL_LEG_CTL_N_NEED 0, 1),
  (R.CELL_LEG_CTL_N_NEED 1, 1), (R.CELL_LEG_CTL_N_NEED 2, 1),
  (R.CELL_LEG_STAT_COND 0, 1), (R.CELL_LEG_STAT_COND 1, 1), (R.CELL_LEG_STAT_COND 2, 1)]

/-- The grid mode in force 1. -/
def gridOne : State := at0 1 [(R.CELL_STAT_GRID, 1)]

/-- A string's set-point of −1 A. -/
def stringNeg : State := { at0 2 [(R.LOOP_REGION_KIND 0, 6), (R.LOOP_REGION_COUNT 0, 64)] with
  loop := { (up 2 []).loop with staged := [(0, 0xBF800000#32)] } }

theorem wit_GridModesAndDirections :
    (at0 1 []).passes 0x10 fmtGrid 0 (cmd 0x10 [(4, 1, 0)]) ∧
    ((at0 1 []).taken 0).shutting = false ∧
    ((at0 1 []).taken 0).cell.blend = none ∧
    ((at0 1 []).taken 0).gridSoon = 0 ∧
    gridOne.passes 0x10 fmtGrid 0 (cmd 0x10 [(4, 1, 2)]) ∧
    (gridOne.taken 0).shutting = false ∧
    (gridOne.taken 0).cell.blend = none ∧
    (gridOne.taken 0).gridSoon = 1 ∧
    gridAllowed 1 2 = true ∧
    (gridOne.taken 0).vpkAllows 1 2 = true ∧
    gridReady.passes 0x10 fmtGrid 0 (cmd 0x10 [(4, 1, 1)]) ∧
    (gridReady.taken 0).shutting = false ∧
    (gridReady.taken 0).cell.blend = none ∧
    (gridReady.taken 0).gridSoon = 0 ∧
    (gridReady.taken 0).gridSlots = true ∧
    ([0, 1, 2].all fun l => (gridReady.taken 0).rd (R.CELL_LEG_CTL_N_NEED l) ≠ 0) = true ∧
    ([0, 1, 2].any (gridReady.taken 0).legRefuses) = false ∧
    (gridReady.taken 0).vpkAllows 0 1 = true ∧
    (gridReady.taken 0).rd R.NRG_STAT_SLUICE = 0 ∧
    ((gridReady.taken 0).admission none (fun _ => { Ask.nothing with act := fun g => (gridReady.taken 0).soonRole g = .ready }) 0 0
      false).status.done = true ∧
    (at0 2 []).passes 0x11 fmtDir 0 (cmd 0x11 [(4, 1, 2)]) ∧
    stringNeg.passes 0x11 fmtDir 0 (cmd 0x11 [(4, 1, 0)]) ∧
    (((List.range 16).map (stringNeg.taken 0).stringSetpoint).any fun v => fLt v 0#32) = true ∧
    ((at0 1 []).taken 0).grid = 0 ∧
    (gridOne.taken 0).gridSoon ≠ 0 ∧
    (gridReady.taken 0).grid = 0 := by
  and_intros <;> first | decide +kernel | (unfold State.passes State.comesUp; decide +kernel)

/-- A set-point of 1.5 to slot 3 of region 0; a string's 1.0 A within its limits; the verified idle bank 1. -/
def stringReady : State := { at0 2 [(R.LOOP_REGION_KIND 0, 6), (R.LOOP_REGION_COUNT 0, 64), (R.NRG_CTL_DIR, 2),
  (R.NRG_STR_CAP 0, 100), (R.NRG_STR_IMAX 0, 0x41200000)] with nrg := { (up 2 []).nrg with soe := [(0, 5000000)] } }

def bankReady : State := { at0 2 [] with loop := { (up 2 []).loop with
  bankB := { (up 2 []).loop.bankB with verified := true, digest := 0x1234, sched := 10 } } }

theorem wit_SetpointsAndBanks :
    (slotted 2 []).passes 0x20 fmtSetpoint 0 (cmd 0x20 [(4, 2, 3), (8, 4, 0x3FC00000)]) ∧
    ((slotted 2 []).taken 0).slotClass 3 = (0, 0) ∧
    stringReady.passes 0x21 fmtString 0 (cmd 0x21 [(4, 1, 0), (8, 4, 0x3F800000)]) ∧
    (stringReady.taken 0).basinOut = true ∧
    (stringReady.taken 0).rd R.NRG_CTL_DIR = 2 ∧
    (stringReady.taken 0).stringTest 0 0x3F800000#32 = true ∧
    opF32 (cmd 0x21 [(4, 1, 0), (8, 4, 0x3F800000)]) 8 = 0x3F800000#32 ∧
    fLe (fAbs 0x3F800000#32) ((stringReady.taken 0).f32 (R.NRG_STR_IMAX 0)) = true ∧
    bankReady.passes 0x30 fmtCommit 0 (cmd 0x30 [(4, 1, 1), (8, 4, 0x1234)]) ∧
    1 ≠ (bankReady.taken 0).bank ∧
    (bankReady.taken 0).loop.verifying = none ∧
    ((bankReady.taken 0).bankInfo 1).verified = true ∧
    ((bankReady.taken 0).bankInfo 1).digest.toNat = (cmd 0x30 [(4, 1, 1), (8, 4, 0x1234)]).le 8 4 ∧
    ((bankReady.taken 0).bankInfo 1).sched ≤ (bankReady.taken 0).budget (bankReady.taken 0).periodNs ∧
    (bankReady.taken 0).is R.RED_CTL_PAIRED = false := by
  and_intros <;> first | decide +kernel | (unfold State.passes State.comesUp; decide +kernel)

/-- A RUNNING lane of pound 0 and its slots; a reached cell 3. -/
def poundReady (p : Nat) : State := at0 p [(R.LOOP_REGION_KIND 0, 2), (R.LOOP_REGION_COUNT 0, 128), (R.CNL_LANE_STAT_STATE 0, 5),
  (R.CNL_CELL_STAT_REACHED 3, 1), (R.CELL_CELL_STAT_ROLE 3, 3)]

def poundAt (st : Nat) (xs : List (Fld × Nat)) : State := at0 1 ((R.CELL_POUND_STAT_STATE 0, st) :: xs)

theorem wit_PoundAndCellCommands :
    (poundReady 1).passes 0x40 fmtPoundEnable 0 (cmd 0x40 [(4, 1, 0)]) ∧
    ((poundReady 1).taken 0).poundSoon 0 = 0 ∧
    ((poundReady 1).taken 0).poundRuns 0 = true ∧
    ((poundReady 1).taken 0).grid = 0 ∧
    ((poundReady 1).taken 0).regionHolds 0 = true ∧
    ((poundReady 1).taken 0).rd R.NRG_STAT_SLUICE = 0 ∧
    (((poundReady 1).taken 0).admission none (fun _ => ((poundReady 1).taken 0).askPound 0 0) 0 0 false).status.done = true ∧
    (poundAt 1 []).passes 0x41 fmtPoundDisable 0 (cmd 0x41 [(4, 1, 0)]) ∧
    ((poundAt 1 []).taken 0).hst.kept = [] ∧
    ((poundAt 1 []).taken 0).poundSoon 0 = 1 ∧
    (poundAt 0 []).passes 0x41 fmtPoundDisable 0 (cmd 0x41 [(4, 1, 0)]) ∧
    ((poundAt 0 []).taken 0).poundSoon 0 = 0 ∧
    (poundAt 3 []).passes 0x41 fmtPoundDisable 0 (cmd 0x41 [(4, 1, 0)]) ∧
    ((poundAt 3 []).taken 0).poundSoon 0 = 3 ∧
    ((poundAt 3 []).taken 0).coveredWith (((poundAt 3 []).taken 0).legOf 0) 0 = true ∧
    ((poundAt 3 [(R.CELL_STAT_GRID, 1), (R.CELL_VPK_FIX, 0x41200000)]).taken 0).coveredWith
      (((poundAt 3 [(R.CELL_STAT_GRID, 1), (R.CELL_VPK_FIX, 0x41200000)]).taken 0).legOf 0) 0 = false ∧
    (at0 2 [(R.CELL_CELL_STAT_ROLE 3, 6)]).passes 0x42 fmtBypass 0 (cmd 0x42 [(4, 2, 3)]) ∧
    ((at0 2 [(R.CELL_CELL_STAT_ROLE 3, 6)]).taken 0).cellRole 3 = .parked ∧
    (poundReady 2).passes 0x42 fmtBypass 0 (cmd 0x42 [(4, 2, 3)]) ∧
    ((poundReady 2).taken 0).cellRole 3 ≠ .parked ∧
    ((poundReady 2).taken 0).cellRole 3 ≠ .failed ∧
    ((poundReady 2).taken 0).grid = 0 ∧
    (poundReady 2).passes 0x43 fmtService 0 (cmd 0x43 [(4, 2, 3), (6, 1, 2), (7, 1, 1), (8, 2, 0x18)]) ∧
    (poundReady 2).passes 0x43 fmtService 0 (cmd 0x43 [(4, 2, 3), (6, 1, 1), (7, 1, 1), (8, 2, 0x18)]) ∧
    (poundReady 2).passes 0x43 fmtService 0 (cmd 0x43 [(4, 2, 3), (6, 1, 2), (7, 1, 1), (8, 2, 0x0C)]) ∧
    (poundReady 2).passes 0x43 fmtService 0 (cmd 0x43 [(4, 2, 3), (6, 1, 2), (7, 1, 1), (8, 2, 0x1C)]) ∧
    ((poundReady 2).taken 0).is (R.CNL_CELL_STAT_DARK 3) = false ∧
    ((poundReady 2).taken 0).is (R.CNL_CELL_STAT_UNREACHED 3) = false ∧
    ((poundReady 2).taken 0).reached 3 = true ∧
    ((poundReady 2).taken 0).poundRuns (3 / 16) = true ∧
    (((poundReady 2).taken 0).link 3).service = none ∧
    (cmd 0x40 [(4, 1, 0)]).le 5 1 = 0 ∧
    (cmd 0x43 [(4, 2, 3), (6, 1, 2), (7, 1, 1), (8, 2, 0x10)]).le 8 2 < 0x1C ∧
    0x10 < (cmd 0x43 [(4, 2, 3), (6, 1, 2), (7, 1, 2), (8, 2, 0x0C)]).le 8 2 + 4 * (cmd 0x43 [(4, 2, 3), (6, 1, 2), (7, 1, 2), (8, 2, 0x0C)]).le 7 1 ∧
    (poundReady 2).passes 0x43 fmtService 0 (cmd 0x43 [(4, 2, 3), (6, 1, 2), (7, 1, 2), (8, 2, 0x0C)]) ∧
    (cmd 0x43 [(4, 2, 3), (6, 1, 2), (7, 1, 1), (8, 2, 0x0C)]).le 8 2 + 4 * (cmd 0x43 [(4, 2, 3), (6, 1, 2), (7, 1, 1), (8, 2, 0x0C)]).le 7 1 ≤ 0x10 := by
  and_intros <;> first | decide +kernel | (unfold State.passes State.comesUp; decide +kernel)

/-- A record that the signing engine prepares. -/
def busySigning (s : State) : State := { s with nrg := { s.nrg with
  record := some { addr := 0x1000, tag := 1, nonce := [], mark := 1, body := none } } }

theorem wit_SluiceAndRecordsAdmitted :
    (at0 1 []).passes 0x50 fmtSluice 0 (cmd 0x50 [(5, 1, 2)]) ∧
    ((at0 1 []).taken 0).grid = 0 ∧
    ((at0 1 []).taken 0).rd R.NRG_STAT_SLUICE = 0 ∧
    ((at0 2 []).taken 0).rd R.NRG_STAT_SLUICE = 0 ∧
    (at0 2 []).passes 0x50 fmtSluice 0 (cmd 0x50 [(4, 1, 1), (5, 1, 2)]) ∧
    (at0 2 []).passes 0x51 fmtRecord 0 (cmd 0x51 [(4, 8, 0x1000), (12, 2, 528)]) ∧
    ((at0 2 []).taken 0).signing = false ∧
    (busySigning (at0 2 [])).passes 0x51 fmtRecord 0 (cmd 0x51 [(4, 8, 0x1000), (12, 2, 528)]) ∧
    ((busySigning (at0 2 [])).taken 0).signing = true ∧
    (at0 2 []).passes 0x90 fmtAttest 0 (cmd 0x90 [(4, 8, 0x1000), (12, 2, 192)]) ∧
    ((at0 2 []).taken 0).marksRun = true ∧
    (at0 3 []).passes 0x90 fmtAttest 0 (cmd 0x90 [(4, 8, 0x1000), (12, 2, 192)]) ∧
    ((at0 3 []).taken 0).signing = false ∧
    ((at0 3 []).taken 0).marksRun = false ∧
    (busySigning (at0 2 [])).passes 0x90 fmtAttest 0 (cmd 0x90 [(4, 8, 0x1000), (12, 2, 192)]) := by
  and_intros <;> first | decide +kernel | (unfold State.passes State.comesUp; decide +kernel)

/-- Drive 0 set up: its three channels in group 1, its shunt, its output slots. -/
def driveSet : State := at0 1 ([(R.AUX_CTL_EN 0, 1), (R.AUX_CTL_POLES 0, 4), (R.AUX_SPEED_MAX 0, 0x43000000),
    (R.PWM_GRP_STAT_RUNNING 1, 1), (R.PWM_GRP_STAT_PERIOD 1, 10000), (R.MTR_CH_CFG_EN 48, 1), (R.AUX_SRC_SHUNT 0, 48),
    (R.LOOP_REGION_KIND 0, 7), (R.LOOP_REGION_COUNT 0, 32)] ++
  [36, 37, 38].flatMap fun n => [(R.PWM_CH_CFG_EN n, 1), (R.PWM_CH_CFG_GROUP n, 1), (R.PWM_CH_CFG_ALIGN n, 1),
    (R.PWM_CH_CFG_LO_EN n, 1), (R.PWM_CH_CFG_SRC n, 2), (R.PWM_CH_CFG_MASK_EN n, 1)])

def auxRun : Desc := cmd 0x60 [(8, 4, 0x42C80000), (12, 4, 0x41200000)]

/-- A CORRECTED source latched, its cause gone; and the state of SAFE that it brought. -/
def latchedOne : State := (at0 2 []).setLatch 0x00B true

theorem wit_DrivesAndFaultClears :
    driveSet.passes 0x60 fmtAuxRun 0 auxRun ∧
    (driveSet.taken 0).is (R.AUX_CTL_EN 0) = true ∧
    (driveSet.taken 0).rd (R.AUX_CTL_POLES 0) ≠ 0 ∧
    (driveSet.taken 0).driveState 0 ≠ .fault ∧
    (driveSet.taken 0).driveReady 0 = true ∧
    ((driveSet.taken 0).supersedeOlder (driveSet.cmdOf 0 auxRun) 0x60 (fun x => x.le 4 1 = 0)).driveSoon 0 = .stopped ∧
    driveSet.passes 0x61 fmtAuxStop 0 (cmd 0x61 []) ∧
    (at0 1 []).passes 0x61 fmtAuxStop 0 (cmd 0x61 []) ∧
    ((at0 1 []).taken 0).is (R.AUX_CTL_EN 0) = false ∧
    latchedOne.passes 0x70 fmtClear 0 (cmd 0x70 [(4, 1, 2), (5, 1, 1)]) ∧
    ((latchedOne.taken 0).latchedList.filter fun n => (clearScope (cmd 0x70 [(4, 1, 2), (5, 1, 1)])).contains n) = [0x00B] ∧
    ([0x00B].any fun n => decide (sourceClass n = some 2)) = false ∧
    ([0x00B].any (latchedOne.taken 0).causeStands) = false ∧
    (latchedOne.taken 0).safeCauses [0x00B] = 0 := by
  and_intros <;> first | decide +kernel | (unfold State.passes State.comesUp; decide +kernel)

/-- A healthy pair, this seat its holder, whose partner is ready to take over. -/
def swapReady : State := { at0 2 [(R.RED_CTL_PAIRED, 1), (R.RED_STAT_LINK_UP, 1), (R.RED_STAT_CLAIM, 2), (R.RED_STAT_ROLE, 1),
    (R.RED_PARTNER_TAKE_READY, 1), (R.RED_STAT_HEALTH, 1)] with
  red := { (up 2 []).red with partner := List.replicate 128 0xFF#8 } }

theorem wit_SwapsAndUnlocks :
    swapReady.passes 0x80 fmtSwap 0 (cmd 0x80 []) ∧
    (swapReady.taken 0).swapRefused true = none ∧
    (swapReady.taken 0).rd R.RED_STAT_HEALTH = 1 ∧
    swapReady.passes 0x80 fmtSwap 0 (cmd 0x80 [(8, 8, 50000000)]) ∧
    (cmd 0x80 [(8, 8, 50000000)]).le 8 8 = 50000000 ∧
    (swapReady.taken 0).plantNs ≤ 50000000 ∧
    (at0 2 []).passes 0x80 fmtSwap 0 (cmd 0x80 []) ∧
    ((at0 2 []).taken 0).swapRefused (decide (((at0 2 []).taken 0).rd R.RED_STAT_HEALTH = 1)) = some 0x0A01 ∧
    (at0 2 []).passes 0x91 fmtUnlock 0 (cmd 0x91 [(5, 1, 1), (16, 2, 64)]) ∧
    ((at0 2 []).taken 0).challengeRefused 0 1 = none ∧
    (at0 2 [(R.SEC_DBG_STAT_LOCKOUT_PCIE, 1)]).passes 0x91 fmtUnlock 0 (cmd 0x91 [(5, 1, 1), (16, 2, 64)]) ∧
    ((at0 2 [(R.SEC_DBG_STAT_LOCKOUT_PCIE, 1)]).taken 0).challengeRefused 0 1 = some 0x0C06 ∧
    (at0 2 []).passes 0x91 fmtUnlock 0 (cmd 0x91 [(4, 1, 1), (16, 2, 128)]) ∧
    (((at0 2 []).taken 0).sec.challenges.find? fun p => p.1 = 0) = none ∧
    (at0 2 []).passes 0x91 fmtUnlock 0 (cmd 0x91 [(4, 1, 2)]) := by
  and_intros <;> first | decide +kernel | (unfold State.passes State.comesUp; decide +kernel)

/-- A frame of 60 bytes. -/
def frame60 : Bytes := List.replicate 60 0#8

theorem wit_BuffersWaitInTheirRings :
    (ringed 4 1 (up 2 [])).collects = true ∧
    (ringed 4 1 (up 2 [])).hasDesc 4 = true ∧
    (cmd 0xC0 [(4, 8, 0x1000), (12, 4, 64)]).flagsOk = true ∧
    (cmd 0xC0 [(4, 8, 0x1000), (12, 4, 64)]).fence = false ∧
    fmtTlmBuffer ((ringed 4 1 (up 2 [])).taken 4) (cmd 0xC0 [(4, 8, 0x1000), (12, 4, 64)]) = none ∧
    (ringed 21 1 (up 2 [])).hasDesc 21 = true ∧
    (cmd 0xB0 [(12, 2, 1536)]).opcode = 0xB0#8 ∧
    fmtRxBuffer ((ringed 21 1 (up 2 [])).taken 21) (cmd 0xB0 [(12, 2, 1536)]) = none ∧
    (ringed 13 1 (up 2 [])).hasDesc 13 = true ∧
    txOutcome (cmd 0xA0 [(12, 2, 60)]) frame60 ((ringed 13 1 (up 2 [])).taken 13) = none := by decide +kernel

/-- A deferred SETPOINT, and what a limit of the LV bus leaves no room for. -/
def deferredOne (p : Nat) (xs : List (Fld × Nat)) : State := { up p xs with hst := { (up p []).hst with kept :=
  [{ seq := 4, ring := 0, idx := 0, desc := cmd 0x20 [(4, 2, 3), (8, 4, 0x42C80000)], deferred := true, since := 0 }] } }

theorem wit_DeferralEndsInADecision :
    (deferredOne 2 []).collects = true ∧
    ((deferredOne 2 []).hst.kept.find? fun x => x.seq = 4 && x.deferred).isSome = true ∧
    (basinOwner 0x20 true).isSome = true ∧
    (deferredOne 2 [(R.FLT_STAT_SAFETY, 2)]).modeRefusal (cmd 0x20 [(4, 2, 3), (8, 4, 0x42C80000)]) = some 3 ∧
    (deferredOne 2 [(R.NRG_SPCLASS_EN 0, 1), (R.NRG_SPCLASS_CLASS 0, 2), (R.NRG_SPCLASS_SLOT 0, 3), (R.NRG_C_LV, 0x3F800000)]).modeRefusal
      (cmd 0x20 [(4, 2, 3), (8, 4, 0x42C80000)]) = none ∧
    (deferredOne 2 [(R.NRG_SPCLASS_EN 0, 1), (R.NRG_SPCLASS_CLASS 0, 2), (R.NRG_SPCLASS_SLOT 0, 3), (R.NRG_C_LV, 0x3F800000)]).is
      R.NRG_CTL_DERATE_EN = false ∧
    (deferredOne 2 [(R.NRG_SPCLASS_EN 0, 1), (R.NRG_SPCLASS_CLASS 0, 2), (R.NRG_SPCLASS_SLOT 0, 3), (R.NRG_C_LV, 0x3F800000)]).slotClass
      3 = (2, 0) ∧
    ((deferredOne 2 [(R.NRG_SPCLASS_EN 0, 1), (R.NRG_SPCLASS_CLASS 0, 2), (R.NRG_SPCLASS_SLOT 0, 3), (R.NRG_C_LV, 0x3F800000)]).misfit
      false { Ask.nothing with lv := some (fRat 0x42C80000#32) }).isSome = true := by decide +kernel

/-! The host link, resets, boot, clocks and power -/

/-- The link up, in D0, bus master. -/
def linked (s : State) : State := { s with hst := { s.hst with perstHigh := true, linkUp := true, inD0 := true, busMaster := true } }

/-- Ring 0 running; the event ring running with 4 records written and 1 freed. -/
def rings : State := linked (up 2 [(R.HST_RING_CTL_ENABLE 0, 1), (R.HST_RING_STATE_QUIESCED 0, 0), (R.HST_RING_CTL_ENABLE 12, 1),
  (R.HST_RING_STATE_QUIESCED 12, 0), (R.HST_RING_STAT_CONS 12, 4), (R.HST_RING_STAT_PROD 12, 1)])

theorem wit_DoorbellsMoveTheRings :
    rings.decodes 0x8118 = true ∧
    ((up 2 []).written 0x8118 2#32).ringRuns 0 = false ∧
    (rings.written 0x8118 2#32).ringRuns 0 = true ∧
    (2 + 65536 - (rings.written 0x8118 2#32).rd (R.HST_RING_STAT_CONS 0)) % 65536 ≤ rings.ringSize 0 ∧
    (16 + 65536 - (rings.written 0x8118 16#32).rd (R.HST_RING_STAT_PROD 0)) % 65536 ≤ rings.ringSize 0 ∧
    rings.ringSize 0 < (17 + 65536 - (rings.written 0x8118 17#32).rd (R.HST_RING_STAT_PROD 0)) % 65536 ∧
    rings.decodes 0x8298 = true ∧
    (rings.written 0x8298 4#32).ringRuns evtq = true ∧
    (4 + 65536 - (rings.written 0x8298 4#32).rd (R.HST_RING_STAT_PROD evtq)) % 65536 ≤
      ((rings.written 0x8298 4#32).rd (R.HST_RING_STAT_CONS evtq) + 65536 -
        (rings.written 0x8298 4#32).rd (R.HST_RING_STAT_PROD evtq)) % 65536 ∧
    ((rings.written 0x8298 5#32).rd (R.HST_RING_STAT_CONS evtq) + 65536 -
        (rings.written 0x8298 5#32).rd (R.HST_RING_STAT_PROD evtq)) % 65536 <
      (5 + 65536 - (rings.written 0x8298 5#32).rd (R.HST_RING_STAT_PROD evtq)) % 65536 ∧
    (((rings.wr (R.HST_RING_STAT_CONS evtq) 17).rd (R.HST_RING_STAT_CONS evtq) + 65536 -
      (rings.wr (R.HST_RING_STAT_CONS evtq) 17).rd (R.HST_RING_STAT_PROD evtq)) % 65536 =
      (rings.wr (R.HST_RING_STAT_CONS evtq) 17).ringSize evtq) ∧
    rings.collects = true ∧
    rings.wakeLink byHost = rings := by decide +kernel

/-- RING_CTL of ring 0 as written by the host to enable it, its size kept. -/
def ctlOn (s : State) : Word := (R.HST_RING_CTL_ENABLE 0).put (4#32 ||| 0x80000000#32) (s.rd (R.HST_RING_CTL_ENABLE 0))

def stopping0 : State := up 2 [(R.HST_RING_STATE_QUIESCED 0, 0)]

theorem wit_RingsStartAndStop :
    (up 2 []).decodes 0x8108 = true ∧
    (R.HST_RING_CTL_SIZE_LOG2 0).get 4#32 = (up 2 []).rd (R.HST_RING_CTL_SIZE_LOG2 0) ∧
    ((up 2 []).written 0x8108 (ctlOn (up 2 []))).is (R.HST_RING_CTL_ENABLE 0) = false ∧
    ((up 2 []).written 0x8108 (ctlOn (up 2 []))).is (R.HST_RING_STATE_QUIESCED 0) = true ∧
    (stopping0.written 0x8108 (ctlOn stopping0)).is (R.HST_RING_CTL_ENABLE 0) = false ∧
    (stopping0.written 0x8108 (ctlOn stopping0)).is (R.HST_RING_STATE_QUIESCED 0) = false ∧
    (rings.written 0x8108 (ctlOn rings)).is (R.HST_RING_CTL_ENABLE 0) = true ∧
    ((rings.written 0x8108 ((R.HST_RING_CTL_ENABLE 0).put (4#32 &&& 0x7FFFFFFF#32) 1)).wrB
      (R.HST_RING_STATE_ENABLE_PENDING 0) false).is (R.HST_RING_CTL_ENABLE 0) = true ∧
    rings.is (R.HST_RING_STATE_HALTED 0) = false ∧
    idxWithin (rings.ring 0).fetch 0 (rings.ring 0).fetched = true ∧
    stopping0.is (R.HST_RING_CTL_ENABLE 0) = false ∧
    stopping0.is (R.HST_RING_STATE_QUIESCED 0) = false ∧
    (stopping0.ring 0).fetch = (stopping0.ring 0).fetched ∧
    (stopping0.hst.held.any fun h => decide (h.ring = 0)) = false ∧
    stopping0.collects = true ∧
    (stopping0.hst.heldWb.any fun w => decide (w.ring = 0)) = false := by decide +kernel

/-- A record, and 64 of them held. -/
def record0 : Event := ⟨0, 5, 0, 0, 0, []⟩
def recordsHeld (n : Nat) (s : State) : State := { s with hst := { s.hst with store := List.replicate n record0 } }

theorem wit_EventsTakeTheirPlaces :
    64 ≤ (recordsHeld 64 (up 2 [])).heldCount ∧
    (up 2 []).heldCount < 64 ∧
    rings.heldCount < 64 ∧
    rings.hst.lossOpen = none ∧
    rings.hst.store = [] ∧
    rings.evtqReady = true ∧
    (up 2 []).hst.lossOpen = none ∧
    (up 2 []).evtqReady = false ∧
    (recordsHeld 1 rings).hst.store = [record0] ∧
    (recordsHeld 1 rings).evtqReady = true := by decide +kernel

theorem wit_FailedAccessHaltsTheRing :
    rings.collects = true ∧
    rings.canDma = true ∧
    rings.is (R.HST_RING_CTL_ENABLE 0) = true ∧
    (up 2 []).collects = true ∧
    (up 2 []).is (R.HST_RING_CTL_ENABLE 0) = false ∧
    (up 2 []).is (R.HST_RING_STATE_QUIESCED 0) = true ∧
    stopping0.is (R.HST_RING_STATE_QUIESCED 0) = false := by decide +kernel

theorem wit_LinkStatesAndResets :
    rings.collects = true ∧
    rings.hst.perstHigh = true ∧
    rings.hst.linkUp = true ∧
    rings.onBackup 10 = false ∧
    rings.regsWf = true := by decide +kernel

/-- Telemetry stream 0 enabled, with a buffer of 64 bytes at 0x1000 in its ring, or none. -/
def streaming (buffers : List Posted) : State :=
  let s := linked (up 2 [(R.HST_TLM_CTL_ENABLE 0, 1), (R.HST_TLM_CTL_DECIM 0, 1)])
  { s with hst := { s.hst with posted := buffers } }

def buffer64 : Posted := { ring := 4, idx := 0, desc := cmd 0xC0 [(4, 8, 0x1000), (12, 4, 64)], frame := [] }

theorem wit_MessagesAndTelemetryGoOut :
    0 < ((rings.modRing 0 fun g => { g with gathered := 2 }).ring 0).gathered ∧
    rings.decodes 0x8400 = true ∧
    rings.is (R.HST_TLM_CTL_ENABLE 0) = false ∧
    (0x80010064#32).getLsbD 31 = true ∧
    (rings.written 0x8400 0x80010064#32).tlmRefused 0 (some [0x10000003#32]) = none ∧
    (streaming []).is (R.HST_TLM_CTL_ENABLE 0) = true ∧
    (streaming []).power = .hold ∧
    (streaming []).sys.k % (streaming []).rd (R.HST_TLM_CTL_DECIM 0) = 0 ∧
    ((streaming []).stream 0).last ≠ (streaming []).sys.k + 1 ∧
    (streaming []).postedOf 4 = [] ∧
    (streaming [buffer64]).postedOf 4 = [buffer64] ∧
    (streaming [buffer64]).canDma = true ∧
    (streaming [buffer64]).is (R.HST_RING_STATE_HALTED 4) = false ∧
    blockBytes ((streaming [buffer64]).stream 0).items ≤ buffer64.desc.le 12 4 ∧
    rings.collects = true ∧
    (streaming []).collects = true := by decide +kernel

/-- The watchdog counting; a plan's ramp in progress. -/
def watched (xs : List (Fld × Nat)) : State :=
  let s := up 1 ((R.HST_WATCH_ENABLE, 1) :: xs)
  { s with hst := { s.hst with armed := true } }

def warnedState (xs : List (Fld × Nat)) : State :=
  let s := watched xs
  let u := (s.wrB R.HST_WATCH_STAT_EXPIRED true).inc R.HST_WATCH_STAT_EXPIRIES
  ((({ u with hst := { u.hst with warned := true } } : State).raise 0x00D (s.rd R.HST_WATCH_PLAN)).event 0 6
    [(16, 1, s.rd R.HST_WATCH_PLAN), (17, 1, if s.watchSwaps then 1 else 0)]).sendVec 24

/-- The holder of a healthy pair with SWAP_FIRST, its partner as healthy; a plan's ramp with no marks running. -/
def swapWatched : State :=
  let s := sets [(R.HST_WATCH_ENABLE, 1), (R.HST_WATCH_SWAP_FIRST, 1)] swapReady
  { s with hst := { s.hst with armed := true }, red := { s.red with partner := List.replicate 128 0x11#8 } }
def plannedDark : State := { up 3 [] with hst := { (up 3 []).hst with plan := some { plan := 1, waiting := false, since := 0, start := [] } } }

theorem wit_WatchdogWarnsAndExpires :
    (watched []).watching = true ∧
    (watched []).hst.warned = false ∧
    (watched [(R.RED_CTL_PAIRED, 1)]).watching = true ∧
    (warnedState [(R.RED_CTL_PAIRED, 1), (R.RED_STAT_LINK_UP, 1)]).role = .standby ∧
    (warnedState []).role ≠ .standby ∧
    (watched []).watchSwaps = false ∧
    planned.hst.plan = some { plan := 1, waiting := false, since := 0, start := [] } ∧
    (watched []).collects = true ∧
    swapWatched.watching = true ∧
    swapWatched.watchSwaps = true ∧
    (((({ (swapWatched.wrB R.HST_WATCH_STAT_EXPIRED true).inc R.HST_WATCH_STAT_EXPIRIES with hst := { swapWatched.hst with warned := true } } : State).raise
      0x00D (swapWatched.rd R.HST_WATCH_PLAN)).event 0 6 [(16, 1, swapWatched.rd R.HST_WATCH_PLAN), (17, 1, 1)]).sendVec 24).role ≠ .standby ∧
    (planned.advanceTo (planned.markTime 0 + (planned.planRamp : Int))).marksRun = true ∧
    plannedDark.hst.plan = some { plan := 1, waiting := false, since := 0, start := [] } ∧
    (plannedDark.advanceTo (plannedDark.markTime 0 + (plannedDark.planRamp : Int))).marksRun = false := by decide +kernel

/-- Held in reset with no feed. -/
def unfed : State := { inBoot .reset with sys := { (inBoot .reset).sys with feeds := 0 } }

theorem wit_PowerOnStartsAnew :
    (1#6) ≠ 0#6 ∧
    (up 2 []).power ≠ .towpath ∧
    (up 2 []).sys.boot ≠ .off ∧
    (inBoot .reset).sys.boot = .reset ∧
    (up 2 []).sys.feeds.getLsbD 0 = true ∧
    ((up 2 []).dropFeed 0).sys.feeds ≠ 0 ∧
    (((up 2 []).dropFeed 0).dropFeed 1).sys.feeds = 0 ∧
    ((up 2 []).dropFeed 0).sys.feeds.getLsbD 1 = true ∧
    920 < sx 12 (0x3A0#12).toNat ∧
    1040 < sx 12 (0x420#12).toNat ∧
    (up 2 []).regsWf = true ∧
    (up 3 []).power = .towpath ∧
    (1#6 &&& 0x31#6) ≠ 0#6 ∧
    (inBoot .off).sys.boot = .off ∧
    (inBoot .reset).sys.feeds ≠ 0 ∧
    unfed.sys.boot = .reset ∧
    unfed.sys.feeds = 0 ∧
    unfed.sys.feeds.getLsbD 0 = false ∧
    ((up 2 []).dropFeed 0).sys.feeds.getLsbD 0 = false ∧
    (((up 2 []).wr R.SYS_TEMP_TEMP 0x420).setActive 0x007 true).active 0x008 = false := by decide +kernel

/-- A settings image of 256 bytes for this part, signed with the private key 1; its check is worked out in Python. -/
def image : Bytes := layBytes 256 [(0, 8, 0x153504b5a), (8, 4, 256), (16, 3, 0xb06192),
  (64, 32, 0x96c298d84539a1f4a033eb2d817d0377f240a463e5e6bcf847422ce1f2d1176b), (96, 32, 0xf551bf376840b6cbce5e316b5733ce2b169e0f7c4aebe78e9b7f1afee242e34f), (192, 32, 0x96c298d84539a1f4a033eb2d817d0377f240a463e5e6bcf847422ce1f2d1176b), (224, 32, 0xf947e452244157d5a9082fd39b6c947ff8426455fb6006d96e388ed2412f9a11)]

theorem wit_BootRunsItsSteps :
    (inBoot .search).collects = true ∧
    (inBoot .search).sys.refFound = false ∧
    (inBoot .sram).is R.SYS_STRAP_BOOT_SRC = false ∧
    (inBoot .image).sys.boot = .image ∧
    (((inBoot .image).fixRows []).showFuses).imageReason (some image) = 0 ∧
    (((inBoot .image).fixRows []).showFuses).imageReason none = 6 ∧
    ((((inBoot .image).fixRows []).showFuses).wr R.SEC_IMG_STAT_REASON_P 6).imageReason none ≠ 0 ∧
    (inBoot .jtagWait).sys.boot = .jtagWait ∧
    (inBoot .applied).sys.cutShort = false ∧
    (inBoot .search).sys.boot = .search ∧
    (inBoot .sram).sys.boot = .sram ∧
    (inBoot .applied).stepSix.sys.boot = .applied ∧
    (inBoot .settings).sys.boot = .settings ∧
    (inBoot .applied).stepSix.sys.cutShort = false := by decide +kernel

/-- Loop 3 searching, or locked; reference A in use, held over or slewing. -/
def searching : State := up 2 [(R.CLK_PLL_STAT_SEARCH, 8)]
def refA (xs : List (Fld × Nat)) : State :=
  let s := up 2 ([(R.CLK_REF_STAT_REFA_OK, 1), (R.CLK_REF_STAT_SEL, 0), (R.CLK_REF_CTL_REFA_EN, 1), (R.CLK_REF_CTL_REFB_EN, 1)] ++ xs)
  { s with sys := { s.sys with refFound := true } }

def lostA (s : State) : State :=
  let u := (s.wrB (refOk 0) false).wrB (refLostFld 0) true
  State.raise (State.judgeRefLost { u with clk := { u.clk with refLost := setBit u.clk.refLost 0 true } }) 0x1A1 0

def foundA (s : State) : State :=
  let u := s.wrB (refOk 0) true
  State.judgeRefLost { u with clk := { u.clk with refLost := setBit u.clk.refLost 0 false } }

theorem wit_LoopsAndReferences :
    searching.bitOf R.CLK_PLL_STAT_SEARCH 3 = true ∧
    (up 2 [(R.CLK_PLL_STAT_LOCKED, 8)]).loopLocked 3 = true ∧
    (up 2 [(R.CLK_PLL_STAT_LOCKED, 8)]).clk.returning.getLsbD 3 = false ∧
    (up 2 []).loopLocked 3 = false ∧
    (refA []).is (refOk 0) = true ∧
    (refA [(R.CLK_REF_STAT_SEL, 1)]).refSel ≠ 0 ∧
    (refA []).refSel = 0 ∧
    (refA []).sys.refFound = true ∧
    (lostA (refA [(R.CLK_REF_STAT_REFB_OK, 1)])).refGood 1 = true ∧
    (lostA (refA [])).refGood 1 = false ∧
    (foundA (up 2 [(R.CLK_REF_STAT_HOLDOVER, 1), (R.CLK_REF_CTL_REFA_EN, 1)])).is R.CLK_REF_STAT_HOLDOVER = true ∧
    (foundA (up 2 [(R.CLK_REF_STAT_HOLDOVER, 1), (R.CLK_REF_CTL_REFA_EN, 1)])).is R.CLK_REF_STAT_SLEWING = false ∧
    (foundA (up 2 [(R.CLK_REF_STAT_HOLDOVER, 1), (R.CLK_REF_CTL_REFA_EN, 1)])).refGood 0 = true ∧
    (up 2 [(R.CLK_REF_STAT_SLEWING, 1)]).is R.CLK_REF_STAT_SLEWING = true ∧
    (up 2 []).role ≠ .standby ∧
    (standby 2 [(R.CLK_SYNC_ALIGN_EN, 1)]).role = .standby ∧
    (standby 2 [(R.CLK_SYNC_ALIGN_EN, 1)]).is R.CLK_SYNC_ALIGN_EN = true ∧
    (standby 2 [(R.CLK_SYNC_ALIGN_EN, 1)]).is R.CLK_UPDATE_BUSY = false ∧
    (standby 2 [(R.CLK_SYNC_ALIGN_EN, 1)]).onBackup 1 = false ∧
    (standby 2 [(R.CLK_SYNC_ALIGN_EN, 1)]).onBackup 11 = false ∧
    searching.stepSix.bitOf R.CLK_PLL_STAT_SEARCH 3 = true ∧
    (up 2 []).stepSix.bitOf R.CLK_PLL_STAT_SEARCH 3 = false ∧
    { up 2 [(R.CLK_PLL_STAT_LOCKED, 8)] with clk := { (up 2 []).clk with returning := setBit 0 3 true } }.clk.returning.getLsbD 3 = true ∧
    ((refA []).is (refOk 0) || (decide ((refA []).refSel = 0) && (refA []).sys.refFound && !(refA []).clk.refLost.getLsbD 0)) = true ∧
    ((foundA (up 2 [(R.CLK_REF_STAT_HOLDOVER, 1), (R.CLK_REF_CTL_REFA_EN, 1)])).is R.CLK_REF_STAT_HOLDOVER &&
      !(foundA (up 2 [(R.CLK_REF_STAT_HOLDOVER, 1), (R.CLK_REF_CTL_REFA_EN, 1)])).is R.CLK_REF_STAT_SLEWING &&
      (foundA (up 2 [(R.CLK_REF_STAT_HOLDOVER, 1), (R.CLK_REF_CTL_REFA_EN, 1)])).refGood 0) = true ∧
    ((foundA (refA [])).is R.CLK_REF_STAT_HOLDOVER && !(foundA (refA [])).is R.CLK_REF_STAT_SLEWING && (foundA (refA [])).refGood 0) = false ∧
    (standby 2 [(R.CLK_SYNC_ALIGN_EN, 1), (R.CLK_UPDATE_BUSY, 1)]).is R.CLK_UPDATE_BUSY = true := by decide +kernel

theorem wit_PowerTransitionsEnd :
    ((up 1 []).setMove (some (.completing .run))).sys.move = some (.completing .run) ∧
    Power.ofReq ((((up 1 []).setMove (some (.completing .run))).setMove none).rd R.SYS_PWR_STAT_PENDING) = none ∧
    ((up 2 []).setMove (some (.holdBarges 0))).sys.move = some (.holdBarges 0) ∧
    ((up 2 []).setMove (some (.completing .hold))).sys.move = some (.completing .hold) ∧
    ((up 2 []).setMove (some (.completing .hold))).stillSearching = false ∧
    ((up 2 [(R.CLK_PLL_STAT_SEARCH, 8)]).setMove (some (.completing .hold))).stillSearching = true ∧
    (up 2 []).sys.move ≠ some (.holdBarges 0) ∧
    Power.ofReq ((up 2 []).rd R.SYS_PWR_STAT_PENDING) = none ∧
    (up 1 []).collects = true := by decide +kernel

/-! The cycle, the fault collector, lanes, barges and the towpath -/

/-- In RUN with a window opened; a seat of a pair whose gate is open. -/
def opened : State := { up 1 [] with sys := { (up 1 []).sys with windowOpen := true } }
def gated (xs : List (Fld × Nat)) : State := up 1 ((R.RED_STAT_CLAIM, 2) :: xs)

def forApply (s : State) : State :=
  let u := s.advanceTo (s.markTime (s.sys.k + 1) - 200)
  each [0, 1, 2] State.redistDone (State.pwmApply { u with sys := { u.sys with applied := true } })

def forWindow (s : State) : State :=
  let t := s.advanceTo (s.markTime s.sys.k + 1000 + s.windowLen rateU)
  (State.judgeMisses { t with sys := { t.sys with windowOpen := true } }).failCells.writeLegSums.updateLedger.energyAtMark.runForward.judgeCopy

/-- A pair in HOLD whose broadcast of the cycle went out. -/
def goodHold : State := { up 1 [(R.RED_CTL_PAIRED, 1)] with sys := { (up 1 []).sys with
  scheduleDone := true, downlinkSent := true } }

def sentOne : State := { up 1 [] with sys := { (up 1 []).sys with downlinkSent := true } }

theorem wit_CycleFollowsItsMarks :
    (up 2 []).collects = true ∧
    (up 2 []).marksRun = true ∧
    (up 2 []).markFirst.marksRun = true ∧
    (up 2 []).sys.windowOpen = false ∧
    (forWindow (up 2 [])).engineRuns = false ∧
    (forWindow (up 1 [])).engineRuns = true ∧
    (up 1 []).collects = true ∧
    opened.engineRuns = true ∧
    opened.sys.windowOpen = true ∧
    opened.sys.scheduleDone = false ∧
    opened.sys.overrun = false ∧
    opened.sys.downlinkSent = false ∧
    opened.sys.applied = false ∧
    (up 1 []).sys.downlinkSent = false ∧
    (up 1 []).sys.applied = false ∧
    (up 2 []).regsWf = true ∧
    (gated []).gateOpen = true ∧
    (up 1 [(R.RED_CTL_PAIRED, 1)]).gateOpen = false ∧
    goodHold.sys.downlinkSent = true ∧
    (forApply sentOne).goodCycle = false ∧
    sentOne.sys.downlinkSent = true ∧
    sentOne.sys.applied = false ∧
    (up 2 [(R.CNL_LANE_STAT_STATE 0, 5)]).poundList ≠ [] ∧
    (forApply goodHold).goodCycle = true ∧
    goodHold.sys.applied = false := by and_intros <;> decide +kernel

/-- A standing source with its instance; a shadow window that suppressed one assertion; a capture that is provisional.
-/
def standing : State := { (up 2 []).setActive 0x1A1 true with flt := { (up 2 []).flt with lastInst := [(0x1A1, 4)] } }
def shadowed : State := { (up 2 []).setActive 0x020 true with flt := { (up 2 []).flt with
  shadows := [{ block := 1, blocks := 2, hits := [(0x020, 5, true)] }] } }

theorem wit_SourcesReachTheCollector :
    sourceClass 0x1A1 = some 0 ∧
    (up 2 []).active 0x1A1 = false ∧
    standing.active 0x1A1 = true ∧
    SMap.get (fun _ => 0) standing.flt.lastInst 0x1A1 = 3 + 1 ∧
    SMap.get (fun _ => 0) standing.flt.lastInst 0x1A1 ≠ 4 + 1 ∧
    sourceClass 0x00E = none ∧
    (up 2 []).flt.broken.contains 0x020 = false ∧
    ((((up 2 []).wrB R.FLT_STAT_HW_SAFE true).wrBit R.FLT_SAFE_CAUSE_CAUSE 5 true).pwmOffAll.raise 0x161 0).role ≠ .active ∧
    ((((standby 2 [(R.RED_STAT_CLAIM, 2)]).wrB R.FLT_STAT_HW_SAFE true).wrBit R.FLT_SAFE_CAUSE_CAUSE 5 true).pwmOffAll.raise
      0x161 0).role = .active ∧
    (up 2 []).flt.shadows = [] ∧
    (shadowed.flt.shadows.find? (fun w => w.block = 1)) = some { block := 1, blocks := 2, hits := [(0x020, 5, true)] } ∧
    ([0x020].Nodup) ∧
    (up 2 []).marksRun = true ∧
    (up 3 [(R.FLT_FIRST0_VALID, 1), (R.FLT_FIRST0_PROVISIONAL, 1)]).marksRun = false ∧
    (up 3 [(R.FLT_FIRST0_VALID, 1), (R.FLT_FIRST0_PROVISIONAL, 1)]).is R.FLT_FIRST0_VALID = true ∧
    (up 3 [(R.FLT_FIRST0_VALID, 1), (R.FLT_FIRST0_PROVISIONAL, 1)]).is R.FLT_FIRST0_PROVISIONAL = true := by and_intros <;> decide +kernel

/-- Lane `n` in a training state, with fields set and its own state. -/
def laned (n st : Nat) (xs : List (Fld × Nat)) (f : LaneSt → LaneSt) : State :=
  (up 2 ([(R.CNL_LANE_STAT_STATE n, st), (R.CNL_LANE_CTL_EN n, 1)] ++ xs)).modLane n f

/-- A training barge with its first bytes. -/
def train (xs : List (Nat × Nat × Nat)) : Barge := barge 10 0 0 0 0 4 xs

theorem wit_LanesTrain :
    (laned 0 3 [] id).collects = true ∧
    (laned 0 1 [] id).laneState 0 = .detect ∧
    (laned 0 2 [] id).laneState 0 = .align ∧
    (laned 0 3 [] id).laneState 0 = .enum ∧
    ((laned 0 3 [] id).lane 0).hello = false ∧
    ((laned 0 3 [] fun l => { l with hello := true }).lane 0).hello = true ∧
    (laned 0 3 [] fun l => { l with hello := true }).laneState 0 = .enum ∧
    (laned 0 6 [] id).laneState 0 = .absent ∧
    (laned 0 4 [] id).laneState 0 = .step ∧
    (laned 0 5 [] id).laneState 0 = .running ∧
    bargeOk (train [(0, 1, 1), (3, 1, 3)]) ∧
    (laned 0 5 [(R.CNL_POUND_CTL_FITTED 0, 16)] id).runs 0 = true ∧
    (laned 0 5 [(R.CNL_POUND_CTL_FITTED 0, 16)] id).fullyReached (poundOf 0) = false ∧
    (laned 0 5 [] id).fullyReached (poundOf 0) = true ∧
    alignedBy (List.replicate 64 (.ctrl k28_5)) = true ∧
    alignedBy (List.replicate 63 (.ctrl k28_5)) = false := by
  and_intros <;> first | decide +kernel | (unfold bargeOk; decide +kernel)

/-- A rate step at this seat before and after its switch, led or followed; and a lane that may begin one. -/
def stepOf (switched lead : Bool) : StepSt := { newRate := 1, oldRate := 0, time := 200000, hop := false, switched := switched, lead := lead }
def stepping (x : StepSt) : State := laned 0 4 [] fun l => { l with step := some x }
def mayStep : State := laned 0 4 [(R.CNL_LANE_CTL_TARGET 0, 3)] fun l => { l with settled := true }

/-- Later than 4 ms after the time of its step, which has not come to its end. -/
def lateStep (x : StepSt) : State := (stepping x).advanceTo 5000000

theorem wit_RateSteps :
    mayStep.collects = true ∧
    ((mayStep.ownLanes 0).filter fun n => (mayStep.laneState n = .step || mayStep.runs n) && !(mayStep.lane n).alone) = [0] ∧
    mayStep.leads = true ∧
    0 < mayStep.aimRate 0 ∧
    (mayStep.lane 0).settled = true ∧
    mayStep.rd (R.CNL_LANE_STAT_RATE 0) = 0 ∧
    (mayStep.lane (2 * 0)).step = none ∧
    (mayStep.lane (2 * 0 + 1)).step = none ∧
    mayStep.nextStep 0 = none ∧
    (stepping (stepOf false true)).nextStep 0 = some 200000 ∧
    ((stepping (stepOf false true)).lane 0).step = some (stepOf false true) ∧
    ((stepping (stepOf false true)).lane 1).step = none ∧
    bargeOk (train [(0, 1, 3), (2, 1, 1), (4, 8, 200000)]) ∧
    ((laned 0 5 [] id).lane 0).step = none ∧
    (laned 0 5 [] id).laneState 0 = .running ∧
    (laned 0 3 [] id).laneState 0 = .enum ∧
    (stepping (stepOf true true)).steppedLanes 0 = [0] ∧
    ((stepping (stepOf true true)).lane 0).step = some (stepOf true true) ∧
    (stepping (stepOf true true)).allAligned 0 ((stepping (stepOf true true)).rd (R.CNL_LANE_STAT_RATE 0)) = true ∧
    (stepping (stepOf true true)).plantNs ≤ 200000 + 4000000 ∧
    (stepping { stepOf true true with reverted := true }).steppedLanes 0 = [0] ∧
    200000 + 4000000 < (lateStep (stepOf true true)).plantNs ∧
    ((stepping (stepOf true false)).lane 0).step = some (stepOf true false) ∧
    (lateStep (stepOf true true)).lateLanes 0 = [2 * 0] ∧
    ((lateStep (stepOf true true)).lane 0).step = some (stepOf true true) ∧
    (lateStep (stepOf true false)).lateLanes 0 = [2 * 0] ∧
    mayStep.lateLanes 0 = [] := by
  and_intros <;> first | decide +kernel | (unfold bargeOk; decide +kernel)

/-- A lane alone in STEP, its pound confirmed at rate 2. -/
def laneAlone (r : Nat) (x : Option StepSt) : State :=
  (laned 0 4 [(R.CNL_LANE_STAT_RATE 0, r)] fun l => { l with alone := true, step := x }).modPound 0 fun q => { q with confirmed := 2 }

theorem wit_TapsAndLoss :
    (laned 0 4 [] id).collects = true ∧
    bargeOk (train [(0, 1, 6), (2, 1, 1)]) ∧
    2 ≤ (laned 0 4 [(R.CNL_LANE_STAT_RATE 0, 2)] id).rd (R.CNL_LANE_STAT_RATE 0) ∧
    ((laned 0 4 [(R.CNL_LANE_STAT_RATE 0, 2)] fun l => { l with forced := some (3, 5) }).lane 0).forced = some (3, 5) ∧
    ((laned 0 4 [(R.CNL_LANE_STAT_RATE 0, 2)] id).lane 0).forced = none ∧
    (laned 0 4 [] id).rd (R.CNL_LANE_STAT_RATE 0) < 2 ∧
    bargeOk (train [(0, 1, 7), (2, 1, 3), (3, 1, 5)]) ∧
    ((laneAlone 0 none).lane 0).alone = true ∧
    (laneAlone 0 none).laneState 0 = .step ∧
    ((laneAlone 0 none).lane 0).step = none ∧
    ((laneAlone 0 none).ownLanes (poundOf 0)).all (fun m => decide (((laneAlone 0 none).lane m).step = none)) = true ∧
    (laneAlone 0 none).rd (R.CNL_LANE_STAT_RATE 0) ≠ ((laneAlone 0 none).pound (poundOf 0)).confirmed ∧
    ((laneAlone 2 (some (stepOf true true))).lane 0).step = some (stepOf true true) ∧
    (laned 0 5 [] id).laneState 0 = .running ∧
    (laned 0 4 [] id).laneState 0 = .step ∧
    burst (List.replicate 16 (.ctrl k28_5)) = false := by
  and_intros <;> first | decide +kernel | (unfold bargeOk; decide +kernel)

/-- Cell 3 of pound 0 reached over its east end, its state due at cycle 7; a full state barge of it. -/
def reachedCell : State :=
  let s := laned 0 5 [(R.CNL_CELL_STAT_REACHED 3, 1), (R.CNL_CELL_STAT_DEPTH 3, 2), (R.CNL_POUND_STAT_SERVICE 0, 0), (R.CNL_POUND_CTL_FITTED 0, 16)] id
  { s with sys := { s.sys with k := 7 }
           flt := { s.flt with acks := [(3, [9])] } }

def fullState : Barge := barge 2 3 0 2 7 24 []
def faultBarge : Barge := barge 7 3 0 0 0 4 [(3, 1, 9)]
def request : ServiceReq := { op := 1, len := 1, addr := 0x18, data := 0, tag := some 7, sent := some 1 }
def asking : State := reachedCell.modLink 3 fun l => { l with service := some request }
def relaying (xs : List (Fld × Nat)) : State := up 2 ([(R.RED_CTL_PAIRED, 1), (R.CNL_LANE_STAT_STATE 24, 5),
  (R.CNL_LANE_STAT_STATE 0, 5), (R.RED_STAT_CLAIM, 2)] ++ xs)
def delayRsp : Barge := train [(0, 1, 9), (4, 4, 1000)]

/-- A SERVICE_RSP with a word too many, its CRC good; a lane that has asked for its delay. -/
def badLength : Barge := barge 6 3 0 0 0 5 []
def askedDelay : LaneSt := (laned 0 5 [] fun l => { l with delaySeq := some 0 }).lane 0

theorem wit_BargesAreTaken :
    reachedCell.collects = true ∧
    reachedCell.runs 0 = true ∧
    fullState.pound = poundOf 0 ∧
    reachedCell.looped 0 = false ∧
    fullState.typ = 2 ∧
    faultBarge.typ = 7 ∧
    (barge 6 3 0 0 0 4 []).typ = 6 ∧
    ({ fullState with crc := fullState.goodCrc ^^^ 1 } : Barge).crc ≠ ({ fullState with crc := fullState.goodCrc ^^^ 1 } : Barge).goodCrc ∧
    ({ fullState with crc := fullState.goodCrc ^^^ 1 } : Barge).crc ≠
      ~~~({ fullState with crc := fullState.goodCrc ^^^ 1 } : Barge).goodCrc ∧
    fullState.pound < reachedCell.poundCount ∧
    fullState.crc = fullState.goodCrc ∧
    fullState.length = 24 ∧
    reachedCell.reached 3 = true ∧
    reachedCell.is (R.CNL_CELL_STAT_END 3) = false ∧
    fullState.cycle = reachedCell.dueSample 0 % 65536 ∧
    fullState.hops = reachedCell.rd (R.CNL_CELL_STAT_DEPTH 3) ∧
    reachedCell.isOut 0 = false ∧
    faultBarge.crc = faultBarge.goodCrc ∧
    faultBarge.length = 4 ∧
    leAt faultBarge.payload 3 1 = 9 ∧
    faultBarge.position < reachedCell.rd (R.CNL_POUND_CTL_FITTED 0) ∧
    (reachedCell.flt.acks.find? fun p => p.1 = 16 * faultBarge.pound + faultBarge.position) = some (3, [9]) ∧
    ((asking.link 3).service.bind (·.sent)) = some 1 ∧
    (relaying []).runs 24 = true ∧
    (relaying []).ownEnd 1 = false ∧
    (relaying []).ownEnd 0 = true ∧
    (relaying []).runs 0 = true ∧
    (relaying []).gateOpen = true ∧
    delayRsp.crc = delayRsp.goodCrc ∧
    leAt delayRsp.payload 0 1 = 9 ∧
    ((laned 0 5 [] fun l => { l with delays := [100] }).lane 0).delays ≠ [] ∧
    (laned 0 5 [] fun l => { l with delays := [100] }).laneDelay 0 + 65536 < (200000 - leAt delayRsp.payload 4 4) / 2 ∧
    ((laned 0 5 [] id).lane 0).delays = [] ∧
    (2000 - leAt delayRsp.payload 4 4) / 2 = 500 ∧
    (laned 0 5 [] id).laneState 0 ≠ .off ∧
    (laned 0 5 [] id).laneState 0 ≠ .detect ∧
    (laned 0 5 [] id).laneState 0 ≠ .absent ∧
    bargeOk fullState ∧
    bargeOk faultBarge ∧
    bargeOk (barge 6 3 0 0 0 4 []) ∧
    bargeOk delayRsp ∧
    reachedCell.inUplink 0 1000 = true ∧
    reachedCell.inUplink 0 0 = false ∧
    ({ fullState with crc := ~~~fullState.goodCrc } : Barge).crc ≠ ({ fullState with crc := ~~~fullState.goodCrc } : Barge).goodCrc ∧
    ({ fullState with crc := ~~~fullState.goodCrc } : Barge).crc = ~~~({ fullState with crc := ~~~fullState.goodCrc } : Barge).goodCrc ∧
    (badLength.crc = badLength.goodCrc) ∧
    badLength.length ≠ bargeWords badLength.typ ∧
    (up 2 []).runs 0 = false ∧
    ({ fullState with pound := 1 } : Barge).pound ≠ poundOf 0 ∧
    askedDelay.delaySeq.map (·.toNat) = some (leAt delayRsp.payload 12 1) ∧
    (laned 0 5 [] id |>.lane 0).delaySeq.map (·.toNat) ≠ some (leAt delayRsp.payload 12 1) ∧
    (train [(0, 1, 3)]).typ = 10 ∧
    leAt (train [(0, 1, 3)]).payload 0 1 = 3 ∧
    bargeOk (train [(0, 1, 3)]) := by
  and_intros <;> first | decide +kernel | (unfold bargeOk; decide +kernel)

/-- A good keep-alive frame, its CRC in bytes 10 and 11; port 0 enabled, once heard already, UP. -/
def keepAlive0 : Bytes :=
  let b := layBytes 10 [(0, 1, 0xA5), (3, 1, 8), (4, 2, 0xFFFF), (8, 1, 6)]
  b ++ layBytes 2 [(0, 2, (keepAliveCrc b).toNat)]
def onPort (g : Nat) (xs : List (Fld × Nat)) : State := (up 2 ((R.CNL_TP_CTL_EN, 1) :: xs)).modPort 0 fun q => { q with good := g }

theorem wit_TowpathPorts :
    (up 2 []).towpathSends = true ∧
    (onPort 0 []).portOn 0 = true ∧
    leAt (List.replicate 12 0#8) 10 2 ≠ (keepAliveCrc (List.replicate 12 0#8)).toNat ∧
    keepAlive0.length = 12 ∧
    leAt keepAlive0 10 2 = (keepAliveCrc keepAlive0).toNat ∧
    (((onPort 0 []).modPort 0 fun q => { q with good := min 2 (q.good + 1) }).port 0).good < 2 ∧
    2 ≤ (((onPort 1 []).modPort 0 fun q => { q with good := min 2 (q.good + 1) }).port 0).good ∧
    (onPort 1 []).is (R.CNL_TP_STAT_UP 0) = false ∧
    (onPort 2 [(R.CNL_TP_STAT_UP 0, 1)]).is (R.CNL_TP_STAT_UP 0) = true ∧
    (inBoot .search).towpathSends = false ∧
    (up 2 []).portOn 0 = false := by and_intros <;> decide +kernel

/-! Cells, energy, metering, pulse outputs and drives -/

/-- A timer of the cells or the pounds at its end. -/
def outCell : State := (up 2 [(R.CELL_CELL_STAT_ROLE 3, 5)]).modCell 3 fun c => { c with bypassAt := some 0 }
def sluicing : State := up 2 [(R.NRG_STAT_SLUICE, 1), (R.CELL_CELL_STAT_ROLE 3, 9)]
def longOut : State := (up 1 [(R.CELL_STAT_GRID, 1), (R.CNL_POUND_STAT_SERVICE 0, 2), (R.CELL_TIMING_OUT_TMO, 3)]).modPound 0 fun q =>
  { q with outCycles := 3 }

/-- A record whose mark has passed. -/
def job : RecordJob := { addr := 0x1000, tag := 7, nonce := [], mark := 1, body := some (List.replicate 464 0#8) }
def recorded : State := { up 2 [] with nrg := { (up 2 []).nrg with record := some job }, sec := { (up 2 []).sec with attest := some job } }

/-- A stopping pound with a cell that has not reported; a shut-down with no marks running. -/
def late (st : Nat) : State := (up 1 [(R.CELL_POUND_STAT_STATE 0, st)]).modPmgr 0 fun x => { x with waiting := [3] }
def shutDark : State := { up 3 [] with cell := { (up 3 []).cell with shut := some { since := 0, start := [], legs := 0 } } }

theorem wit_CellTimersEnd :
    (up 1 [(R.CELL_POUND_STAT_STATE 0, 1)]).poundState 0 = 1 ∧
    (up 1 [(R.CELL_POUND_STAT_STATE 0, 4)]).poundState 0 = 4 ∧
    ((up 1 [(R.CELL_POUND_STAT_STATE 0, 4)]).pmgr 0).waiting = [] ∧
    (outCell.cellAt 3).bypassAt = some 0 ∧
    (outCell.cellAt 3).bypassTold = false ∧
    outCell.cellRole 3 = .rejoining ∧
    longOut.isOut 0 = true ∧
    longOut.grid ≠ 0 ∧
    longOut.rd R.CELL_TIMING_OUT_TMO ≤ (longOut.pound 0).outCycles ∧
    shutting.cell.shut = some { since := 0, start := [], legs := 0 } ∧
    sluicing.rd R.NRG_STAT_SLUICE = 1 ∧
    sluicing.cellRole 3 = .sluicing ∧
    recorded.nrg.record = some job ∧
    recorded.attestAtMark.sec.attest = some job ∧
    (up 1 []).collects = true ∧
    ((late 4).pmgr 0).waiting = [3] ∧
    (late 4).poundState 0 = 4 ∧
    (late 4).cellRole 3 ≠ .failed ∧
    shutting.marksRun = true ∧
    shutDark.cell.shut.isSome = true ∧
    shutDark.marksRun = false ∧
    (up 1 []).cell.shut = none ∧
    job.body.isSome = true := by and_intros <;> decide +kernel

/-- Channel 0 enabled. -/
def metered : State := up 2 [(R.MTR_CH_CFG_EN 0, 1)]
def sample0 : Sample := { channel := 0, x := 0x3F800000#32, clean := true }

theorem wit_ResultsAreTaken :
    metered.collects = true ∧
    metered.fineDue = true ∧
    1 ≠ metered.mtr.fine ∧
    (up 3 []).fineDue = false ∧
    0 = metered.mtr.fine ∧
    (sample0 ∈ [sample0] ∧ sample0.channel = 0 ∧ isChannel 0 = true) ∧
    metered.interleaved 0 = false ∧
    metered.resultValid 0 (sample0.clean && !metered.divided fineSpan) = true ∧
    (up 2 [(R.MTR_ACC_CFG_WIN 1, 4)]).rd (R.MTR_ACC_CFG_WIN 1) ≠ 0 ∧
    metered.metering = true := by
  and_intros <;> decide +kernel

/-- The rotation enabled, at a step of its slice. -/
def calAt (n : Nat) : State := { up 2 [(R.MTR_CTL_CAL_EN, 1), (R.MTR_CAL_STAT_SLICE, 5)] with mtr := { (up 2 []).mtr with calStep := n } }

theorem wit_InputsAndCalibration :
    isChannel 5 = true ∧
    (up 2 [(R.MTR_CH_STAT_OVR 5, 1)]).is (R.MTR_CH_STAT_OVR 5) = true ∧
    (calAt 0).mtr.calStep = 0 ∧
    (calAt 0).is R.MTR_CTL_CAL_EN = true ∧
    (calAt 0).calBlocked = false ∧
    (calAt 0).mtr.calNext < 40 ∧
    (calAt 1).mtr.calStep = 1 ∧
    (calAt 2).mtr.calStep = 2 ∧
    (calAt 3).mtr.calStep = 3 ∧
    (calAt 3).rd R.MTR_CAL_STAT_SLICE < 40 ∧
    (calAt 3).is R.MTR_DIAG_RES_WAITING = false ∧
    fFinite 0x3A83126F#32 = true ∧
    fLe (fAbs 0x3A83126F#32) 0x3BA3D70A#32 = true ∧
    fLe (fAbs 0x3A83126F#32) 0x3B03126F#32 = true ∧
    (State.wr (State.wr (calAt 3) (R.MTR_CH_STAT_GAIN_CORR 5) (uxSat 16 (roundRat (fRat 0x3A83126F#32 * 5000000))))
      (R.MTR_CH_STAT_OFS_CORR 5) (uxSat 8 (roundRat (fRat 0x3A83126F#32 * 50000)))).is R.MTR_DIAG_RES_WAITING = false ∧
    (calAt 5).mtr.calStep = 5 ∧
    (calAt 0).collects = true ∧
    isChannel 48 = true ∧
    (calAt 4).mtr.calStep = 4 ∧
    (calAt 4).rd R.MTR_CAL_STAT_SLICE < 40 := by and_intros <;> decide +kernel

/-- Comparator 5 enabled, its high side sensed. -/
def compared (xs : List (Fld × Nat)) : State := up 2 ([(R.CMP_CH_CFG_EN 5, 1), (R.CMP_CH_CFG_SENSE 5, 1)] ++ xs)

theorem wit_BoundariesAndTrips :
    (up 2 [(R.PWM_GRP_STAT_RUNNING 2, 1)]).pwmRuns 2 = true ∧
    (up 2 []).pwmRuns 2 = false ∧
    (∀ c, c < 64 → (up 2 []).is (R.CMP_CH_CFG_EN c) = false) ∧
    (compared []).cmpLive 5 = true ∧
    (up 2 []).cmpLive 5 = false ∧
    (compared [(R.CMP_CH_STAT_UNRES_HI 5, 1)]).is (cmpUnres 5 true) = true ∧
    (compared []).is (cmpUnres 5 true) = false ∧
    (compared []).senses 5 true = true ∧
    (compared []).is (R.CMP_CH_STAT_ESCALATED 5) = false ∧
    ((compared []).wrB (cmpRaw 5 true) true).senses 5 true = true ∧
    ((compared []).wrB (cmpRaw 5 true) true).is (R.CMP_CH_STAT_ESCALATED 5) = false := by and_intros <;> decide +kernel

/-- Drive 0 in a state; a probe set whose samples are all 0. -/
def driving (n : Nat) (xs : List (Fld × Nat)) : State :=
  up 1 ([(R.AUX_STAT_STATE 0, n), (R.AUX_SRC_SHUNT 0, 48), (R.MTR_CH_CFG_EN 48, 1)] ++ xs)
def zeros : List MarkSample := List.replicate 3 { channel := 48, y0 := 0, y1 := 0, frac := 0, clean := true }

def faultIn (s : State) : State := (s.wrB (R.AUX_STAT_FLT_IN 0) true).setActive 0x100
  ([0, 1, 2, 3].any fun e => (s.wrB (R.AUX_STAT_FLT_IN 0) true).is (R.AUX_STAT_FLT_IN e) &&
    (s.wrB (R.AUX_STAT_FLT_IN 0) true).is (R.AUX_CTL_FLT_EN e))

/-- A drive that a seat has to adopt. -/
def adopting (st : Nat) : State := (driving 0 []).modDrive 0 fun v => { v with adopt := some (st, 0, 0, 0, 0) }

theorem wit_DrivesTakeTheirSteps :
    (faultIn (driving 3 [(R.AUX_CTL_FLT_EN 0, 1)])).is (R.AUX_CTL_FLT_EN 0) = true ∧
    (faultIn (driving 3 [])).is (R.AUX_CTL_FLT_EN 0) = false ∧
    (driving 3 []).driveState 0 = .running ∧
    (driving 4 []).driveState 0 = .stopping ∧
    (driving 0 []).driveState 0 = .stopped ∧
    (driving 2 []).driveState 0 = .catching ∧
    (((driving 2 [(R.AUX_CATCH_I_MIN 0, 0x3F800000)]).probeOf 0 zeros).map fun p =>
      decide (p.m2 < (driving 2 [(R.AUX_CATCH_I_MIN 0, 0x3F800000)]).par (R.AUX_CATCH_I_MIN 0) *
        (driving 2 [(R.AUX_CATCH_I_MIN 0, 0x3F800000)]).par (R.AUX_CATCH_I_MIN 0))) = some true ∧
    (((driving 2 []).probeOf 0 zeros).map fun p =>
      decide (p.m2 < (driving 2 []).par (R.AUX_CATCH_I_MIN 0) * (driving 2 []).par (R.AUX_CATCH_I_MIN 0))) = some false ∧
    ((driving 2 []).drive 0).prevSet = none ∧
    ((driving 2 []).drive 0).low = 0 ∧
    (driving 1 []).driveState 0 = .aligning ∧
    (driving 5 []).driveState 0 = .coasting ∧
    (((driving 5 []).advanceByTicks (((driving 5 []).drive 0).since + 5000000 * (driving 5 []).rd (R.AUX_TIME_COAST_T 0))).drive 0).recatch =
      false ∧
    ((((driving 5 []).modDrive 0 fun x => { x with recatch := true }).advanceByTicks
      (((driving 5 []).drive 0).since + 5000000 * (driving 5 []).rd (R.AUX_TIME_COAST_T 0))).drive 0).recatch = true ∧
    ((driving 3 []).drive 0).adopt = none ∧
    ((adopting 0).drive 0).adopt = some (0, 0, 0, 0, 0) ∧
    (adopting 0).driveState 0 ≠ .fault ∧
    Drive.ofCode 0 = .stopped := by
  and_intros <;> decide +kernel

/-! The pair -/

/-- A seat of a pair in HOLD with a claim, its link UP, its partner's line deasserted long ago. -/
def paired (claim : Nat) (xs : List (Fld × Nat)) : State :=
  up 2 ([(R.RED_CTL_PAIRED, 1), (R.RED_CTL_CLAIM_EN, 1), (R.RED_STAT_CLAIM, claim), (R.CNL_LANE_STAT_STATE 24, 5)] ++ xs)

def lineUp (s : State) : State :=
  let u := s.wrB R.RED_PARTNER_LINE true
  { u with red := { u.red with deassertedAt := none, everHeld := true } }
def lineDown (s : State) : State :=
  let u := s.wrB R.RED_PARTNER_LINE false
  { u with red := { u.red with deassertedAt := some u.tsn.local_ } }

def gateOf (s : State) : State :=
  let u := (s.advanceByTicks 1000).claimTo 2 2
  let v := State.inc { u with red := { u.red with everHeld := true }, tsn := { u.tsn with holderSel := none } } R.RED_STAT_SWITCHES
  v.judgeSelection v.anyLocked

theorem wit_ClaimsFollowTheLine :
    (paired 0 []).is R.RED_PARTNER_LINE = false ∧
    (lineUp (paired 0 [])).paired = true ∧
    ((lineUp (paired 0 [])).setActive 0x143 false).claim = 0 ∧
    ((lineUp (paired 2 [])).setActive 0x143 false).claim ≠ 0 ∧
    (lineUp (paired 2 [])).paired = true ∧
    (lineUp (up 2 [(R.RED_STAT_CLAIM, 2)])).paired = false ∧
    (lineUp (up 2 [(R.RED_STAT_CLAIM, 2)])).claim ≠ 0 ∧
    (paired 3 [(R.RED_PARTNER_LINE, 1)]).is R.RED_PARTNER_LINE = true ∧
    (lineDown (paired 3 [(R.RED_PARTNER_LINE, 1)])).paired = true ∧
    (lineDown (paired 3 [(R.RED_PARTNER_LINE, 1)])).claim = 3 ∧
    (lineDown (paired 0 [(R.RED_PARTNER_LINE, 1)])).claim ≠ 3 ∧
    (paired 0 []).red.deassertedAt = some 0 ∧
    (paired 0 []).claim = 0 ∧
    (paired 0 []).mayClaim = true ∧
    (paired 0 []).partnerReleased = true ∧
    (up 2 []).mayClaim = false ∧
    (paired 1 []).claim = 1 ∧
    (paired 1 []).red.deassertedAt = some 0 ∧
    (((up 2 [(R.RED_STAT_CLAIM, 1)]).advanceByTicks 1000).claimTo 2 2).paired = false ∧
    (((paired 1 []).advanceByTicks 1000).claimTo 2 2).paired = true ∧
    (gateOf (paired 1 [])).red.coldTaken = false ∧
    (paired 3 []).seatB = false ∧
    (paired 3 []).claim = 3 ∧
    (paired 2 []).claim ≠ 0 ∧
    (paired 2 []).power ≠ .towpath ∧
    (paired 2 []).bootDone = true ∧
    (paired 0 []).collects = true ∧
    (paired 0 []).paired = true ∧
    (paired 0 []).bootDone = true ∧
    (paired 0 [(R.RED_PARTNER_CLAIM, 2), (R.RED_STAT_LINK_UP, 1)]).partnerReleased = false ∧
    (paired 0 [(R.RED_CTL_CLAIM_EN, 0)]).mayClaim = false ∧
    (paired 0 [(R.RED_CTL_CLAIM_EN, 0)]).partnerReleased = true ∧
    { paired 0 [] with red := { (paired 0 []).red with deassertedAt := none } }.red.deassertedAt = none := by and_intros <;> decide +kernel

/-- A heartbeat of 128 bytes; a mirrored command of 36. -/
def beat0 : Bytes := layBytes 128 [(0, 2, 0x6192), (2, 1, 0xB0), (3, 1, 1)]
def mirror0 : Bytes := layBytes 36 [(0, 1, 0x10)]

/-- A swap at cycle 0, at each of its stages. -/
def swapAt (released confirmed : Bool) (s : State) : State := { s with red := { s.red with
  swap := some { s := 0, watchdog := false, released := released, confirmed := confirmed } } }

theorem wit_PairMessagesAreTaken :
    (paired 0 []).paired = true ∧
    (paired 0 []).linkLanes ≠ [] ∧
    beat0.length = 128 ∧
    (up 2 []).paired = false ∧
    leAt (layBytes 4 [(0, 1, 2)]) 1 1 ≠ 5 ∧
    (paired 0 []).role = .standby ∧
    mirror0.length = 36 ∧
    (up 2 []).role ≠ .standby ∧
    (paired 2 [(R.RED_STAT_LINK_UP, 1)]).role = .active ∧
    (paired 2 [(R.RED_STAT_LINK_UP, 1)]).is R.RED_STAT_LINK_UP = true ∧
    (paired 0 [(R.RED_STAT_LINK_UP, 1)]).is R.RED_STAT_LINK_UP = true ∧
    (paired 0 [(R.RED_STAT_LINK_UP, 1)]).role = .standby ∧
    (paired 0 [(R.RED_STAT_LINK_UP, 1)]).red.copyIn = none ∧
    (swapAt false true (paired 2 [])).gateOpen = true ∧
    (swapAt false true (paired 2 [])).sys.k = 0 ∧
    (swapAt true true (paired 0 [(R.RED_PARTNER_CLAIM, 2)])).rd R.RED_PARTNER_CLAIM = 2 ∧
    (swapAt true true (paired 0 [])).rd R.RED_PARTNER_CLAIM ≠ 2 ∧
    (swapAt false false (paired 0 [])).role = .standby ∧
    (swapAt false false (paired 0 [])).gateOpen = false ∧
    (paired 0 []).collects = true ∧
    (up 2 [(R.RED_PARTNER_CLAIM, 2)]).rd R.RED_PARTNER_CLAIM = 2 ∧
    beat0.length ≠ 4 ∧
    (layBytes 16 []).length = 16 ∧
    8 ≤ (layBytes 16 []).length := by and_intros <;> decide +kernel

/-! Ports, frames, time and debug -/

/-- Port 0 enabled and UP or not. -/
def ported (xs : List (Fld × Nat)) : State := up 2 ([(R.TSN_PORT_CTL_EN 0, 1)] ++ xs)

/-- A broadcast frame of 60 bytes, untagged; one to an address that no filter takes. -/
def broadcast : Bytes := List.replicate 12 0xFF#8 ++ [0x12#8, 0x34#8] ++ List.replicate 46 0#8
def foreign : Bytes := [0x02#8] ++ List.replicate 11 0x11#8 ++ [0x12#8, 0x34#8] ++ List.replicate 46 0#8

/-- A frame waiting in launch queue 0. -/
def launching (xs : List (Fld × Nat)) : State := { ported ((R.TSN_PORT_STAT_UP 0, 1) :: xs) with hst := { (up 2 []).hst with
  posted := [{ ring := 13, idx := 0, desc := cmd 0xA0 [(12, 2, 60)], frame := broadcast }] } }

/-- The frame that waits in queue 0; the same queue with one of a higher rank in another. -/
def waiting0 : Posted := { ring := 13, idx := 0, desc := cmd 0xA0 [(12, 2, 60)], frame := broadcast }
def busyPort : State := { launching [] with hst := { (launching []).hst with
  posted := [waiting0, { ring := 14, idx := 0, desc := cmd 0xA0 [(12, 2, 60)], frame := broadcast }] } }

theorem wit_FramesComeAndGo :
    (ported []).is (R.TSN_PORT_STAT_UP 0) = false ∧
    (ported [(R.TSN_PORT_STAT_UP 0, 1)]).is (R.TSN_PORT_STAT_UP 0) = true ∧
    (ported []).is (R.TSN_PORT_CTL_EN 0) = true ∧
    (ported []).trackersRun = true ∧
    ((ported []).bodyOf (broadcast.take 59)).length < 60 ∧
    60 ≤ ((ported []).bodyOf broadcast).length ∧
    ((ported []).bodyOf broadcast).length ≤ 1518 ∧
    (ported []).filtersOut 0 foreign = true ∧
    ((ported []).bodyOf foreign).length = 60 ∧
    (ported []).filtersOut 0 broadcast = false ∧
    (ported []).trailerOf broadcast = none ∧
    (launching []).postedOf 13 ≠ [] ∧
    (launching [(R.RED_GATE_ETXQ, 1)]).queueGated 0 = true ∧
    (launching []).queueGated 0 = false ∧
    (launching []).txPorts (cmd 0xA0 [(12, 2, 60), (14, 1, 1)]) = [] ∧
    (launching []).txPorts (cmd 0xA0 [(12, 2, 60)]) = [0] ∧
    launchOf (cmd 0xA0 [(12, 2, 60)]) = 0 ∧
    (cmd 0xA0 [(12, 2, 60)]).le 14 1 = 0 ∧
    (cmd 0xA0 [(12, 2, 60)]).le 15 1 = 0 ∧
    (ported []).collects = true ∧
    (ported [(R.CLK_PLL_STAT_LOCKED, 0x200)]).ethRuns = true ∧
    (launching []).postedOf 13 ≠ [] ∧
    (launching []).heldBack 0 waiting0 0 ((launching []).egressPlant 0 0) = false ∧
    (launching [(R.RED_CTL_PAIRED, 0)]).queueGated 0 = false ∧
    busyPort.heldBack 0 waiting0 0 (busyPort.egressPlant 0 0) = true ∧
    busyPort.postedOf 13 ≠ [] ∧
    busyPort.queueGated 0 = false ∧
    (ported []).postedOf 13 = [] := by and_intros <;> decide +kernel

/-- A grandmaster. -/
def gm5 : PtpMaster := { priority1 := 1, clockClass := 6, accuracy := 0x21, variance := 0, priority2 := 1, gm := 5, stepsRemoved := 0
                         clock := 5, port := 1, utc := 37, utcValid := true, tlv := false, interval := 1000 }

/-- Tracker 0 enabled on port 0, in a state, its master known; a message of its master. -/
def tracked (st : Nat) (xs : List (Fld × Nat)) : State := (ported ([(R.TSN_PORT_STAT_UP 0, 1), (R.TSN_DOM_CTL_EN 0, 1),
  (R.TSN_DOM_CTL_PORTS 0, 1), (R.TSN_DOM_CTL_TAGGED 0, 0), (R.TSN_DOM_STAT_STATE 0, st)] ++ xs)).modTracker 0 fun t => { t with master := some gm5 }
def ptp (b : PtpBody) : PtpMsg := { domain := 0, vid := none, clock := 5, port := 1, seq := 4, correction := 0, body := b }
def asked (s : State) : State := s.modPtpLink 0 0 fun l => { l with delayReq := some (4, 0), sync := some (4, 0, 0) }

def steps (p : Nat) (xs : List (Fld × Nat)) : State :=
  (up p ([(R.TSN_DOM_STAT_STATE 0, 3)] ++ xs)).written 0x3A000 (0#32 ||| 0x20000000#32)

theorem wit_TrackersFollow :
    (tracked 3 []).consumes 0 1 (ptp .other) = false ∧
    (tracked 3 []).consumes 0 0 (ptp .other) = true ∧
    (tracked 3 []).fromMaster 0 (ptp .other) = true ∧
    ((asked (tracked 3 [])).ptpLink 0 0).delayReq = some (4, 0) ∧
    ((asked (tracked 3 [])).ptpLink 0 0).sync = some (4, 0, 0) ∧
    (asked (tracked 3 [])).peerDelay 0 = false ∧
    (tracked 3 [(R.TSN_DOM_CTL_PROFILE 0, 2)]).peerDelay 0 = true ∧
    (tracked 1 []).dom 0 ≠ .acquiring ∧
    (tracked 1 []).dom 0 ≠ .locked ∧
    (tracked 3 []).dom 0 = .locked ∧
    (tracked 3 []).rd (R.TSN_DOM_CTL_PORTS 0) ≠ 3 ∧
    (tracked 4 []).dom 0 = .holdover ∧
    (tracked 3 [(R.TSN_TIME_CTL_AUTO, 1), (R.TSN_TIME_CTL_REVERT_S, 5), (R.TSN_TIME_STAT_SEL, 1)]).rd R.TSN_TIME_CTL_PREF = 0 ∧
    (tracked 3 [(R.TSN_TIME_CTL_AUTO, 1), (R.TSN_TIME_CTL_REVERT_S, 5), (R.TSN_TIME_STAT_SEL, 1)]).role ≠ .standby ∧
    (tracked 3 [(R.TSN_TIME_CTL_AUTO, 1), (R.TSN_TIME_CTL_REVERT_S, 5), (R.TSN_TIME_STAT_SEL, 1)]).is R.TSN_TIME_CTL_AUTO = true ∧
    (tracked 3 [(R.TSN_TIME_CTL_AUTO, 1), (R.TSN_TIME_CTL_REVERT_S, 5), (R.TSN_TIME_STAT_SEL, 1)]).rd R.TSN_TIME_CTL_REVERT_S ≠ 0 ∧
    (tracked 3 [(R.TSN_TIME_CTL_AUTO, 1), (R.TSN_TIME_CTL_REVERT_S, 5), (R.TSN_TIME_STAT_SEL, 1)]).domLocked 0 = true ∧
    (tracked 3 [(R.TSN_TIME_CTL_AUTO, 1), (R.TSN_TIME_CTL_REVERT_S, 5), (R.TSN_TIME_STAT_SEL, 1)]).selected ≠ 0 ∧
    ({ tracked 3 [] with tsn := { (tracked 3 []).tsn with slew := some true } } : State).tsn.slew.isSome = true ∧
    (tracked 3 []).trackersRun = true ∧
    (tracked 3 []).is (R.TSN_DOM_CTL_EN 0) = true ∧
    (tracked 3 []).is (R.TSN_PORT_STAT_UP ((tracked 3 []).rd (R.TSN_DOM_STAT_SLAVE_PORT 0))) = true ∧
    (asked (tracked 3 [(R.TSN_DOM_CTL_PROFILE 0, 2)])).peerDelay 0 = true ∧
    (tracked 2 []).dom 0 = .acquiring ∧
    (tracked 3 []).collects = true ∧
    ((tracked 3 []).tracker 0).master.isSome = true ∧
    (up 2 []).is (R.TSN_DOM_CTL_EN 0) = false ∧
    (up 0 []).trackersRun = false ∧
    (up 2 []).decodes 0x3A000 = true ∧
    (up 2 []).tsn.slew = none ∧
    (steps 2 []).power = .hold ∧
    (steps 2 []).role ≠ .standby ∧
    (steps 2 []).domLocked (steps 2 []).selected = true ∧
    (steps 1 []).power ≠ .hold := by and_intros <;> decide +kernel

/-- A seat of a pair that holds no claim, level 3 granted on JTAG; two loops enabled in bank A, the first halted. -/
def debugging : State := paired 0 [(R.SEC_DBG_STAT_JTAG_GRANT, 3)]
def halted : State := { debugging with loop := { debugging.loop with halted := some 0, words := [(0x40000, 0x00010001#32), (0x40080, 0x00010001#32)] } }
def unlock0 : Desc := Desc.mk 0x91 0 0 (layBytes 20 [(0, 1, 2), (2, 1, 1)])

/-- Held in OFF. -/
def inOff : State := inBoot .off

theorem wit_DebugNeedsItsLevel :
    debugging.collects = true ∧
    debugging.mayHalt 1 = true ∧
    debugging.loop.halted = none ∧
    (up 2 []).mayHalt 1 = false ∧
    halted.loop.halted = some 0 ∧
    halted.mayHalt 1 = true ∧
    (nextLoop halted.loopOrder 0).isSome = true ∧
    halted.mayHalt halted.sec.haltBy = false ∧
    2 ≤ (sets [(R.SEC_DBG_STAT_JTAG_GRANT, 3)] (inBoot .search)).debugLevel 1 ∧
    (sets [(R.SEC_DBG_STAT_JTAG_GRANT, 3)] (inBoot .search)).bootDone = false ∧
    (up 2 [(R.SEC_DBG_STAT_JTAG_GRANT, 1)]).debugLevel 1 < 2 ∧
    (up 2 []).decodes 0x3F05C = true ∧
    (up 2 [(R.SEC_DBG_STAT_PCIE_GRANT, 0)]).debugLevel 0 = 0 ∧
    debugging.debugLevel 1 ≠ 0 ∧
    unlock0.ops.length = 20 ∧
    reservedOk unlock0 [(7, 1), (18, 6)] = none ∧
    unlock0.le 5 1 = 0 ∧
    unlock0.le 4 1 = 2 ∧
    unlock0.le 6 1 < 2 ∧
    inOff.power = .off ∧
    inOff.bootDone = false ∨ inOff.power = .off ∧
    debugging.decodes 0x3F05C = true ∧
    0x1000 < 0x100000 := by and_intros <;> decide +kernel

end Sys2Proof.Tests
end

section
/-! SUPPORT. Register fields bit by bit: which bits a write of a field changes, and that the fields of a register of the
register table lie inside it and share no bit. -/

set_option Elab.async false

namespace Sys2Proof.Machine

open Sys2Proof

/-! ### Bits of a field -/

/-- The bits of a field's value are the register's bits from the field's lowest on. -/
theorem Fld.testBit_get (f : Fld) (w : Word) {j : Nat} (hj : j < f.width) :
    (f.get w).testBit j = w.getLsbD (f.lsb + j) := by
  unfold Fld.get
  rw [Nat.testBit_mod_two_pow, Nat.testBit_div_two_pow, decide_eq_true hj, Bool.true_and, Nat.add_comm j,
    BitVec.testBit_toNat]

/-- A write of a field changes the field's bits only. -/
theorem Fld.getLsbD_put (f : Fld) (hf : f.fits) (w : Word) (v i : Nat) :
    (f.put w v).getLsbD i = if f.lsb ≤ i ∧ i < f.lsb + f.width then v.testBit (i - f.lsb) else w.getLsbD i := by
  rw [← BitVec.testBit_toNat, ← BitVec.testBit_toNat, Fld.put_toNat f hf, Nat.add_assoc, Nat.mul_comm,
    Nat.testBit_two_pow_mul_add _ (Fld.low_lt _ _ _ _), Nat.mul_comm (v % _),
    Nat.testBit_two_pow_mul_add _ (Nat.mod_lt _ (Nat.two_pow_pos _)), Nat.testBit_mod_two_pow, Nat.testBit_mod_two_pow,
    Nat.testBit_div_two_pow]
  by_cases hlow : i < f.lsb
  · simp [hlow, show i < f.lsb + f.width by omega, show ¬ f.lsb ≤ i by omega]
  · by_cases hhigh : i < f.lsb + f.width
    · simp [hlow, hhigh, show f.lsb ≤ i by omega, show i - f.lsb < f.width by omega]
    · simp [hhigh, show i - (f.lsb + f.width) + (f.lsb + f.width) = i by omega]

/-- A field written reads back, bit by bit. -/
theorem Fld.getLsbD_put_same (f : Fld) (hf : f.fits) (w : Word) (v : Nat) {j : Nat} (hj : j < f.width) :
    (f.put w v).getLsbD (f.lsb + j) = v.testBit j := by
  rw [Fld.getLsbD_put f hf, if_pos (by omega), Nat.add_sub_cancel_left]

/-- A bit outside the field written stays. -/
theorem Fld.getLsbD_put_outside (f : Fld) (hf : f.fits) (w : Word) (v : Nat) {i : Nat}
    (hi : i < f.lsb ∨ f.lsb + f.width ≤ i) : (f.put w v).getLsbD i = w.getLsbD i := by
  rw [Fld.getLsbD_put f hf, if_neg (by omega)]

/-! ### The register table -/

/-- Two fields of a register share no bit. -/
abbrev FieldDef.Apart (f g : FieldDef) : Prop := f.lsb + f.width ≤ g.lsb ∨ g.lsb + g.width ≤ f.lsb

/-- The fields of a register lie inside it and share no bit. -/
abbrev RegDef.Tidy (d : RegDef) : Prop := (∀ f ∈ d.fields, f.lsb + f.width ≤ 32) ∧ d.fields.Pairwise FieldDef.Apart

theorem tidy_ite {c : Prop} [Decidable c] {a b : List RegDef} (ha : ∀ d ∈ a, d.Tidy) (hb : ∀ d ∈ b, d.Tidy) :
    ∀ d ∈ (if c then a else b), d.Tidy := by
  split <;> assumption

/-- The fields of every register of a window lie inside it and share no bit. -/
theorem regRows_tidy (off : Nat) : ∀ d ∈ regRows off, d.Tidy := by
  unfold regRows
  repeat' refine tidy_ite ?_ ?_
  all_goals decide +kernel

theorem findReg_mem {off : Nat} {d : RegDef} {i : Nat} {rows : List RegDef} (h : findReg off rows = some (d, i)) :
    d ∈ rows := by
  induction rows with
  | nil => cases h
  | cons r rows ih =>
    unfold findReg at h
    split at h
    · cases h; exact List.mem_cons_self
    · exact List.mem_cons_of_mem _ (ih h)

/-- The fields of the register at an offset lie inside it and share no bit. -/
theorem regAt_tidy {off : Nat} {d : RegDef} {i : Nat} (h : regAt off = some (d, i)) : d.Tidy :=
  regRows_tidy off d (findReg_mem h)

/-! ### One field of a write (R9, R12) -/

/-- Is the encoding that a word gives a field not reserved, by the field and by its register (R12)? -/
def State.encodes (s : State) (off : Nat) (w : Word) (f : FieldDef) : Bool :=
  f.legal.ok ((Fld.mk off f.lsb f.width).get w) && s.legalHere off f.lsb w

/-- A field that takes the word's value, where its encoding is not reserved (R12). -/
def State.storeField (s : State) (off : Nat) (w : Word) (a : Written) (f : FieldDef) : Written :=
  if s.encodes off w f then
    { a with word := (Fld.mk off f.lsb f.width).put a.word ((Fld.mk off f.lsb f.width).get w) }
  else { a with reserved := true }

/-- The bit that a write leaves where a field's bit is `old` and the word's is `new` (R9, R12). -/
def Access.bitLeft (c : Access) (good unlocked old new : Bool) : Bool :=
  match c with
  | .ro | .wo => old
  | .rw => if good then new else old
  | .rwl => if good && unlocked then new else old
  | .w1c => old && !new

section WriteOfFields

variable {s : State} {off : Nat} {w : Word} {unlocked : Bool} {a : Written} {f : FieldDef}

theorem State.writeField_ro (hc : f.access = .ro) : s.writeField off w unlocked false a f = a := by
  simp [State.writeField, hc]

theorem State.writeField_wo (hc : f.access = .wo) : s.writeField off w unlocked false a f = a := by
  simp [State.writeField, hc]

theorem State.writeField_rw (hc : f.access = .rw) :
    s.writeField off w unlocked false a f = s.storeField off w a f := by
  simp [State.writeField, State.storeField, State.encodes, hc]

theorem State.writeField_rwl_unlocked (hc : f.access = .rwl) :
    s.writeField off w true false a f = s.storeField off w a f := by
  simp [State.writeField, State.storeField, State.encodes, hc]

/-- Under the settings lock a write of a field changes nothing but what it notes of the lock (R412). -/
theorem State.writeField_rwl_locked (hc : f.access = .rwl) :
    ∃ b, s.writeField off w false false a f = { a with locked := b } := by
  simp only [State.writeField, hc, Bool.false_eq_true, if_false]
  split
  · exact ⟨a.locked, rfl⟩
  · exact ⟨true, rfl⟩

theorem State.writeField_w1c (hc : f.access = .w1c) : s.writeField off w unlocked false a f =
    { a with word := a.word &&& ~~~((Fld.mk off f.lsb f.width).put 0 ((Fld.mk off f.lsb f.width).get w)) } := by
  simp [State.writeField, hc]

theorem State.storeField_own (hf : f.lsb + f.width ≤ 32) {j : Nat} (hj : j < f.width) :
    (s.storeField off w a f).word.getLsbD (f.lsb + j) =
      if s.encodes off w f then w.getLsbD (f.lsb + j) else a.word.getLsbD (f.lsb + j) := by
  unfold State.storeField
  split
  · exact (Fld.getLsbD_put_same ⟨off, f.lsb, f.width⟩ hf _ _ hj).trans (Fld.testBit_get ⟨off, f.lsb, f.width⟩ w hj)
  · rfl

theorem State.storeField_outside (hf : f.lsb + f.width ≤ 32) {i : Nat} (hi : i < f.lsb ∨ f.lsb + f.width ≤ i) :
    (s.storeField off w a f).word.getLsbD i = a.word.getLsbD i := by
  unfold State.storeField
  split
  · exact Fld.getLsbD_put_outside ⟨off, f.lsb, f.width⟩ hf _ _ hi
  · rfl

theorem State.storeField_reserved (h : a.reserved = true) : (s.storeField off w a f).reserved = true := by
  unfold State.storeField
  split
  · exact h
  · rfl

/-- A reserved encoding of a field that takes values is noted. -/
theorem State.storeField_notes (hg : s.encodes off w f = false) : (s.storeField off w a f).reserved = true := by
  simp [State.storeField, hg]

/-- The bits of the field itself, by its access code. -/
theorem State.writeField_own (hf : f.lsb + f.width ≤ 32) {j : Nat} (hj : j < f.width) :
    (s.writeField off w unlocked false a f).word.getLsbD (f.lsb + j) =
      f.access.bitLeft (s.encodes off w f) unlocked (a.word.getLsbD (f.lsb + j)) (w.getLsbD (f.lsb + j)) := by
  cases hc : f.access with
  | ro => rw [State.writeField_ro hc]; rfl
  | wo => rw [State.writeField_wo hc]; rfl
  | rw => rw [State.writeField_rw hc, State.storeField_own hf hj]; rfl
  | rwl =>
    cases unlocked with
    | true => rw [State.writeField_rwl_unlocked hc, State.storeField_own hf hj]; simp [Access.bitLeft]
    | false =>
      obtain ⟨b, hb⟩ := State.writeField_rwl_locked (s := s) (off := off) (w := w) (a := a) hc
      rw [hb]
      simp [Access.bitLeft]
  | w1c =>
    rw [State.writeField_w1c hc, BitVec.getLsbD_and, BitVec.getLsbD_not,
      Fld.getLsbD_put_same ⟨off, f.lsb, f.width⟩ hf _ _ hj, Fld.testBit_get ⟨off, f.lsb, f.width⟩ w hj,
      decide_eq_true (by omega), Bool.true_and]
    rfl

/-- A bit outside the field stays. -/
theorem State.writeField_outside (hf : f.lsb + f.width ≤ 32) {i : Nat} (hi : i < f.lsb ∨ f.lsb + f.width ≤ i) :
    (s.writeField off w unlocked false a f).word.getLsbD i = a.word.getLsbD i := by
  cases hc : f.access with
  | ro => rw [State.writeField_ro hc]
  | wo => rw [State.writeField_wo hc]
  | rw => rw [State.writeField_rw hc, State.storeField_outside hf hi]
  | rwl =>
    cases unlocked with
    | true => rw [State.writeField_rwl_unlocked hc, State.storeField_outside hf hi]
    | false =>
      obtain ⟨b, hb⟩ := State.writeField_rwl_locked (s := s) (off := off) (w := w) (a := a) hc
      rw [hb]
  | w1c =>
    rw [State.writeField_w1c hc, BitVec.getLsbD_and, BitVec.getLsbD_not,
      Fld.getLsbD_put_outside ⟨off, f.lsb, f.width⟩ hf _ _ hi]
    by_cases h32 : i < 32
    · simp [h32]
    · rw [BitVec.getLsbD_of_ge _ _ (by omega), Bool.false_and]

/-- What a write notes of a reserved encoding stays noted. -/
theorem State.writeField_reserved (h : a.reserved = true) :
    (s.writeField off w unlocked false a f).reserved = true := by
  cases hc : f.access with
  | ro => rw [State.writeField_ro hc, h]
  | wo => rw [State.writeField_wo hc, h]
  | rw => rw [State.writeField_rw hc, State.storeField_reserved h]
  | rwl =>
    cases unlocked with
    | true => rw [State.writeField_rwl_unlocked hc, State.storeField_reserved h]
    | false =>
      obtain ⟨b, hb⟩ := State.writeField_rwl_locked (s := s) (off := off) (w := w) (a := a) hc
      rw [hb, h]
  | w1c => rw [State.writeField_w1c hc, h]

/-! ### All fields of a write -/

theorem State.foldl_writeField_outside {fs : List FieldDef} {i : Nat}
    (hfs : ∀ f ∈ fs, f.lsb + f.width ≤ 32 ∧ (i < f.lsb ∨ f.lsb + f.width ≤ i)) :
    (fs.foldl (s.writeField off w unlocked false) a).word.getLsbD i = a.word.getLsbD i := by
  induction fs generalizing a with
  | nil => rfl
  | cons f fs ih =>
    obtain ⟨hf, hi⟩ := hfs f List.mem_cons_self
    rw [List.foldl_cons, ih (fun g hg => hfs g (List.mem_cons_of_mem _ hg)), State.writeField_outside hf hi]

theorem State.foldl_writeField_reserved (fs : List FieldDef) (h : a.reserved = true) :
    (fs.foldl (s.writeField off w unlocked false) a).reserved = true := by
  induction fs generalizing a with
  | nil => exact h
  | cons f fs ih => exact ih (State.writeField_reserved h)

/-- Where the fields of a register share no bit, a write leaves in the bits of each what its access code says, whatever
stands in the others. -/
theorem RegDef.Tidy.writeFields_bit {d : RegDef} (hd : d.Tidy) (hf : f ∈ d.fields) {j : Nat}
    (hj : j < f.width) :
    (d.fields.foldl (s.writeField off w unlocked false) a).word.getLsbD (f.lsb + j) =
      f.access.bitLeft (s.encodes off w f) unlocked (a.word.getLsbD (f.lsb + j)) (w.getLsbD (f.lsb + j)) := by
  obtain ⟨hfits, hapart⟩ := hd
  obtain ⟨before, after, he⟩ := List.append_of_mem hf
  rw [he] at hfits hapart ⊢
  obtain ⟨-, ⟨hafter, -⟩, hbefore⟩ := by simpa only [List.pairwise_append, List.pairwise_cons] using hapart
  rw [List.foldl_append, List.foldl_cons, State.foldl_writeField_outside, State.writeField_own,
    State.foldl_writeField_outside]
  · exact fun g hg => ⟨hfits g (by simp [hg]), by have := hbefore g hg f (by simp); omega⟩
  · exact hfits f (by simp)
  · exact hj
  · exact fun g hg => ⟨hfits g (by simp [hg]), by have := hafter g hg; omega⟩

/-- A reserved encoding of any field that the host writes is noted. -/
theorem State.writeFields_notes {fs : List FieldDef} (hf : f ∈ fs) (hc : f.access = .rw)
    (hg : s.encodes off w f = false) : (fs.foldl (s.writeField off w unlocked false) a).reserved = true := by
  obtain ⟨before, after, rfl⟩ := List.append_of_mem hf
  rw [List.foldl_append, List.foldl_cons]
  refine State.foldl_writeField_reserved after ?_
  rw [State.writeField_rw hc, State.storeField_notes hg]

end WriteOfFields

/-- Settles O11: the two laws of a field written, of itself and of a field apart from it. -/
theorem fieldsAreIndependent : Obligations.FieldsAreIndependent := by
  intro s f g v hwf hf
  exact ⟨State.rd_wr_same hwf f hf v, State.rd_wr_apart hwf f g hf v⟩

/-- Settles O12: the fields of a register of the table share no bit, so each bit is its own field's to change. -/
theorem writeObeysAccessCodes : Obligations.WriteObeysAccessCodes := by
  intro s off i w unlocked d f j a hreg hf hj ha good hgood
  have hgood : good = s.encodes off w f := hgood
  subst hgood ha
  refine ⟨?_, fun hc hg => State.writeFields_notes hf hc hg⟩
  rw [(regAt_tidy hreg).writeFields_bit hf hj]
  cases f.access <;> rfl

/-! ### Values after reset -/

/-- After reset every register holds the value of its row in the register table (R13). -/
theorem State.reset_rd (f : Fld) : State.reset.rd f = f.get (regReset f.off) := rfl

/-- Settles O10: each value by the row of its register. -/
theorem resetHasTheTablesValues : Obligations.ResetHasTheTablesValues := by
  unfold Obligations.ResetHasTheTablesValues State.is State.laneState State.driveState
  simp only [State.reset_rd]
  and_intros <;> decide +kernel

end Sys2Proof.Machine
end

section
/-! SUPPORT. Accesses of the host (R8): where a plain register's write and read lead, and what is an undecoded
access. -/

set_option Elab.async false

namespace Sys2Proof.Machine

open Sys2Proof

/-! ### Plain registers -/

/-- An address is a register of the array only from the array's base on and before its end. -/
theorem arrayIx_eq_none {base stride count off : Nat}
    (h : off < base ∨ (off - base) % stride ≠ 0 ∨ count ≤ (off - base) / stride) :
    arrayIx base stride count off = none := by
  unfold arrayIx
  exact if_neg (by omega)

theorem hostWrite_of_idle {s : State} {off : Nat} {w : Word} {q : Requester} {f : State → State} (hf : ∀ t, f t = t) :
    s.hostWrite off w f q = s.hostWrite off w id q := by
  rw [show f = id from funext hf]

section PlainRegister

variable {a : Nat} (h : plainReg a = true) (s : State) (q : Requester) (w : Word)
include h

/-- A plain register lies below the descriptor banks and the MSI-X table, and is not the debug command register. -/
theorem plainReg_bounds : a < 0x40000 ∧ a ≠ 0x3F05C := by
  by_cases hlt : a < 0x3F05C
  · omega
  · simp (disch := omega) only [plainReg, if_neg, decide_eq_true_eq] at h
    exact h

/-! At a plain register a window adds nothing to the write of the fields (Table 18.1, window by window). -/

theorem sysWrite_of_plain (ha : a < 0x4000) : s.sysWrite q a w = s.hostWrite a w id q := by
  simp (disch := omega) only [plainReg, if_pos] at h
  unfold State.sysWrite
  split
  case h_6 => rfl
  all_goals simp at h

theorem clkWrite_of_plain (h0 : 0x4000 ≤ a) (ha : a < 0x8000) : s.clkWrite q a w = s.hostWrite a w id q := by
  simp (disch := omega) only [plainReg, if_pos, if_neg] at h
  refine hostWrite_of_idle fun t => ?_
  split
  case h_6 => rfl
  all_goals simp at h

theorem hstWrite_of_plain (h0 : 0x8000 ≤ a) (ha : a < 0x10000) : s.hstWrite q a w = s.hostWrite a w id q := by
  simp (disch := omega) only [plainReg, if_pos, if_neg] at h
  simp only [Bool.not_eq_true', Bool.or_eq_false_iff, Bool.and_eq_false_iff, decide_eq_false_iff_not,
    List.contains_eq_mem, List.mem_cons, List.not_mem_nil, or_false] at h
  obtain ⟨⟨hindex, hring⟩, htelemetry⟩ := h
  unfold State.hstWrite
  split
  · dsimp only
    split
    case h_5 => rfl
    all_goals omega
  split
  · dsimp only
    split
    case h_4 => rfl
    all_goals omega
  · refine hostWrite_of_idle fun t => ?_
    simp [hindex]

theorem cnlWrite_of_plain (h0 : 0x10000 ≤ a) (ha : a < 0x20000) : s.cnlWrite q a w = s.hostWrite a w id q := by
  simp (disch := omega) only [plainReg, if_pos, if_neg, decide_eq_true_eq] at h
  unfold State.cnlWrite
  rw [arrayIx_eq_none (by omega)]

theorem loopWrite_of_plain (h0 : 0x20000 ≤ a) (ha : a < 0x28000) : s.loopWrite q a w = s.hostWrite a w id q := by
  simp (disch := omega) only [plainReg, if_pos, if_neg, decide_eq_true_eq] at h
  refine hostWrite_of_idle fun t => ?_
  rw [if_neg (by omega), arrayIx_eq_none (by omega)]
  rfl

theorem nrgWrite_of_plain (h0 : 0x2C000 ≤ a) (ha : a < 0x30000) : s.nrgWrite q a w = s.hostWrite a w id q := by
  simp (disch := omega) only [plainReg, if_pos, if_neg, decide_eq_true_eq] at h
  unfold State.nrgWrite
  rw [arrayIx_eq_none (by omega)]

theorem mtrWrite_of_plain (h0 : 0x30000 ≤ a) (ha : a < 0x34000) : s.mtrWrite q a w = s.hostWrite a w id q := by
  simp (disch := omega) only [plainReg, if_pos, if_neg, decide_eq_true_eq] at h
  refine hostWrite_of_idle fun t => ?_
  rw [if_neg (by omega), if_neg (by omega)]

theorem pwmWrite_of_plain (h0 : 0x34000 ≤ a) (ha : a < 0x36000) : s.pwmWrite q a w = s.hostWrite a w id q := by
  simp (disch := omega) only [plainReg, if_pos, if_neg, decide_eq_true_eq] at h
  unfold State.pwmWrite
  rw [if_neg (by omega), if_neg (by omega), if_neg (by omega), arrayIx_eq_none (by omega)]

theorem cmpWrite_of_plain (h0 : 0x36000 ≤ a) (ha : a < 0x38000) : s.cmpWrite q a w = s.hostWrite a w id q := by
  simp (disch := omega) only [plainReg, if_pos, if_neg, decide_eq_true_eq] at h
  unfold State.cmpWrite
  rw [if_neg (by omega), if_neg (by omega), if_neg (by omega), if_neg (by omega), if_neg (by omega)]

theorem tsnWrite_of_plain (h0 : 0x3A000 ≤ a) (ha : a < 0x3C000) : s.tsnWrite q a w = s.hostWrite a w id q := by
  simp (disch := omega) only [plainReg, if_pos, if_neg, decide_eq_true_eq] at h
  unfold State.tsnWrite
  refine hostWrite_of_idle fun t => ?_
  rw [if_neg (by omega), arrayIx_eq_none (by omega), arrayIx_eq_none (by omega)]

theorem fltWrite_of_plain (h0 : 0x3E000 ≤ a) (ha : a < 0x3F000) : s.fltWrite q a w = s.hostWrite a w id q := by
  simp (disch := omega) only [plainReg, if_pos, if_neg, decide_eq_true_eq] at h
  refine hostWrite_of_idle fun t => ?_
  rw [if_neg (by omega), if_neg (by omega)]

theorem plainReg_not_bank : isBank a = false := by
  have := (plainReg_bounds h).1
  simp only [isBank, Bool.and_eq_false_iff, decide_eq_false_iff_not]
  omega

theorem plainReg_not_msix : isMsix a = false := by
  have := (plainReg_bounds h).1
  simp only [isMsix, Bool.or_eq_false_iff, Bool.and_eq_false_iff, decide_eq_false_iff_not]
  omega

theorem writeLow_of_plain (ha : a < 0x2C000) : s.writeLow q a w = s.hostWrite a w id q := by
  unfold State.writeLow
  split
  · exact sysWrite_of_plain h s q w ‹_›
  split
  · exact clkWrite_of_plain h s q w (by omega) ‹_›
  split
  · exact hstWrite_of_plain h s q w (by omega) ‹_›
  split
  · exact cnlWrite_of_plain h s q w (by omega) ‹_›
  split
  · exact loopWrite_of_plain h s q w (by omega) ‹_›
  · rfl

theorem writeHigh_of_plain (ha : 0x2C000 ≤ a) : s.writeHigh q a w = s.hostWrite a w id q := by
  unfold State.writeHigh
  split
  · exact nrgWrite_of_plain h s q w ha ‹_›
  split
  · exact mtrWrite_of_plain h s q w (by omega) ‹_›
  split
  · exact pwmWrite_of_plain h s q w (by omega) ‹_›
  split
  · exact cmpWrite_of_plain h s q w (by omega) ‹_›
  split
  · rfl
  split
  · exact tsnWrite_of_plain h s q w (by omega) ‹_›
  split
  · rfl
  split
  · exact fltWrite_of_plain h s q w (by omega) ‹_›
  · rfl

/-- A write of a plain register is a write of its fields, in every block. -/
theorem writeReg_of_plain : s.writeReg q a w = s.hostWrite a w id q := by
  unfold State.writeReg
  rw [plainReg_not_bank h, plainReg_not_msix h, if_neg (by decide)]
  split
  · exact writeLow_of_plain h s q w ‹_›
  · exact writeHigh_of_plain h s q w (by omega)

/-- No capture starts with a read of a plain register (R281, R356). -/
theorem plainReg_not_captured : a ≠ 0x3A010 ∧ arrayIx 0x31000 0x20 64 a = none := by
  constructor
  · rintro rfl
    simp [plainReg] at h
  · by_cases hm : 0x31000 ≤ a ∧ a < 0x31800
    · simp (disch := omega) only [plainReg, if_pos, if_neg, decide_eq_true_eq] at h
      omega
    · exact arrayIx_eq_none (by omega)

/-- A read of a plain register that decodes returns what the register shows, and does no more. -/
theorem readReg_of_plain (hd : s.decodes a = true) :
    s.readReg byHost a = ((s.wakeLink byHost).regView a, s.wakeLink byHost) := by
  obtain ⟨hnow, hacc⟩ := plainReg_not_captured h
  simp [State.readReg, hd, plainReg_not_bank h, plainReg_not_msix h, hnow, hacc]

end PlainRegister

/-! ### Accesses of the host (R8) -/

section HostAccess

variable {s : State} (hs : s.collects = true) (a : BitVec 20) (v : BitVec 64) (e : BitVec 8)
include hs

theorem exec_write32 :
    exec (.registerWrite a v e .write32) s = .next (s.hostWord a.toNat (v.setWidth 32) e.toNat).settle :=
  finish_awake hs _

theorem exec_write64 :
    exec (.registerWrite a v e .write64) s = .next ((s.hostWord a.toNat (v.setWidth 32) e.toNat).hostWord (a.toNat + 4)
      ((v >>> 32).setWidth 32) (e.toNat / 16)).settle :=
  finish_awake hs _

theorem exec_read (n : Nat) :
    exec (.registerWrite a v e (.read n)) s = .next (s.hostReadBytes a.toNat n).settle :=
  finish_awake hs _

end HostAccess

theorem State.hostReadBytes_four (s : State) (a : Nat) : s.hostReadBytes a 4 = s.hostReadWord a := rfl

theorem State.hostReadBytes_eight (s : State) (a : Nat) :
    s.hostReadBytes a 8 = (s.hostReadWord a).hostReadWord (a + 4) := rfl

/-- A write with bytes not enabled or at an unaligned address is an undecoded access (R8). -/
theorem hostWord_of_malformed {s : State} {a : Nat} {w : Word} {enables : Nat} (h : a % 4 ≠ 0 ∨ enables % 16 ≠ 15) :
    s.hostWord a w enables = (s.wakeLink byHost).undecoded byHost a 2 := by
  unfold State.hostWord; exact if_pos h

/-- A whole write of a plain register goes to the register. -/
theorem hostWord_of_plain {s : State} {a : Nat} {w : Word} {enables : Nat} (ha : a % 4 = 0) (he : enables % 16 = 15)
    (hp : plainReg a = true) : s.hostWord a w enables = s.hostWrite a w id := by
  unfold State.hostWord
  rw [if_neg (by omega), if_neg (plainReg_bounds hp).2, writeReg_of_plain hp]

/-- A write where nothing decodes is an undecoded access (R8). -/
theorem hostWrite_of_undecoded {s : State} {off : Nat} {w : Word} {f : State → State} (hd : s.decodes off = false) :
    s.hostWrite off w f = (s.wakeLink byHost).undecoded byHost off 2 := by
  simp [State.hostWrite, hd]

/-- A read of another size, or of 4 bytes at an unaligned address, returns 0 and is an undecoded access (R8). -/
theorem hostReadBytes_of_malformed {s : State} {a n : Nat} (h : (n ≠ 4 ∧ n ≠ 8) ∨ (n = 4 ∧ a % 4 ≠ 0)) :
    s.hostReadBytes a n = ((s.wakeLink byHost).undecoded byHost a 1).emit (.readData a 0) := by
  unfold State.hostReadBytes State.hostReadWord
  rcases h with ⟨h4, h8⟩ | ⟨rfl, ha⟩
  · rw [if_neg h4, if_neg h8]
  · rw [if_pos rfl, if_neg ha]

@[simp] theorem State.wakeLink_bootDone (s : State) (q : Requester) : (s.wakeLink q).bootDone = s.bootDone := by
  unfold State.wakeLink; split <;> rfl

/-- An undecoded access is logged once boot is DONE. -/
theorem State.undecoded_of_bootDone {s : State} (h : s.bootDone = true) (r : Requester) (off access : Nat) :
    s.undecoded r off access = s.raiseWith 0x000 0 { addr := off, master := r.master, access := access } := if_pos h

theorem State.undecoded_of_booting {s : State} (h : s.bootDone = false) (r : Requester) (off access : Nat) :
    s.undecoded r off access = s := if_neg (by simp [h])

/-- A write that reaches no register: bytes not enabled, an unaligned address, or nothing that decodes. -/
theorem hostWord_of_undecoded {s : State} {a : Nat} {w : Word} {enables : Nat}
    (h : a % 4 ≠ 0 ∨ enables % 16 ≠ 15 ∨ (plainReg a = true ∧ s.decodes a = false)) :
    s.hostWord a w enables = (s.wakeLink byHost).undecoded byHost a 2 := by
  by_cases hm : a % 4 ≠ 0 ∨ enables % 16 ≠ 15
  · exact hostWord_of_malformed hm
  · rcases h with ha | he | ⟨hp, hd⟩
    · exact absurd (.inl ha) hm
    · exact absurd (.inr he) hm
    · rw [hostWord_of_plain (by omega) (by omega) hp, hostWrite_of_undecoded hd]

/-- A host write of a plain register that decodes writes its fields, and nothing else (R8). -/
theorem exec_write32_of_plain {s : State} (hs : s.collects = true) {a : BitVec 20} (v : BitVec 64) {e : BitVec 8}
    (ha : a.toNat % 4 = 0) (he : e.toNat % 16 = 15) (hp : plainReg a.toNat = true) (hd : s.decodes a.toNat = true) :
    exec (.registerWrite a v e .write32) s = .next (s.written a.toNat (v.setWidth 32)).settle := by
  rw [exec_write32 hs, hostWord_of_plain ha he hp, hostWrite_written hd, id]

/-- Settles O13: each access by the lemma on where it leads, a plain register's or an undecoded one. -/
theorem hostWritesReachRegisters : Obligations.HostWritesReachRegisters := by
  rintro s w a v e hs rfl
  refine ⟨fun ha he hp hd => exec_write32_of_plain hs v ha he hp hd, fun h => ⟨fun hb => ?_, fun hb => ?_⟩,
    exec_write64 hs a v e, fun ha hp hd => ?_, ?_, fun n h hb => ?_⟩
  · rw [exec_write32 hs, hostWord_of_undecoded h, State.undecoded_of_bootDone (by simpa using hb)]
    rfl
  · rw [exec_write32 hs, hostWord_of_undecoded h, State.undecoded_of_booting (by simpa using hb)]
  · rw [exec_read hs, State.hostReadBytes_four, State.hostReadWord, if_pos ha, State.hostRead, readReg_of_plain hp s hd]
  · rw [exec_read hs, State.hostReadBytes_eight]
  · rw [exec_read hs, hostReadBytes_of_malformed h, State.undecoded_of_bootDone (by simpa using hb)]
    rfl

end Sys2Proof.Machine
end

section
/-! SUPPORT. Frames: what an effect leaves alone that only notes something, that writes a plain register, or that clears
a drive's count, in a state from which nothing follows. -/

set_option Elab.async false

namespace Sys2Proof.Machine

open Sys2Proof

/-! ### What follows from a quiet state -/

theorem State.settleN_of_fixed {s : State} (h : s.settleOnce = s) (n : Nat) : s.settleN n = s := by
  cases n with
  | zero => rfl
  | succ n => unfold State.settleN; exact if_pos h

/-- Nothing is added to a state from which nothing follows at once. -/
theorem State.settle_of_quiet {s : State} (h : s.quiet = true) : s.settle = s :=
  State.settleN_of_fixed (of_decide_eq_true h) 80

/-! ### What an effect leaves alone -/

/-- The state that a command answers is its effect, where nothing follows from that. -/
theorem exec_eq_of_quiet {c : Instr} {s t u : State} (he : exec c s = .next u.settle) (hq : u.quiet = true)
    (ht : exec c s = .next t) : t = u := by
  rw [he, State.settle_of_quiet hq] at ht
  exact (Host.Outcome.next.inj ht).symm

/-- A state with the registers, what is sent and the queue of another. -/
def State.onlyNotes (s u : State) : Prop := u.regs = s.regs ∧ u.out = s.out ∧ u.pending = s.pending

theorem State.onlyNotes_outTimeout (s : State) (p : Nat) : s.onlyNotes (s.outTimeout p) := by
  unfold State.outTimeout; split <;> exact ⟨rfl, rfl, rfl⟩

theorem State.onlyNotes_mirrorIn (s : State) (b : Bytes) : s.onlyNotes (s.mirrorIn b) := by
  unfold State.mirrorIn; split <;> exact ⟨rfl, rfl, rfl⟩

theorem State.onlyNotes_copyIn (s : State) (b : Bytes) : s.onlyNotes (s.copyIn b) := by
  unfold State.copyIn; split <;> exact ⟨rfl, rfl, rfl⟩

theorem State.onlyNotes_wakeLink (s : State) (q : Requester) : s.onlyNotes (s.wakeLink q) := by
  unfold State.wakeLink; split <;> exact ⟨rfl, rfl, rfl⟩

theorem exec_startTExpiry {s : State} (hs : s.collects = true) (hb : s.bootDone = true) :
    exec .startTExpiry s = .next (State.settle { s with red := { s.red with startT := true } }) := by
  refine (finish_awake hs _).trans ?_
  rw [State.startExpiry, if_pos hb]

/-- What the access codes make of a field asks nothing of the link. -/
theorem State.wakeLink_writeField (s : State) (q : Requester) : (s.wakeLink q).writeField = s.writeField := by
  unfold State.wakeLink; split <;> rfl

theorem State.wakeLink_fusedBits (s : State) (q : Requester) : (s.wakeLink q).fusedBits = s.fusedBits := by
  unfold State.wakeLink; split <;> rfl

theorem State.wakeLink_locked (s : State) (q : Requester) : (s.wakeLink q).locked = s.locked := by
  unfold State.wakeLink; split <;> rfl

theorem State.wakeLink_reg (s : State) (q : Requester) (off : Nat) : (s.wakeLink q).reg off = s.reg off := by
  unfold State.reg; rw [State.wakeLink_regs]

/-- What a host write leaves in a register's fields. -/
def State.hostFields (s : State) (off : Nat) (d : RegDef) (v : Word) : Written :=
  d.fields.foldl (s.writeField off (s.fusedBits off v) (!s.locked) false) { word := s.reg off }

theorem State.wakeLink_hostFields (s : State) (q : Requester) : (s.wakeLink q).hostFields = s.hostFields := by
  funext off d v
  unfold State.hostFields
  rw [State.wakeLink_writeField, State.wakeLink_fusedBits, State.wakeLink_locked, State.wakeLink_reg]

/-- A host write that meets no reserved encoding and no lock puts the fields' word into the register, or, at a register
that is fused off, does nothing (R2). -/
theorem State.writeFields_unnoted {s : State} {off i : Nat} {d : RegDef} {v : Word} (hr : regAt off = some (d, i))
    (hres : (s.hostFields off d v).reserved = false) (hlock : (s.hostFields off d v).locked = false) :
    s.writeFields byHost off v = s ∨ s.writeFields byHost off v = s.setReg off (s.hostFields off d v).word := by
  unfold State.writeFields
  rw [hr]
  dsimp only
  split
  · exact .inl rfl
  · refine .inr ?_
    have hfold : d.fields.foldl (s.writeField off (s.fusedBits off v) (!s.locked || byHost.unlocked)
        (decide (byHost.master = 8))) { word := s.reg off } = s.hostFields off d v := by
      rw [State.hostFields, show byHost.unlocked = false from rfl, Bool.or_false,
        show decide (byHost.master = 8) = false from rfl]
    rw [hfold, hres, hlock]
    rfl

/-- Such a write leaves every other register, what is sent and the queue. -/
theorem State.written_frame {s : State} {off i : Nat} {d : RegDef} {v : Word} (hr : regAt off = some (d, i))
    (hres : (s.hostFields off d v).reserved = false) (hlock : (s.hostFields off d v).locked = false) :
    (∀ o, o ≠ off → (s.written off v).reg o = s.reg o) ∧ (s.written off v).out = s.out ∧
      (s.written off v).pending = s.pending := by
  obtain ⟨-, hout, hpend⟩ := s.onlyNotes_wakeLink byHost
  rw [← State.wakeLink_hostFields s byHost] at hres hlock
  unfold State.written
  rcases State.writeFields_unnoted hr hres hlock with he | he
  · rw [he]
    exact ⟨fun o _ => State.wakeLink_reg s byHost o, hout, hpend⟩
  · rw [he]
    exact ⟨fun o ho => (State.reg_setReg_other _ _ ho).trans (State.wakeLink_reg s byHost o), hout, hpend⟩

theorem recatchCount_fits (d : Nat) : (R.AUX_STAT_RECATCH_CNT d).fits := show 8 + 4 ≤ 32 by decide

/-- The end of a drive's stable run clears its count of failed catches (R330). -/
theorem exec_recatchReset {s : State} (hs : s.collects = true) {d : Fin 4} (hd : s.driveState d = .running) :
    exec (.recatchReset d) s = .next (State.settle ((s.advanceByTicks ((s.drive d).since + 500000000)).wr
      (R.AUX_STAT_RECATCH_CNT d) 0)) := by
  refine (finish_awake hs _).trans ?_
  rw [State.recatchReset, if_pos hd]

/-- Settles O14: each effect by its own frame, and the state answered is the effect's where that is quiet. -/
theorem restIsLeftAlone : Obligations.RestIsLeftAlone := by
  intro s t hs
  refine ⟨fun c u hc hq ht => ?_, ?_, ?_⟩
  · have hnote : exec c s = .next u.settle ∧ s.onlyNotes u := by
      rcases hc with ⟨rfl, hb, rfl⟩ | ⟨rfl, rfl⟩ | ⟨p, rfl, rfl⟩ | ⟨b, rfl, rfl⟩ | ⟨b, rfl, rfl⟩ | ⟨rfl, rfl⟩
      · exact ⟨exec_startTExpiry hs hb, rfl, rfl, rfl⟩
      · exact ⟨rfl, rfl, rfl, rfl⟩
      · exact ⟨finish_awake hs _, s.onlyNotes_outTimeout p⟩
      · exact ⟨finish_awake hs _, s.onlyNotes_mirrorIn b⟩
      · exact ⟨finish_awake hs _, s.onlyNotes_copyIn b⟩
      · exact ⟨finish_awake hs _, rfl, rfl, rfl⟩
    obtain rfl := exec_eq_of_quiet hnote.1 hq ht
    exact ⟨rfl, hnote.2⟩
  · rintro a v e d i x w u hp ha he hd hr rfl rfl hres hlock rfl hq ht
    obtain rfl := exec_eq_of_quiet (exec_write32_of_plain hs v ha he hp hd) hq ht
    exact State.written_frame hr hres hlock
  · rintro d u hd rfl hq ht
    obtain rfl := exec_eq_of_quiet (exec_recatchReset hs hd) hq ht
    refine ⟨fun hwf f hf => ?_, rfl, rfl, rfl⟩
    exact State.rd_wr_apart (s := s.advanceByTicks _) hwf _ f (recatchCount_fits d) 0 hf

end Sys2Proof.Machine
end

section
/-! SUPPORT. What the written power and clock registers start: power-state requests (R83), the commit of a period (R26),
returns from the backup clock (R71) and divider updates (R74). -/

set_option Elab.async false

namespace Sys2Proof.Machine

open Sys2Proof

/-- A command that acts while the main domains run answers what its meaning leaves, and all that follows at once. -/
theorem exec_of_awake {c : Instr} {s t : State} {f : State → State} (hc : exec c s = finish (s.awake f))
    (hs : s.collects = true) (hf : f s = t) : exec c s = .next t.settle := by
  rw [hc, finish_awake hs, hf]

/-! ### Power-state requests (R83) -/

section PowerRequest

variable {s : State} {t : Power}

theorem State.startMove_off : s.startMove .off = { s with sys := { s.sys with offAsked := true } } := if_pos rfl

/-- Out of TOWPATH a granted change starts at once (R84). -/
theorem State.startMove_of_towpath (ht : t ≠ .off) (hp : s.power = .towpath) : s.startMove t = s.exitTowpath := by
  rw [State.startMove, if_neg ht, if_pos hp]

/-- From any other state it waits for the next SAMPLE mark. -/
theorem State.startMove_of_not_towpath (ht : t ≠ .off) (hp : s.power ≠ .towpath) :
    s.startMove t = s.setMove (some (.waitMark t)) := by
  rw [State.startMove, if_neg ht, if_neg hp]

/-- With no transition in progress a request that no axis refuses starts, and LAST_STATUS shows OK. -/
theorem State.powerAsked_of_granted (hm : s.sys.move = none) (hd : s.powerDetail t true = none) :
    s.powerAsked t = ((s.startMove t).wr R.SYS_PWR_STAT_LAST_STATUS 0, vOk) := by
  have hr : s.powerRequest t = (s.startMove t, vOk) := by
    simp only [State.powerRequest, hm, Option.isNone_none, hd, if_true]
  rw [State.powerAsked, hr]
  rfl

/-- A request that an axis refuses shows in LAST_STATUS alone. -/
theorem State.powerAsked_of_refused {det : Nat} (hd : s.powerDetail t s.sys.move.isNone = some det) :
    s.powerAsked t = (s.wr R.SYS_PWR_STAT_LAST_STATUS 4, vMode det) := by
  have hr : s.powerRequest t = (s, vMode det) := by simp only [State.powerRequest, hd]
  rw [State.powerAsked, hr]
  rfl

/-- REQ of the word written names the state asked for (Table 3.18). -/
theorem State.powerReg_of_req {v : Word} {q : Requester} (ht : Power.ofReq (v.toNat % 8) = some t) :
    s.powerReg v q = (s.powerAsked t).1 := by
  rw [State.powerReg, ht]

theorem exec_sysPwrCtlReq {v : Word} (hs : s.collects = true) (hd : s.decodes 0x40 = true)
    (ht : Power.ofReq (v.toNat % 8) = some t) :
    exec (.sysPwrCtlReq v) s = .next ((s.written 0x40 v).powerAsked t).1.settle :=
  have hw : s.sysWrite byHost 0x40 v = (s.written 0x40 v).powerReg v :=
    hostWrite_written hd fun u => u.powerReg v
  exec_of_awake rfl hs (hw.trans (State.powerReg_of_req ht))

end PowerRequest

/-! ### The cycle period, returns and dividers (R26, R71, R74) -/

section CycleAndClock

variable {s : State} {v : Word}

theorem getLsbD_commit (v : Word) : (v ||| 0x80000000#32).getLsbD 31 = true := by
  rw [BitVec.getLsbD_or, show (0x80000000#32).getLsbD 31 = true from rfl, Bool.or_true]

/-- A commit that R26 does not refuse waits for its SAMPLE mark. -/
theorem State.cycleWrite_of_granted {u : State} (hd : s.decodes 0x10 = true) (hv : v.getLsbD 31 = true)
    (hu : u = s.written 0x10 v) (hr : u.cycleRefused (u.rd R.SYS_CYCLE_PERIOD) = none) :
    s.cycleWrite v = { u with sys := { u.sys with newPeriod := some (u.rd R.SYS_CYCLE_PERIOD) } } := by
  rw [State.cycleWrite, hostWrite_written hd, ← hu, if_pos hv]
  simp only [hr]

/-- A refused commit shows its code. -/
theorem State.cycleWrite_of_refused {u : State} {c : Nat} (hd : s.decodes 0x10 = true) (hv : v.getLsbD 31 = true)
    (hu : u = s.written 0x10 v) (hr : u.cycleRefused (u.rd R.SYS_CYCLE_PERIOD) = some c) :
    s.cycleWrite v = (u.wrB R.SYS_CYCLE_STAT_REFUSED true).wr R.SYS_CYCLE_STAT_REFUSE_CODE c := by
  rw [State.cycleWrite, hostWrite_written hd, ← hu, if_pos hv]
  simp only [hr]

theorem State.askReturn_of_locked {n : Nat} (hb : s.onBackup n = true) (hl : s.loopLocked n = true) :
    s.askReturn n = { s with clk := { s.clk with returning := setBit s.clk.returning n true } } := by
  simp only [State.askReturn, hb, hl, Bool.not_true, Bool.false_eq_true, if_false, if_true]

theorem State.askReturn_of_unlocked {n : Nat} (hb : s.onBackup n = true) (hl : s.loopLocked n = false) :
    s.askReturn n = s.inc R.CLK_FB_STAT_RET_REFUSED := by
  simp only [State.askReturn, hb, hl, Bool.not_true, Bool.false_eq_true, if_false]

/-- A return asked of one loop is that loop's alone. -/
theorem State.clkReturn_of_single {n : Nat} (hn : (clkLoops.filter fun n => v.getLsbD n) = [n]) :
    s.clkReturn v = s.askReturn n := by
  rw [State.clkReturn, hn]
  rfl

/-- GO with none busy freezes the staged dividers where no loop of theirs is away or stopped (R74). -/
theorem State.clkUpdate_of_running (hgo : v.getLsbD 0 = true) (hbusy : s.is R.CLK_UPDATE_BUSY = false)
    (htb : s.onBackup 1 = false) (hstop : s.clk.stopped = 0) (heth : s.onBackup 9 = false) :
    s.clkUpdate v = State.wrB { s with clk := { s.clk with
      update := some (BitVec.ofNat 8 ((s.reg 0x4020).toNat % 256)) } } R.CLK_UPDATE_BUSY true := by
  have hasked : (!v.getLsbD 0 || s.is R.CLK_UPDATE_BUSY) = false := by
    simp only [hgo, hbusy, Bool.not_true, Bool.or_false]
  have hruns {n : Nat} (hn : s.onBackup n = false) : (s.onBackup n || s.clk.stopped.getLsbD n) = false :=
    Bool.or_eq_false_iff.2 ⟨hn, hstop ▸ BitVec.getLsbD_zero⟩
  simp only [State.clkUpdate, hasked, hruns htb, hruns heth, Bool.and_false, Bool.or_false, Bool.false_eq_true, if_false]

end CycleAndClock

/-- Settles O15: each register by what it starts in the state in which the word is written. -/
theorem powerAndClockRegistersAct : Obligations.PowerAndClockRegistersAct := by
  intro s u v hs
  refine ⟨?power, ?cycle, ?back, ?dividers⟩
  case power =>
    rintro hd rfl
    refine ⟨fun t ht hm hdet => ?_, fun t det ht hdet => ?_⟩
    · rw [exec_sysPwrCtlReq hs hd ht, State.powerAsked_of_granted hm hdet]
      refine ⟨fun hoff hp => ?_, fun hoff hp => ?_, fun hoff => ?_⟩
      · rw [State.startMove_of_not_towpath hoff hp]
      · rw [State.startMove_of_towpath hoff hp]
      · rw [hoff, State.startMove_off]
    · rw [exec_sysPwrCtlReq hs hd ht, State.powerAsked_of_refused hdet]
  case cycle =>
    intro hd hu
    exact ⟨fun hr => exec_of_awake rfl hs (State.cycleWrite_of_granted hd (getLsbD_commit v) hu hr),
      fun c hr => exec_of_awake rfl hs (State.cycleWrite_of_refused hd (getLsbD_commit v) hu hr)⟩
  case back =>
    rintro hd rfl n hn hb
    have hw : s.clkWrite byHost 0x4010 v = (s.written 0x4010 v).askReturn n :=
      (hostWrite_written hd _).trans (State.clkReturn_of_single hn)
    exact ⟨fun hl => exec_of_awake rfl hs (hw.trans (State.askReturn_of_locked hb hl)),
      fun hl => exec_of_awake rfl hs (hw.trans (State.askReturn_of_unlocked hb hl))⟩
  case dividers =>
    rintro hd rfl hgo hbusy htb hstop heth
    exact exec_of_awake rfl hs
      ((hostWrite_written hd _).trans (State.clkUpdate_of_running hgo hbusy htb hstop heth))

end Sys2Proof.Machine
end

section
/-! SUPPORT. Where a command waits unchecked: behind a fenced command, at its own fence, or behind a ring that goes first
(R28, R104). -/

set_option Elab.async false

namespace Sys2Proof.Machine

open Sys2Proof

/-- A descriptor of a command ring is held, and nothing of it is checked, behind a fenced command of its ring, at its own
fence, or behind a ring that goes first. -/
theorem State.submit_of_waits {s : State} {r : RingIx} {d : Desc} (hr : r.val < 4) (hh : s.hasDesc r = true)
    (hw : (s.taken r).ringWaits r s.hst.fetchSeq = true ∨ (d.fence = true ∧ (s.taken r).fenced s.hst.fetchSeq = true) ∨
      (s.taken r).lowerWaits r = true) (op : Nat) (fmt : Format) (own : Owner) (resp : Bytes) :
    s.submit r op d fmt own resp = { s.taken r with hst := { (s.taken r).hst with
      held := (s.taken r).hst.held ++ [s.heldEntry r op d resp] } } := by
  have hevt : ¬ r.val = evtq := by unfold evtq; omega
  have hup : s.takeUp r = (s.nextIx r, s.hst.fetchSeq, s.taken r) := rfl
  rw [State.submit, if_neg (by simp only [hevt, hh, decide_false, Bool.not_true, Bool.or_false, Bool.false_eq_true,
    not_false_eq_true]), hup]
  dsimp only
  rw [if_neg (by omega), if_pos (by simpa only [Bool.or_eq_true, Bool.and_eq_true, or_assoc] using hw)]
  rfl

/-- Settles O23: a command that comes up where one of the three holds it is kept as it was fetched. -/
theorem fenceHoldsACommand : Obligations.FenceHoldsACommand := by
  intro c s op r d resp hc hs hr hh hw
  exact exec_of_awake (ring_exec hc rfl s) hs (State.submit_of_waits hr hh hw _ _ _ _)

end Sys2Proof.Machine
end

section
/-! SUPPORT. What each mark and window of a cycle does where it is due (Table 1.2). -/

set_option Elab.async false

namespace Sys2Proof.Machine

open Sys2Proof

/-! ### SAMPLE mark (R17, R23) -/

/-- The next SAMPLE mark comes after the last. -/
theorem State.lt_toMark_k (s : State) : s.sys.k < s.toMark.sys.k := Nat.le_max_left _ _

/-- The cycle number shown is that of the mark, modulo its field (R17). -/
theorem State.toMark_cycleNum {s : State} (hwf : s.regsWf = true) :
    s.toMark.rd R.SYS_CYCLE_STAT_CYCLE_NUM = s.toMark.sys.k % 65536 := by
  have hfits : R.SYS_CYCLE_STAT_CYCLE_NUM.fits := show 16 + 16 ≤ 32 by decide
  refine (State.rd_wr_same ?_ _ hfits _).trans (Nat.mod_mod _ 65536)
  exact hwf

/-- In the power states in which marks run a SAMPLE mark does what is due at it; where the power state that it brings
runs none, no more than that change. -/
theorem State.sampleMark_of_marksRun {s v : State} (hm : s.marksRun = true) (xs : List MarkSample)
    (hv : v = ((s.markFirst.takeMetered.markCommands.closeWindows).markValues xs).markBasin) :
    s.sampleMark xs = if s.markFirst.marksRun then ((each v.poundList State.steer v).frameAtMark
      (decide (s.power ≠ .run) && decide (v.power = .run))).attestAtMark.syncOut else s.markFirst := by
  subst hv
  rw [State.sampleMark, if_neg (by simp only [hm, Bool.not_true, Bool.false_eq_true, not_false_eq_true])]
  cases hf : s.markFirst.marksRun <;>
    simp only [hf, Bool.not_true, Bool.not_false, Bool.false_eq_true, if_true, if_false]

/-! ### Compute window (R24, R202, R223, R250) -/

section Cycle

variable {s : State}

/-- The compute window opens once in a cycle, and not after its downlink: at the end of the longest uplink. -/
theorem State.computeOpen_of_first {t u v : State} {m : Option Nat} {flagged : Bool} (hm : s.marksRun = true)
    (hopen : s.sys.windowOpen = false) (hsent : s.sys.downlinkSent = false) (happ : s.sys.applied = false)
    (ht : t = s.advanceTo (s.markTime s.sys.k + 1000 + s.windowLen rateU))
    (hu : u = (State.judgeMisses { t with sys := { t.sys with
      windowOpen := true } }).failCells.writeLegSums.updateLedger.energyAtMark.runForward.judgeCopy)
    (hv : v = if u.engineRuns then u.engineWindow m flagged else u) :
    s.computeOpen m flagged = if v.engineRuns && !v.sys.overrun then v else v.capCheck := by
  rw [State.computeOpen, if_neg (by simp only [hm, hopen, hsent, happ,
    Bool.not_true, Bool.or_false, Bool.false_eq_true, not_false_eq_true]), hv, hu, ht]

section Schedule

variable (hrun : s.engineRuns = true) (hopen : s.sys.windowOpen = true) (hdone : s.sys.scheduleDone = false)
  (hover : s.sys.overrun = false) (hsent : s.sys.downlinkSent = false)
include hrun hopen hdone hover hsent

/-- A schedule that ends in its window forms the commands of the cycle. -/
theorem State.scheduleDone_of_open : s.scheduleDone = (State.runInverse { s with sys := { s.sys with
    scheduleDone := true } }).formCommands.capCheck.sendCopy := by
  rw [State.scheduleDone, if_neg (by simp only [hrun, hopen, hdone, hover, hsent,
    Bool.not_true, Bool.or_false, Bool.false_eq_true, not_false_eq_true])]

/-- A window that ends before its schedule is an overrun. -/
theorem State.overrun_of_open : s.overrun = (State.inc { s with sys := { s.sys with overrun := true } }
    R.SYS_CYCLE_OVR_COUNT).raise 0x003 0 := by
  rw [State.overrun, if_neg (by simp only [hrun, hopen, hdone, hover, hsent,
    Bool.not_true, Bool.or_false, Bool.false_eq_true, not_false_eq_true])]

end Schedule

/-! ### Downlink, service and APPLY (R18, R19, R167, R169) -/

/-- Marks run in RUN and HOLD only (R22). -/
theorem State.power_of_marksRun (hm : s.marksRun = true) : s.power = .run ∨ s.power = .hold := by
  simpa only [State.marksRun, Bool.or_eq_true, decide_eq_true_eq] using hm

/-- The downlink windows start once in a cycle, after its compute window. -/
theorem State.downlinkStart_of_open (hm : s.marksRun = true) (hopen : s.sys.windowOpen = true)
    (hsent : s.sys.downlinkSent = false) (happ : s.sys.applied = false) :
    s.downlinkStart =
      (s.overrun.stageSlots.advanceTo (s.markTime (s.sys.k + 1) - 450 - s.windowLen rateD)).downlink := by
  rw [State.downlinkStart, if_neg (by simp only [hm, hopen, hsent, happ,
    Bool.not_true, Bool.or_false, Bool.false_eq_true, not_false_eq_true])]

/-- The downlink goes out once in a cycle, by the seat whose gate is open; each seat notes what the cells are given. -/
theorem State.downlink_of_first {u v : State} (hm : s.marksRun = true) (hsent : s.sys.downlinkSent = false)
    (hu : u = { s with sys := { s.sys with downlinkSent := true } })
    (hv : v = each (u.poundList.filter fun p => u.sendsNow p && (u.gateOpen || u.is R.RED_PARTNER_LINE))
      State.noteDownlink u) :
    s.downlink = if v.gateOpen then each (v.poundList.filter v.sendsNow) State.downlinkPound v else v := by
  have hlive : ¬ ((s.power ≠ .run && s.power ≠ .hold) || s.sys.downlinkSent) = true := by
    rcases State.power_of_marksRun hm with hp | hp <;> simp only [hp, hsent, ne_eq, reduceCtorEq, not_true_eq_false,
      not_false_eq_true, decide_true, decide_false, Bool.and_false, Bool.false_and, Bool.or_false, Bool.false_eq_true]
  rw [State.downlink, if_neg hlive, hv, hu]

/-- A service window opens on every end while marks run. -/
theorem State.serviceWindow_of_marksRun {u : State} (hm : s.marksRun = true)
    (hu : u = if s.poundList.all fun p => s.isOut p then s
      else s.advanceTo ((s.plantNs : Int) + ((s.poundList.map s.windowWait).foldl max 0 : Nat))) :
    s.serviceWindow = each (u.poundList.flatMap fun p => [2 * p, 2 * p + 1]) State.serviceEnd u := by
  subst hu
  exact if_pos hm

/-- The APPLY mark comes once in a cycle, after its downlink; a good cycle refreshes the keeper (R363). -/
theorem State.applyMark_of_sent {u v : State} (hm : s.marksRun = true) (hsent : s.sys.downlinkSent = true)
    (happ : s.sys.applied = false) (hu : u = s.advanceTo (s.markTime (s.sys.k + 1) - 200))
    (hv : v = each [0, 1, 2] State.redistDone (State.pwmApply { u with sys := { u.sys with applied := true } })) :
    s.applyMark = State.beat (if v.goodCycle then
      { v with red := { v.red with refreshedAt := v.tsn.local_ } } else v) := by
  rw [State.applyMark, if_neg (by simp only [hm, hsent, happ,
    Bool.not_true, Bool.or_false, Bool.false_eq_true, not_false_eq_true]), hv, hu]

end Cycle

/-- Settles O44: each mark and window by what it does where it is due. -/
theorem cycleFollowsItsMarks : Obligations.CycleFollowsItsMarks := by
  intro s hs hm
  refine ⟨?sample, ?count, ?compute, ?schedule, ?start, ?downlink, fun _ _ _ _ hl he hw => ?pound, ?service, ?apply⟩
  case sample =>
    rintro xs u v rfl hv
    exact exec_of_awake rfl hs (State.sampleMark_of_marksRun hm xs hv)
  case count =>
    rintro u rfl
    exact ⟨s.lt_toMark_k, State.toMark_cycleNum, rfl, rfl, rfl, rfl⟩
  case compute =>
    intro m flagged t u v hopen hsent happ ht hu hv
    exact exec_of_awake rfl hs (State.computeOpen_of_first hm hopen hsent happ ht hu hv)
  case schedule =>
    intro hrun hopen hdone hover hsent
    exact ⟨exec_of_awake rfl hs (State.scheduleDone_of_open hrun hopen hdone hover hsent),
      exec_of_awake rfl hs (State.overrun_of_open hrun hopen hdone hover hsent)⟩
  case start =>
    rintro u hopen hsent happ rfl
    exact exec_of_awake rfl hs (State.downlinkStart_of_open hm hopen hsent happ)
  case downlink =>
    intro u v hsent hu hv
    exact State.downlink_of_first hm hsent hu hv
  case pound =>
    rw [hl, he, hw]
    rfl
  case service =>
    intro u hu
    exact exec_of_awake rfl hs (State.serviceWindow_of_marksRun hm hu)
  case apply =>
    intro u v hsent happ hu hv
    exact exec_of_awake rfl hs (State.applyMark_of_sent hm hsent happ hu hv)

end Sys2Proof.Machine
end

section
/-! SUPPORT. How every command runs: its row's effect where it acts, nothing where the main domains are held in reset;
the outputs of a part held in reset. -/

set_option Elab.async false

namespace Sys2Proof.Machine

open Sys2Proof

/-! ### The effect of each command -/

/-- The meaning of every row is its effect, which for all but what stays powered waits for the main domains to run. -/
theorem exec_eq_finish (c : Instr) (s : State) :
    exec c s = finish (bif actsInReset c then s.effect c else s.awake fun t => t.effect c) := by
  cases c <;> rfl

theorem exec_of_actsInReset {c : Instr} (hc : actsInReset c = true) (s : State) :
    exec c s = .next (s.effect c).settle := by
  rw [exec_eq_finish, hc]
  rfl

theorem exec_of_waits {c : Instr} (hc : actsInReset c = false) (s : State) :
    exec c s = finish (s.awake fun t => t.effect c) := by
  rw [exec_eq_finish, hc]
  rfl

theorem exec_of_collects {s : State} (hs : s.collects = true) (c : Instr) : exec c s = .next (s.effect c).settle := by
  cases hc : actsInReset c with
  | true => exact exec_of_actsInReset hc s
  | false => rw [exec_of_waits hc, finish_awake hs]

/-- Settles O5: a row acts because the main domains run, or because it is of what stays powered. -/
theorem everyCommandHasItsEffect : Obligations.EveryCommandHasItsEffect := by
  rintro c s (hs | hc)
  · exact exec_of_collects hs c
  · exact exec_of_actsInReset hc s

/-- A command that acts answers its effect, and what follows from it. -/
theorem exec_of_effect {c : Instr} {s t : State} (hc : s.collects = true ∨ actsInReset c = true) (ht : s.effect c = t) :
    exec c s = .next t.settle :=
  ht ▸ everyCommandHasItsEffect c s hc

/-! ### Held in reset -/

section Asleep

variable {s : State} (hs : s.collects = false)
include hs

/-- Nothing follows at once while the main domains are held in reset. -/
theorem State.settleOnce_of_asleep : s.settleOnce = s := by
  unfold State.settleOnce
  exact if_pos (by rw [hs]; rfl)

theorem State.settle_of_asleep : s.settle = s := State.settleN_of_fixed (State.settleOnce_of_asleep hs) 80

theorem exec_of_asleep {c : Instr} (hc : actsInReset c = false) : exec c s = .next s := by
  rw [exec_of_waits hc, finish_asleep hs, State.settle_of_asleep hs]

theorem State.boot_of_asleep : s.sys.boot = .off ∨ s.sys.boot = .reset := by
  have hb : (decide (s.sys.boot = .off) || decide (s.sys.boot = .reset)) = true := by
    simpa only [State.collects, Bool.not_eq_false'] using hs
  exact ((Bool.or_eq_true _ _).mp hb).imp of_decide_eq_true of_decide_eq_true

/-- Both reset and OFF stand in the first column of Table 2.4. -/
theorem State.pinColumn_of_asleep : s.pinColumn = .held := by
  unfold State.pinColumn
  rcases State.boot_of_asleep hs with h | h <;> rw [h]

theorem State.qspi_of_asleep : s.qspi = .off := by
  unfold State.qspi
  rw [State.pinColumn_of_asleep hs]

end Asleep

/-- Without boundary scan a ball presents what the part drives. -/
theorem State.ball_of_unscanned {s : State} (h : s.sec.scan = false) (x : PinLevel) : s.ball x = x := by
  unfold State.ball
  rw [h]
  rfl

/-- Every output in the column of reset and OFF (Tables 2.4 and 2.4a). -/
theorem State.outputs_of_asleep {s : State} (hs : s.collects = false) (hn : s.sec.scan = false) :
    s.claimN = .released ∧ s.safeN = .hiZPd ∧ s.readyPin = .hiZPd ∧ s.optPwrEn = .hiZPd ∧ s.syncPin = .hiZPd ∧
      s.bsClk = .hiZPd ∧ s.qspiCs = s.pulledUp 3 ∧ s.qspiBus = .hiZPd ∧ (∀ n, s.laneTx n = .electricalIdle) ∧
      (∀ p, s.tpTx p = .hiZPd) ∧ (∀ p, s.ethTxdis p = s.pulledUp 4) ∧ (∀ b, s.tdo b = .hiZ) := by
  simp [State.claimN, State.safeN, State.readyPin, State.optPwrEn, State.syncPin, State.bsClk, State.qspiCs,
    State.qspiBus, State.laneTx, State.tpTx, State.ethTxdis, State.tdo, State.ball_of_unscanned hn,
    State.pinColumn_of_asleep hs, State.qspi_of_asleep hs]

/-- In SAFE no column of Table 2.4 drives `SAFE_N` (R40). -/
theorem State.safeN_of_safe {s : State} (hs : s.isSafe = true) (hn : s.sec.scan = false) : s.safeN = .hiZPd := by
  unfold State.safeN
  rw [State.ball_of_unscanned hn]
  cases s.pinColumn <;> simp [hs]

/-- In SAFE no column of Table 2.4 drives `READY` (R40). -/
theorem State.readyPin_of_safe {s : State} (hs : s.isSafe = true) (hn : s.sec.scan = false) : s.readyPin = .hiZPd := by
  unfold State.readyPin
  rw [State.ball_of_unscanned hn]
  cases s.pinColumn <;> simp [hs]

/-- Settles O9: what waits for the main domains leaves the state, and each output is that of its column. -/
theorem resetHoldsTheMainDomains : Obligations.ResetHoldsTheMainDomains := by
  refine ⟨fun c s hs hc => exec_of_asleep hs hc, fun s hs hn => ?_,
    fun s hs hn => ⟨State.safeN_of_safe hs hn, State.readyPin_of_safe hs hn⟩⟩
  obtain ⟨hclaim, hsafe, hready, hopt, hsync, hbs, hcs, hbus, hlane, htp, heth, htdo⟩ := State.outputs_of_asleep hs hn
  exact ⟨hclaim, hsafe, hready, hopt, hsync, hbs, hcs, hbus, hlane, htp, heth, htdo, fun _ => rfl⟩

end Sys2Proof.Machine
end

section
/-! SUPPORT. What every command keeps: the joint law of the effects of all rows (Laws/Keeps.lean), and the local counter
that never goes back. -/

set_option Elab.async false

namespace Sys2Proof.Machine

open Sys2Proof

/-- The effect of every command but those that start the always-on domain anew keeps the queue, the canonical form, the
local counter, the free values and what has been sent. -/
theorem Keeps.effect {b₀ s : State} (hG : Keeps b₀ s) : ∀ c : Instr, startsAnew c = false → Keeps b₀ (s.effect c)
  | .heartbeat .., _ => hG.submit (hown := fun c _ h => h.ownHeartbeat c) ..
  | .powerState .., _ => hG.submit (hown := fun c _ h => h.ownPower c) ..
  | .hostResume .., _ => hG.submit (hown := fun c _ h => h.ownResume c) ..
  | .gridMode .., _ => hG.submit (hown := fun c _ h => h.ownGrid _ c) ..
  | .energyDir .., _ => hG.submit (hown := fun c _ h => h.ownDir c) ..
  | .setpoint .., _ => hG.submit (hown := fun c _ h => h.ownSetpoint _ c) ..
  | .stringSetpoint .., _ => hG.submit (hown := fun c _ h => h.ownString _ c) ..
  | .bankCommit .., _ => hG.submit (hown := fun c _ h => h.ownCommit c) ..
  | .poundEnable .., _ => hG.submit (hown := fun c _ h => h.ownPoundEnable _ c) ..
  | .poundDisable .., _ => hG.submit (hown := fun c _ h => h.ownPoundDisable c) ..
  | .cellBypass .., _ => hG.submit (hown := fun c _ h => h.ownBypass _ c) ..
  | .cellService .., _ => hG.submit (hown := fun c _ h => h.ownService c) ..
  | .sluice .., _ => hG.submit (hown := fun c _ h => h.ownSluice c) ..
  | .energyRecord .., _ => hG.submit (hown := fun c _ h => h.ownRecord c) ..
  | .auxRun .., _ => hG.submit (hown := fun c _ h => h.ownAuxRun c) ..
  | .auxStop .., _ => hG.submit (hown := fun c _ h => h.ownAuxStop c) ..
  | .faultClear .., _ => hG.submit (hown := fun c _ h => h.ownClear c) ..
  | .roleSwap .., _ => hG.submit (hown := fun c _ h => h.ownSwap c) ..
  | .attest .., _ => hG.submit (hown := fun c _ h => h.ownAttest c) ..
  | .debugUnlock .., _ => hG.submit (hown := fun c _ h => h.ownUnlock _ c) ..
  | .frameTx .., _ => hG.postTransmit ..
  | .rxBuffer .., _ => hG.postReceive ..
  | .tlmBuffer .., _ => hG.postTelemetry ..
  | .deferTimeout .., _ => hG.deferTimeout ..
  | .ringDoorbell _ v, _ => by
    rw [State.effect]
    split
    · exact hG.wakeLink ..
    · exact hG.doorbellWrite ..
  | .eventRingConsumerWrite .., _ => hG.doorbellWrite ..
  | .ringDisable .., _ => hG.ringCtl ..
  | .ringQuiesced .., _ => hG.ringQuiesced ..
  | .ringEnable .., _ => hG.ringCtl ..
  | .ringError .., _ => hG.dmaError ..
  | .msixHoldoffExpiry .., _ => hG.holdoff ..
  | .msixUnmask .., _ => hG.unmask ..
  | .eventRecordWrite, _ => hG.flushHost
  | .tlmEnable .., _ => hG.tlmCtl ..
  | .telemetryBlockWrite .., _ => hG.blockWrite ..
  | .perst, _ => hG.perst
  | .functionLevelReset, _ => hG.flr
  | .busMasterEnableClear, _ => hG.bmeClear
  | .watchWarn, _ => hG.watchWarn
  | .watchExpired, _ => hG.watchExpired
  | .planRampEnd, _ => hG.planRampEnd
  | .registerWrite _ _ _ (.read _), _ => hG.hostReadBytes ..
  | .registerWrite _ _ _ .write32, _ | .registerWrite _ _ _ .write64, _ => by rw [State.effect]; exact hG.hostAccess ..
  | .sysPwrCtlReq .., _ => by rw [State.effect]; exact hG.sysWrite ..
  | .cycleCommit .., _ => hG.cycleWrite ..
  | .sysRst .., _ => by rw [State.effect]; exact hG.sysWrite ..
  | .blkRst .., _ => hG.hostWrite (heff := fun _ h => h.rstWrite ..) ..
  | .sysOverlayWrite .., _ => hG.overlayWrite ..
  | .clkReturn .., _ | .clkUpdate .., _ => hG.clkWrite ..
  | .loopVerifyGo, _ => hG.loopWrite ..
  | .bankVerified, _ => hG.verified
  | .bankDescriptorWrite .., _ => hG.writeReg ..
  | .pwmLoad .., _ => hG.pwmWrite ..
  | .pwmGrpEnable .., _ => hG.pwmGroupWrite ..
  | .pwmStagedWrite .., _ => hG.stagedWrite ..
  | .cmpRearm .., _ => hG.cmpWrite ..
  | .cmpLatchReleaseWrite .., _ => hG.latchStat ..
  | .mtrDiagGo .., _ => hG.mtrWrite ..
  | .diagDone .., _ => hG.diagDone ..
  | .mtrTrkClear .., _ => hG.mtrWrite ..
  | .soeSet .., _ => hG.soeWrite ..
  | .laneRestart .., _ => hG.laneCtl ..
  | .stepReq .., _ => hG.tsnWrite ..
  | .fltRearm .., _ | .fltLogIdxWrite .., _ => hG.fltWrite ..
  | .tsnNowCapture, _ | .accumulatorCapture .., _ => hG.hostRead ..
  | .secDbgGoRead, _ | .secDbgGoWrite, _ => hG.dbgCmd ..
  | .leHalt .., _ => hG.leHalt ..
  | .leStep .., _ => hG.leStep ..
  | .leHaltEnd, _ => hG.judgeHalt
  | .jtagBoundaryScan, _ => hG.boundaryScan
  | .testLogicReset, _ => hG.testReset
  | .supplyMonitorTrip .., _ => hG.monitorTrip ..
  | .mainResetRelease, _ => hG.mainRelease
  | .dieTemperatureHigh .., _ | .dieTemperatureLimit .., _ => hG.hotDie ..
  | .bootStart, _ => hG.bootStart
  | .sramInitDone .., _ => hG.sramDone ..
  | .settingsLoaded .., _ => hG.settingsLoaded ..
  | .bootDone, _ => hG.bootDone_
  | .bootFail, _ => hG.bootTimeout
  | .bandSearchDone .., _ => hG.searchDone ..
  | .bandSearchFailed .., _ => hG.searchFailed ..
  | .referenceLost .., _ => hG.refFails ..
  | .referenceQualified .., _ => hG.refQualifies ..
  | .slewComplete, _ => hG.slewComplete
  | .backupClockLost, _ => hG.backupLost
  | .pllLockLost .., _ => hG.lockLost ..
  | .syncInPulse .., _ => hG.syncIn ..
  | .sampleMark .., _ => hG.sampleMark ..
  | .computeWindowOpen .., _ => hG.computeOpen ..
  | .loopScheduleDone, _ => hG.scheduleDone
  | .cycleOverrun, _ => hG.overrun
  | .downlinkWindowStart, _ => hG.downlinkStart
  | .serviceWindowOpen, _ => hG.serviceWindow
  | .applyMark, _ => hG.applyMark
  | .stateBargeReceived .., _ | .faultBargeReceived .., _ | .serviceRspReceived .., _ => hG.received ..
  | .serviceReqTimeout .., _ => hG.serviceTimeout ..
  | .relayReceived .., _ => hG.relayed ..
  | .delayMeasurement .., _ => hG.delayMeasured ..
  | .laneAligned .., _ => hG.laneAligned ..
  | .laneAbsent .., _ => hG.laneAbsent ..
  | .backoffExpiry .., _ => hG.backoffEnd ..
  | .helloReceived .., _ => hG.helloReceived ..
  | .reportReceived .., _ => hG.reportReceived ..
  | .reachSettled .., _ => hG.reachSettled ..
  | .enumRetry .., _ => hG.enumRetry ..
  | .stepIssue .., _ => hG.stepIssue ..
  | .stepTime .., _ => hG.stepTime ..
  | .eqReqReceived .., _ => hG.eqReqReceived ..
  | .eqRspReceived .., _ => hG.eqRspReceived ..
  | .confirm .., _ => hG.confirm ..
  | .stepRevert .., _ => hG.stepRevert ..
  | .hopRejoin .., _ => hG.hopRejoin ..
  | .laneLost .., _ => hG.laneLost ..
  | .towpathKeepaliveSend, _ => hG.keepAliveSend
  | .towpathFrameReceived .., _ => hG.towpathFrame ..
  | .towpathLost .., _ => hG.towpathLost ..
  | .prechargeTimeout .., _ => hG.prechargeTimeout ..
  | .stoppingEnd .., _ => hG.stoppingEnd ..
  | .bypassTimeout .., _ => hG.bypassTimeout ..
  | .rejoinTimeout .., _ => hG.rejoinTimeout ..
  | .outTimeout .., _ => hG.outTimeout ..
  | .shutdownRampEnd, _ => hG.shutdownEnd
  | .sluiceCellTimeout .., _ => hG.sluiceCellTimeout ..
  | .recordReady .., _ => hG.recordReady ..
  | .attestReady .., _ => hG.attestReady ..
  | .fineResult .., _ => hG.fineResult ..
  | .inputState .., _ => hG.inputState ..
  | .calSliceStep .., _ => hG.calStep ..
  | .pwmPeriodBoundary .., _ => hG.pwmWrap ..
  | .tripInAsserted .., _ => hG.tripPin ..
  | .comparatorAsserted .., _ => hG.cmpChange ..
  | .comparatorResolved .., _ => hG.cmpResolve ..
  | .auxFaultIn .., _ => hG.auxFaultIn ..
  | .auxDecision .., _ => hG.auxDecision ..
  | .auxProbeSet .., _ => hG.probeSet ..
  | .auxAlignDone .., _ => hG.alignDone ..
  | .auxCoastEnd .., _ => hG.coastEnd ..
  | .recatchReset .., _ => hG.recatchReset ..
  | .portDown .., _ => hG.portDown ..
  | .portUp .., _ => hG.portUp ..
  | .ethernetFrameReceived .., _ => hG.frameIn ..
  | .ptpMessageReceived .., _ => hG.ptp ..
  | .announceTimeout .., _ => hG.masterLost ..
  | .holdoverTimeout .., _ => hG.holdoverEnd ..
  | .revertTimer, _ => hG.revert
  | .slewDone, _ => hG.slewDone
  | .frameLaunch .., _ => by rw [State.effect]; exact hG.launch ..
  | .partnerClaimAsserted, _ => hG.partnerAsserted
  | .claimAssert, _ => hG.claimAssert
  | .gateOpen, _ => hG.gateOpens
  | .claimContestedTimeout, _ => hG.contestedTimeout
  | .claimKeeperExpired, _ => hG.keeperExpired
  | .startTExpiry, _ => hG.startExpiry
  | .heartbeatReceived .., _ => hG.heartbeatIn ..
  | .noticeReceived .., _ => hG.noticeIn ..
  | .mirrorReceived .., _ => hG.mirrorIn ..
  | .healthReceived .., _ => hG.healthIn ..
  | .roleSwapRun, _ => hG.swapRun
  | .roleSwapDone, _ => hG.swapDone
  | .faultSourceAsserted .., _ => hG.sourceSeen ..
  | .faultSignalPairBroken .., _ => hG.pairBroken ..
  | .faultCollectorIntegrity, _ => hG.integrity
  | .shadowEnd .., _ => hG.shadowEnd ..
  | .powerTransitionDone, _ => hG.transitionDone
  | .towpathEntryHoldDone, _ => hG.towpathSteps
  | .pcieLinkDown, _ => hG.linkDown
  | .pcieLinkUp, _ => hG.linkUps
  | .d3hotEntry, _ => hG.d3hot
  | .d0Return, _ => hG.d0
  | .busMasterEnableSet, _ => hG.bmeSet
  | .perstRelease, _ => hG.perstRelease
  | .stepReceived .., _ => hG.stepReceived ..
  | .confirmReceived .., _ => hG.confirmReceived ..
  | .delayReqReceived .., _ => hG.delayReq ..
  | .copyReceived .., _ => hG.copyIn ..
  | .partnerClaimDeasserted, _ => hG.partnerDeasserted
  | .jtagImageReceived .., _ => hG.jtagImage ..
  | .jtagDbgUnlock .., _ => hG.jtagUnlock ..
  | .jtagDbgAccess .., _ => hG.jtagAccess ..
  | .captureWindowEnd, _ => hG.captureWindowEnd
  | .ptpDelayReqSend .., _ => hG.delaySend ..
  | .fastPathResult .., _ => hG.fastResult ..
  | .bootReferenceFound .., _ => hG.refFound ..
  | .powerOnReset .., h | .aonFeedLost .., h => nomatch h

/-- A command that has run either acted, or found the main domains held in reset. -/
theorem exec_cases {c : Instr} {s t : State} (h : exec c s = .next t) : t = (s.effect c).settle ∨ t = s.settle := by
  cases hc : actsInReset c with
  | true =>
    rw [exec_of_actsInReset hc] at h
    exact .inl (Host.Outcome.next.inj h).symm
  | false =>
    cases hs : s.collects with
    | true =>
      rw [exec_of_collects hs] at h
      exact .inl (Host.Outcome.next.inj h).symm
    | false =>
      rw [exec_of_waits hc, finish_asleep hs] at h
      exact .inr (Host.Outcome.next.inj h).symm

/-- What every command keeps that does not start the always-on domain anew. -/
theorem Keeps.of_exec {c : Instr} {s t : State} (hc : startsAnew c = false) (h : exec c s = .next t) : Keeps s t := by
  rcases exec_cases h with rfl | rfl
  · exact ((Keeps.refl s).effect c hc).settle
  · exact (Keeps.refl s).settle

/-- Settles O8: the effect of every other command keeps the local counter, and so does what follows from it. -/
theorem localCounterNeverGoesBack : Obligations.LocalCounterNeverGoesBack :=
  fun _ _ _ hc h => (Keeps.of_exec hc h).clock

end Sys2Proof.Machine
end

section
/-! SUPPORT. What a power-on reset leaves in each register, and what supplies and the die's temperature do (R44, R50,
R51, R53). -/

set_option Elab.async false

namespace Sys2Proof.Machine

open Sys2Proof

/-! ### Registers after a power-on reset -/

/-- A key that no entry lists reads as the default. -/
theorem SMap.get_of_unlisted {α : Type} (d : Nat → α) {m : List (Nat × α)} {i : Nat} (h : ∀ p ∈ m, p.1 ≠ i) :
    SMap.get d m i = d i := by
  induction m with
  | nil => rfl
  | cons p t ih =>
    obtain ⟨hp, ht⟩ := List.forall_mem_cons.1 h
    unfold SMap.get
    rw [if_neg hp, ih ht]

theorem State.reg_wr_other (s : State) (f : Fld) (v : Nat) {o : Nat} (h : o ≠ f.off) : (s.wr f v).reg o = s.reg o :=
  State.reg_setReg_other s _ h

theorem State.reg_wrB_other (s : State) (f : Fld) (b : Bool) {o : Nat} (h : o ≠ f.off) : (s.wrB f b).reg o = s.reg o :=
  State.reg_wr_other s f _ h

theorem State.reg_sec (s : State) (x : SecSt) (o : Nat) : State.reg { s with sec := x } o = s.reg o := rfl

/-- What shows the fuses lies in three registers of `SEC_`. -/
theorem State.reg_showFuses (s : State) {o : Nat} (h : o < 0x3F000 ∨ 0x3F00C < o) : s.showFuses.reg o = s.reg o := by
  have h0 : o ≠ 0x3F000 := by omega
  have h8 : o ≠ 0x3F008 := by omega
  have hC : o ≠ 0x3F00C := by omega
  unfold State.showFuses
  rw [State.reg_wr_other _ _ _ h8, State.reg_wrB_other _ _ _ hC, State.reg_wr_other _ _ _ hC,
    State.reg_wr_other _ _ _ hC, State.reg_wr_other _ _ _ h0]

theorem grantFld_off (i : Nat) : (grantFld i).off = 0x3F040 := by unfold grantFld; split <;> rfl

theorem nowFld_off (i : Nat) : (nowFld i).off = 0x3F040 := by unfold nowFld; split <;> rfl

/-- The levels after reset are shown in `SEC_DBG_STAT` alone. -/
theorem State.reg_resetLevels (s : State) {o : Nat} (h : o ≠ 0x3F040) : s.resetLevels.reg o = s.reg o := by
  have hg (i : Nat) : o ≠ (grantFld i).off := by rwa [grantFld_off]
  have hn (i : Nat) : o ≠ (nowFld i).off := by rwa [nowFld_off]
  have hd : o ≠ R.SEC_DBG_STAT_DEFAULT.off := h
  unfold State.resetLevels
  simp only [each, List.foldl_cons, List.foldl_nil]
  rw [State.reg_sec, State.reg_wr_other _ _ _ (hn 1), State.reg_wr_other _ _ _ (hg 1), State.reg_wr_other _ _ _ (hn 0),
    State.reg_wr_other _ _ _ (hg 0), State.reg_wr_other _ _ _ hd]

/-- Outside what shows fuses and debug levels, a power-on reset leaves what the straps and the partner's line give. -/
theorem State.reg_powerOn (s : State) (straps : BitVec 3) (feeds : BitVec 2) {o : Nat} (hp : o ≠ 0x3C008)
    (hf : o < 0x3F000 ∨ 0x3F040 < o) : (s.powerOn straps feeds).reg o =
      SMap.get regReset (SMap.put regReset (s.regs.filter fun p => p.1 = 0) 0x20 (straps.setWidth 32)) o := by
  unfold State.powerOn
  dsimp only
  rw [State.reg_resetLevels _ (by omega), State.reg_showFuses _ (by omega), State.reg_wrB_other _ _ _ hp]
  rfl

theorem State.reg_powerOn_reset (s : State) (straps : BitVec 3) (feeds : BitVec 2) {o : Nat} (h0 : o ≠ 0)
    (hs : o ≠ 0x20) (hp : o ≠ 0x3C008) (hf : o < 0x3F000 ∨ 0x3F040 < o) :
    (s.powerOn straps feeds).reg o = regReset o := by
  rw [State.reg_powerOn s straps feeds hp hf, SMap.get_put_other _ _ _ hs]
  refine SMap.get_of_unlisted _ fun p hm => ?_
  rw [of_decide_eq_true (List.mem_filter.1 hm).2]
  exact h0.symm

/-- `SYS_STRAP` shows the straps as sampled (R44). -/
theorem State.reg_powerOn_straps {s : State} (hw : s.regsWf = true) (straps : BitVec 3) (feeds : BitVec 2) :
    (s.powerOn straps feeds).reg 0x20 = straps.setWidth 32 := by
  rw [State.reg_powerOn s straps feeds (by omega) (by omega)]
  exact SMap.get_put_same _ _ _ _ (SMap.filter_wf _ _ _ hw)

theorem State.showFuses_eq (s : State) : ∃ regs, s.showFuses = { s with regs := regs } := by
  unfold State.showFuses State.wrB State.wr State.setReg
  exact ⟨_, rfl⟩

theorem State.resetLevels_eq (s : State) : ∃ regs, s.resetLevels =
    { s with regs := regs, sec := { s.sec with challenges := [], fails := [], raised := false } } := by
  unfold State.resetLevels State.wr State.setReg
  simp only [each, List.foldl_cons, List.foldl_nil]
  exact ⟨_, rfl⟩

/-- The last steps of a reset show fuses and levels in registers, and forget the debug exchanges. -/
theorem State.fusesShown_eq (s : State) : ∃ regs, s.showFuses.resetLevels =
    { s with regs := regs, sec := { s.sec with challenges := [], fails := [], raised := false } } := by
  obtain ⟨_, hfuses⟩ := s.showFuses_eq
  rw [hfuses]
  exact State.resetLevels_eq _

/-- A power-on reset keeps the part number, what shows fuses and straps, pins, rails, fuses, what has left the part and
the queue; all else is at its reset value. -/
theorem State.powerOn_eq (s : State) (straps : BitVec 3) (feeds : BitVec 2) : ∃ regs red, s.powerOn straps feeds =
    { State.reset with
      regs := regs
      sys := { boot := .reset, feeds := feeds, railsOk := s.sys.railsOk }
      hst := { perstHigh := s.hst.perstHigh }
      aux := { pins := s.aux.pins }
      red := red
      pwm := { pins := s.pwm.pins }
      sec := { s.sec.kept with bootTicket := s.free, attestSeq := 0 }
      out := s.out
      free := s.free + 1
      pending := s.pending } := by
  unfold State.powerOn State.sampleStraps State.wrB State.wr State.setReg
  exact (State.fusesShown_eq _).elim fun regs h => ⟨regs, _, h⟩

/-! ### Supplies and temperature -/

section Supplies

variable {s : State}

/-- The rails that a trip takes out of range: in TOWPATH only three monitors are active (R50). -/
theorem State.monitorTrip_of_off {rails m : BitVec 6} {sys : Bool}
    (hm : m = if s.power = .towpath then rails &&& 0x31 else rails) (h0 : m ≠ 0) (hb : s.sys.boot = .off) :
    s.monitorTrip rails sys = { s with sys := { s.sys with railsOk := s.sys.railsOk &&& ~~~m } } := by
  subst hm
  unfold State.monitorTrip
  dsimp only
  rw [if_neg h0, if_pos hb]

theorem State.monitorTrip_of_on {rails m : BitVec 6} {sys : Bool} {u : State}
    (hm : m = if s.power = .towpath then rails &&& 0x31 else rails) (h0 : m ≠ 0) (hb : s.sys.boot ≠ .off)
    (hu : u = s.resetMain.setCause true sys false) :
    s.monitorTrip rails sys = { u.wr R.SYS_RESET_CAUSE_MON_RAIL (u.rd R.SYS_RESET_CAUSE_MON_RAIL ||| m.toNat) with
      sys := { u.sys with railsOk := s.sys.railsOk &&& ~~~m, cutShort := s.sys.cutShort || s.sys.move.isSome } } := by
  subst hm
  unfold State.monitorTrip
  dsimp only
  rw [if_neg h0, if_neg hb, ← hu]
  rfl

theorem State.release_of_ready (hb : s.sys.boot = .reset) (hr : s.sys.railsOk = 0x3F) (hf : s.sys.feeds ≠ 0) :
    s.release = State.timeReset { s with sys := { s.sys with boot := .search, tr := s.tsn.local_ } } :=
  if_pos ⟨hb, hr, hf⟩

theorem State.release_of_unfed (hf : s.sys.feeds = 0) : s.release = s := if_neg fun h => h.2.2 hf

theorem State.mainRelease_of_reset (hb : s.sys.boot = .reset) :
    s.mainRelease = State.release { s with sys := { s.sys with railsOk := 0x3F } } := by
  unfold State.mainRelease
  rw [if_neg (fun h => by rw [hb] at h; cases h.1), if_pos hb]

theorem State.effect_aonFeedLost (f : Fin 2) : s.effect (.aonFeedLost ⟨f, false⟩) = s.feedLost f := by
  rw [State.effect]
  exact if_neg Bool.false_ne_true

theorem State.effect_aonFeedBack (f : Fin 2) : s.effect (.aonFeedLost ⟨f, true⟩) = s.feedBack f := by
  rw [State.effect]
  exact if_pos rfl

theorem State.feedLost_of_fed {f : Fin 2} (hf : s.sys.feeds.getLsbD f = true) : s.feedLost f =
    if (s.dropFeed f).sys.feeds = 0 then (s.dropFeed f).powerOn (((s.dropFeed f).reg 0x20).setWidth 3) 0
    else (s.dropFeed f).judgeFeeds := by
  unfold State.feedLost
  exact if_neg (by rw [hf]; simp; omega)

theorem State.feedBack_of_unfed {f : Fin 2} (hf : s.sys.feeds.getLsbD f = false) : s.feedBack f =
    if s.sys.feeds = 0 then (s.powerOn ((s.reg 0x20).setWidth 3) (BitVec.ofNat 2 (2 ^ f.val))).showFeeds
    else (State.showFeeds { s with sys := { s.sys with feeds := setBit s.sys.feeds f true } }).judgeFeeds := by
  unfold State.feedBack
  exact if_neg (by rw [hf]; simp; omega)

/-- Above its limit "die temperature high" is raised by its own row, and "die temperature limit" on passing it. -/
theorem State.hotDie_high {temp : BitVec 12} {u v : State}
    (hu : u = (s.wr R.SYS_TEMP_TEMP temp.toNat).setActive 0x007 (decide (920 < sx 12 temp.toNat)))
    (h : 920 < sx 12 temp.toNat)
    (hv : v = (u.raise 0x007 0).setActive 0x008 (decide (1040 < sx 12 temp.toNat))) :
    s.hotDie temp 0x007 =
      if 1040 < sx 12 temp.toNat ∧ (u.raise 0x007 0).active 0x008 = false then v.raise 0x008 0 else v := by
  subst hu hv
  simp [State.hotDie, each, h]

theorem State.hotDie_limit {temp : BitVec 12} {u v : State}
    (hu : u = (s.wr R.SYS_TEMP_TEMP temp.toNat).setActive 0x007 (decide (920 < sx 12 temp.toNat)))
    (h : 920 < sx 12 temp.toNat)
    (hv : v = if (s.wr R.SYS_TEMP_TEMP temp.toNat).active 0x007 then u else u.raise 0x007 0)
    (hl : 1040 < sx 12 temp.toNat) :
    s.hotDie temp 0x008 = (v.setActive 0x008 true).raise 0x008 0 := by
  subst hu hv
  cases ha : (s.wr R.SYS_TEMP_TEMP temp.toNat).active 0x007 <;> simp [State.hotDie, each, h, hl, ha]

end Supplies

/-- Settles O40: each register of a power-on reset by what it was last written, each supply event by its case. -/
theorem powerOnStartsAnew : Obligations.PowerOnStartsAnew := by
  refine ⟨?powerOn, fun s => ⟨?trip, ?release, ?unfed, ?lost, ?back, ?hot⟩⟩
  case powerOn =>
    intro s t straps feeds ht
    have hexec := exec_of_effect (c := .powerOnReset straps feeds) (.inr rfl) ht.symm
    have hreset : ∀ o, o ≠ 0 → o ≠ 0x20 → o ≠ 0x3C008 → (o < 0x3F000 ∨ 0x3F040 < o) → t.reg o = regReset o := by
      rw [ht]
      exact fun o => State.reg_powerOn_reset s straps feeds
    have hstraps : s.regsWf = true → t.reg 0x20 = straps.setWidth 32 := by
      rw [ht]
      exact fun hw => State.reg_powerOn_straps hw straps feeds
    obtain ⟨regs, red, he⟩ := s.powerOn_eq straps feeds
    obtain rfl := ht.trans he
    exact ⟨hexec, rfl, rfl, rfl, rfl, rfl, rfl, rfl, rfl, rfl, rfl, rfl, rfl, rfl, rfl, rfl, rfl, rfl, rfl, rfl,
      hreset, hstraps⟩
  case trip =>
    intro rails m sys u hm h0 hu
    exact ⟨fun hb => exec_of_effect (.inr rfl) (State.monitorTrip_of_on hm h0 hb hu),
      fun hb => exec_of_effect (.inr rfl) (State.monitorTrip_of_off hm h0 hb)⟩
  case release =>
    intro hb hf
    exact exec_of_effect (.inr rfl) ((State.mainRelease_of_reset hb).trans (State.release_of_ready hb rfl hf))
  case unfed =>
    intro hb hf
    exact exec_of_effect (.inr rfl) ((State.mainRelease_of_reset hb).trans (State.release_of_unfed hf))
  case lost =>
    rintro f _ hf rfl
    have hl := (State.effect_aonFeedLost f).trans (State.feedLost_of_fed hf)
    exact ⟨fun h => exec_of_effect (.inr rfl) (hl.trans (if_neg h)),
      fun h => exec_of_effect (.inr rfl) (hl.trans (if_pos h))⟩
  case back =>
    intro f hf
    have hb := (State.effect_aonFeedBack f).trans (State.feedBack_of_unfed hf)
    exact ⟨fun h => exec_of_effect (.inr rfl) (hb.trans (if_neg h)),
      fun h => exec_of_effect (.inr rfl) (hb.trans (if_pos h))⟩
  case hot =>
    intro temp u v hu h
    exact ⟨fun hv => exec_of_effect (.inr rfl) (State.hotDie_high hu h hv),
      fun hv hl => exec_of_effect (.inr rfl) (State.hotDie_limit hu h hv hl)⟩

end Sys2Proof.Machine
end

section
/-! SUPPORT. The steps of boot, each by the case of its rule that holds (R46, R79, R80, R411). -/

set_option Elab.async false

namespace Sys2Proof.Machine

open Sys2Proof

section Boot

variable {s : State}

/-- A reset that has been released is not released again. -/
theorem State.release_of_search (hb : s.sys.boot = .search) : s.release = s :=
  if_neg fun h => by rw [hb] at h; cases h.1

/-! ### Steps 1 to 3, and failures (R79, R80) -/

theorem State.bootStart_of_search (hb : s.sys.boot = .search) (hr : s.sys.refFound = false) :
    s.bootStart = ((State.showFeeds { s with sys := { s.sys with tr := s.tsn.local_ } }).judgeFeeds).search 10 := by
  unfold State.bootStart
  rw [State.release_of_search hb]
  exact if_pos ⟨hb, by rw [hr]; rfl⟩

theorem State.refFound_of_search (k : Fin 2) (hb : s.sys.boot = .search) (hr : s.sys.refFound = false) :
    s.refFound k = ((State.wr { s with sys := { s.sys with refFound := true } } R.CLK_REF_STAT_SEL k).search 0).search 1 :=
  if_pos ⟨hb, by rw [hr]; rfl, k.isLt⟩

theorem State.sramDone_of_flash (hb : s.sys.boot = .sram) (hsrc : s.is R.SYS_STRAP_BOOT_SRC = false) :
    s.sramDone true = { s with sys := { s.sys with boot := .image } } := by
  have hkept : State.is { s with sys := { s.sys with boot := .image } } R.SYS_STRAP_BOOT_SRC = false := hsrc
  simp [State.sramDone, hb, hsrc, hkept]

theorem State.sramDone_of_bad (hb : s.sys.boot = .sram) : s.sramDone false = s.bootFail 5 := by
  unfold State.sramDone
  rw [if_pos hb]
  rfl

/-- The CODE of a step that does not succeed in time (Table 3.15). -/
theorem State.bootTimeout_code {code : Nat} (h : (s.sys.boot = .search ∧ code = if s.sys.refFound then 7 else 1) ∨
    (s.sys.boot = .sram ∧ code = 5) ∨ (s.sys.boot = .image ∧ code = 2)) : s.bootTimeout = s.bootFail code := by
  unfold State.bootTimeout
  obtain ⟨hb, rfl⟩ | ⟨hb, rfl⟩ | ⟨hb, rfl⟩ := h <;> rw [hb]

/-! ### The image (R46, R411) -/

theorem State.settingsLoaded_of_good {p b : Option Bytes} {bad : List Nat} {u : State} (hb : s.sys.boot = .image)
    (hu : u = (s.fixRows bad).showFuses) (hp : u.imageReason p = 0) : s.settingsLoaded p b bad =
      ((u.wr R.SEC_IMG_STAT_REASON_P 0).wr R.SEC_IMG_STAT_REASON_B 7).useImage (p.getD []) 0 bad := by
  unfold State.settingsLoaded
  rw [if_pos hb, ← hu]
  dsimp only
  rw [hp]
  exact if_pos rfl

theorem State.settingsLoaded_of_bad {p b : Option Bytes} {bad : List Nat} {n : Nat} {u v : State}
    (hb : s.sys.boot = .image) (hu : u = (s.fixRows bad).showFuses) (hp : u.imageReason p = n) (hn : n ≠ 0)
    (hv : v = u.wr R.SEC_IMG_STAT_REASON_P n) (hq : v.imageReason b ≠ 0) : s.settingsLoaded p b bad =
      (v.wr R.SEC_IMG_STAT_REASON_B (v.imageReason b)).bootFail (reasonCode n) := by
  unfold State.settingsLoaded
  rw [if_pos hb, ← hu]
  dsimp only
  rw [hp, ← hv]
  exact (if_neg hn).trans (if_neg hq)

theorem State.jtagImage_of_good {im : Bytes} {bad : List Nat} {u : State} (hb : s.sys.boot = .jtagWait)
    (hu : u = (s.fixRows bad).showFuses) (hp : u.imageReason (some im) = 0) : s.jtagImage im bad =
      ((((u.wr R.SEC_IMG_STAT_REASON_P 0).wr R.SEC_IMG_STAT_REASON_B 7).wr R.SYS_BOOT_STAT_CODE 0).wrB
        R.SYS_BOOT_STAT_FAILED false).useImage im 0 bad := by
  unfold State.jtagImage
  rw [if_pos hb, ← hu]
  dsimp only
  rw [hp]
  exact if_pos rfl

/-! ### Steps 6 and 7 (R79) -/

theorem State.bootDone_of_applied {t : Nat} {u v : State} (hu : u = s.stepSix) (hb : u.sys.boot = .applied)
    (ht : t = min 65535 ((u.tsn.local_ - u.sys.tr) * 2 / 10000))
    (hv : v = if u.sys.cutShort then u.wr R.SYS_PWR_STAT_LAST_STATUS 4 else u) : s.bootDone_ =
      ((((State.wrB { v with sys := { v.sys with boot := .done, cutShort := false } } R.SYS_BOOT_STAT_DONE true).wr
        R.SYS_BOOT_STAT_TIME t).wr R.SYS_PWR_STAT_STATE 2).startTrackers).event 0 1 [(16, 2, t)] := by
  unfold State.bootDone_
  rw [← hu, if_pos hb, ← ht, ← hv]

theorem State.stepSix_of_settings (hb : s.sys.boot = .settings) : s.stepSix = s.startUp := if_pos hb

end Boot

/-- Settles O41: each row of boot by the step that it ends. -/
theorem bootRunsItsSteps : Obligations.BootRunsItsSteps := by
  refine ⟨fun s hs => ⟨?start, ?reference, ?sram, ?sramBad, ?fail⟩, fun s hs => ⟨?flash, ?jtag, ?done, ?six⟩⟩
  case start => exact fun hb hr => exec_of_effect (.inl hs) (State.bootStart_of_search hb hr)
  case reference => exact fun k hb hr => exec_of_effect (.inl hs) (State.refFound_of_search k hb hr)
  case sram => exact fun hb hsrc => exec_of_effect (.inl hs) (State.sramDone_of_flash hb hsrc)
  case sramBad => exact fun hb => exec_of_effect (.inl hs) (State.sramDone_of_bad hb)
  case fail => exact fun code h => exec_of_effect (.inl hs) (State.bootTimeout_code h)
  case flash =>
    intro p b bad u hb hu
    exact ⟨fun hp => exec_of_effect (.inl hs) (State.settingsLoaded_of_good hb hu hp),
      fun n v hp hn hv hq => exec_of_effect (.inl hs) (State.settingsLoaded_of_bad hb hu hp hn hv hq)⟩
  case jtag => exact fun im bad u hb hu hp => exec_of_effect (.inl hs) (State.jtagImage_of_good hb hu hp)
  case done => exact fun t u v hu hb ht hv => exec_of_effect (.inl hs) (State.bootDone_of_applied hu hb ht hv)
  case six =>
    rintro u hb rfl
    exact State.stepSix_of_settings hb

end Sys2Proof.Machine
end

section
/-! SUPPORT. What a write of the reset register and of the overlay register does (R77, R78, R429). -/

set_option Elab.async false

namespace Sys2Proof.Machine

open Sys2Proof

/-! ### Resets by their key (R77, R78) -/

section KeyedResets

variable {s : State} {v : Word} {q : Requester}

theorem State.rstWrite_of_system (hkey : v.toNat / 65536 = 0xC1A5) (hsys : v.getLsbD 0 = true)
    (hblk : v.getLsbD 1 = false) : s.rstWrite v q = s.systemReset := by
  unfold State.rstWrite
  simp only [hkey, hsys, hblk, ne_eq, not_true_eq_false, Bool.and_false, Bool.false_eq_true, or_self, if_false, if_true]

/-- RUN refuses a block reset (R78). -/
theorem State.rstWrite_of_block {b : Nat} (hkey : v.toNat / 65536 = 0xC1A5) (hsys : v.getLsbD 0 = false)
    (hblk : v.getLsbD 1 = true) (hb : b = v.toNat / 256 % 16) (hr : resettable b = true) : s.rstWrite v q =
      if s.power = .run then s.wrB R.SYS_RESET_CAUSE_BLK_REFUSED true else s.blockReset b := by
  subst hb
  unfold State.rstWrite
  simp only [hkey, hsys, hblk, hr, ne_eq, not_true_eq_false, Bool.false_and, Bool.not_true, Bool.false_eq_true, or_self,
    if_false, if_true]

theorem State.rstWrite_of_unkeyed (hkey : v.toNat / 65536 ≠ 0xC1A5) : s.rstWrite v q = s.reservedWrite q 0x34 :=
  if_pos (.inl hkey)

theorem State.blockReset_of_resettable {b : Nat} (hr : resettable b = true) :
    s.blockReset b = ((s.openShadow b).clearBlock b).setReg (R.FLT_ACTIVE b).off 0 := if_pos hr

/-- Outside the always-on domain a main-domain reset leaves no register off its reset value. -/
theorem State.reg_clearMain (s : State) {off : Nat} (h : aonRegs.contains off = false) :
    s.clearMain.reg off = regReset off := by
  refine SMap.get_of_unlisted _ fun p hp hoff => ?_
  have hkept : aonRegs.contains p.1 = true := (List.mem_filter.1 hp).2
  rw [hoff, h] at hkept
  exact Bool.noConfusion hkept

section Rows

variable (hs : s.collects = true) (hd : s.decodes 0x34 = true)
include hs hd

theorem exec_sysRst {t : State} (ht : (s.written 0x34 v).rstWrite v = t) : exec (.sysRst v) s = .next t.settle :=
  have hw : s.sysWrite byHost 0x34 v = (s.written 0x34 v).rstWrite v := hostWrite_written hd fun u => u.rstWrite v
  exec_of_awake rfl hs (hw.trans ht)

theorem exec_blkRst {t : State} (ht : (s.written 0x34 v).rstWrite v = t) : exec (.blkRst v) s = .next t.settle :=
  exec_of_awake rfl hs ((hostWrite_written hd fun u => u.rstWrite v).trans ht)

end Rows

end KeyedResets

/-! ### The overlay PWM_MASKED (R429, Table 17.5) -/

section Overlays

variable {s : State}

theorem State.overlayRefused_of_safe (hsafe : s.isSafe = true) (i loops : Nat) : s.overlayRefused i loops = some 1 :=
  if_pos hsafe

/-- In a calm state nothing of Table 17.5 refuses PWM_MASKED. -/
theorem State.overlayRefused_pwm_of_calm (hsafe : s.isSafe = false) (hp : s.power = .hold ∨ s.power = .run)
    (hg : s.grid = 0) (hdr : s.noDriveTurns = true) (loops : Nat) : s.overlayRefused 0 loops = none := by
  unfold State.overlayRefused
  rcases hp with hp | hp <;> simp [hsafe, hp, hg, hdr]

/-- PWM_MASKED alone is judged where it alone is asked for with no overlay in force. -/
theorem State.overlayJudge_pwm (s : State) (loops : Nat) : s.overlayJudge 1 0 loops =
    ((s.overlayRefused 0 loops).elim (1, none) fun c => (0, some c)) := by
  unfold State.overlayJudge
  cases h : s.overlayRefused 0 loops <;> simp [h, Nat.testBit_one_eq_true_iff_self_eq_zero]

/-- What the register does with PWM_MASKED as Table 17.5 judges it: granted, or refused with a code. -/
def State.pwmMasked (s : State) : Option Nat → State
  | none => ((s.setReg 0x50 1#32).pwmOffAll).overlayEvent 1 0
  | some c => (((s.setReg 0x50 0#32).wrB R.SYS_OVERLAY_REFUSED true).wr R.SYS_OVERLAY_REFUSE_CODE c).overlayEvent 1 c

/-- From no overlay in force a write that asks for PWM_MASKED clears nothing, and does as it is judged. -/
theorem State.overlayWrite_pwm (hd : s.decodes 0x50 = true) (h0 : s.reg 0x50 = 0#32) :
    s.overlayWrite 1#32 = (s.written 0x50 0#32).pwmMasked (s.overlayRefused 0 0) := by
  have hacts : s.overlayWrite 1#32 = s.hostWrite 0x50 0#32 fun u => u.pwmMasked (s.overlayRefused 0 0) := by
    unfold State.overlayWrite
    cases h : s.overlayRefused 0 0 <;>
      simp [h0, h, State.overlayJudge_pwm, Nat.testBit_one_eq_true_iff_self_eq_zero, each, State.pwmMasked]
  exact hacts.trans (hostWrite_written hd _)

end Overlays

/-- Settles O16: each write by its word, a reset's by key and bits, an overlay's by what Table 17.5 finds. -/
theorem resetsAndOverlaysAct : Obligations.ResetsAndOverlaysAct := by
  refine ⟨fun s u v hs hd hu => ⟨?system, ?block, ?unkeyed, fun _ => u.reg_clearMain⟩,
    fun s u w v hs hd hv h0 hu => ?overlay⟩
  all_goals subst hu
  case system =>
    exact fun hkey hsys hblk => exec_sysRst hs hd (State.rstWrite_of_system hkey hsys hblk)
  case block =>
    intro b hkey hsys hblk hb hr
    have hw := State.rstWrite_of_block (s := s.written 0x34 v) (q := byHost) hkey hsys hblk hb hr
    exact ⟨fun hp => exec_blkRst hs hd (hw.trans ((if_neg hp).trans (State.blockReset_of_resettable hr))),
      fun hp => exec_blkRst hs hd (hw.trans (if_pos hp))⟩
  case unkeyed => exact fun hkey => exec_sysRst hs hd (State.rstWrite_of_unkeyed hkey)
  case overlay =>
    subst hv
    have hw := State.overlayWrite_pwm hd h0
    refine ⟨?_, ?_⟩
    · rintro hsafe hp hg hdr rfl
      rw [State.overlayRefused_pwm_of_calm hsafe hp hg hdr] at hw
      exact exec_of_awake rfl hs hw
    · rintro hsafe rfl
      rw [State.overlayRefused_of_safe hsafe] at hw
      exact exec_of_awake rfl hs hw

end Sys2Proof.Machine
end

section
/-! SUPPORT. What loops, references and alignment pulses do by the conditions of their rows (R65 to R67, R69 to R73,
R76). -/

set_option Elab.async false

namespace Sys2Proof.Machine

open Sys2Proof

section Clocks

variable {s : State}

/-! ### Loops (R65, R67, R69 to R71) -/

section Loops

variable {t : State} (n : Fin 12)

theorem State.searchDone_of_searching {u v : State} (ht : t = s.stepSix)
    (hsearch : t.bitOf R.CLK_PLL_STAT_SEARCH n = true)
    (hu : u = (t.wrBit R.CLK_PLL_STAT_SEARCH n false).wrBit R.CLK_PLL_STAT_LOCKED n true)
    (hv : v = { u with clk := { u.clk with failed := setBit u.clk.failed n false, lost := setBit u.clk.lost n false } }) :
    s.searchDone n = ((if t.clk.failed.getLsbD n && !t.clk.lost.getLsbD n && !t.clk.away.getLsbD n
      then v.returnDomain n else v).judgeLoops.quadStarts n).bootLoops := by
  unfold State.searchDone
  rw [← ht]
  dsimp only
  rw [if_pos (by simp only [n.isLt, hsearch, decide_true, Bool.and_self]), hv, hu]

theorem State.searchFailed_of_searching {u : State} (ht : t = s.stepSix)
    (hsearch : t.bitOf R.CLK_PLL_STAT_SEARCH n = true)
    (hu : u = (State.judgeLoops (State.wrBit { t with clk := { t.clk with failed := setBit t.clk.failed n true } }
      R.CLK_FB_STAT_DOMAIN n true)).raise 0x1A0 n) :
    s.searchFailed n = if t.onBackup n then u else u.lockEffect n := by
  unfold State.searchFailed
  rw [← ht]
  dsimp only
  rw [if_pos (by simp only [n.isLt, hsearch, decide_true, Bool.and_self]), hu]

theorem State.searchDone_of_idle (ht : t = s.stepSix) (hidle : t.bitOf R.CLK_PLL_STAT_SEARCH n = false) :
    s.searchDone n = t := by
  unfold State.searchDone
  rw [← ht]
  exact if_neg (by simp only [hidle, Bool.and_false, Bool.false_eq_true, not_false_eq_true])

theorem State.searchFailed_of_idle (ht : t = s.stepSix) (hidle : t.bitOf R.CLK_PLL_STAT_SEARCH n = false) :
    s.searchFailed n = t := by
  unfold State.searchFailed
  rw [← ht]
  exact if_neg (by simp only [hidle, Bool.and_false, Bool.false_eq_true, not_false_eq_true])

theorem State.lockLost_of_locked {u v w : State} (hl : s.loopLocked n = true)
    (hu : u = (s.search n).wrBit R.CLK_FB_STAT_DOMAIN n true)
    (hv : v = { u with clk := { u.clk with
      returning := (setBit u.clk.returning n false), lost := (setBit u.clk.lost n true)
      away := (setBit u.clk.away n true), fabBackup := (u.clk.fabBackup || decide (n.val = 0)) } })
    (hw : w = if s.clk.returning.getLsbD n then v.inc R.CLK_FB_STAT_RET_REFUSED else v) :
    s.lockLost n = ((w.raise (lockSource n) n).lockEffect n).judgeLoops := by
  unfold State.lockLost
  rw [if_pos (by simp only [n.isLt, hl, decide_true, Bool.and_self]), hw, hv, hu]

theorem State.lockLost_of_unlocked (hl : s.loopLocked n = false) : s.lockLost n = s :=
  if_neg (by simp only [hl, Bool.and_false, Bool.false_eq_true, not_false_eq_true])

end Loops

theorem State.backupLost_of_collects (hs : s.collects = true) :
    s.backupLost = (s.setActive 0x1A3 true).raise 0x1A3 0 := by
  refine if_neg fun hb => ?_
  rcases hb with hb | hb <;> simp [State.collects, hb] at hs

/-! ### References (R66, R72, R73) -/

/-- A reference that was there to lose fails: one not in use takes nothing with it, one in use gives way to the other
where that is good, and to holdover where it is not. -/
theorem State.refFails_of_there (k : Fin 2) {u v w : State}
    (hthere : (s.is (refOk k) || (decide (s.refSel = k) && s.sys.refFound && !s.clk.refLost.getLsbD k)) = true)
    (hu : u = (s.wrB (refOk k) false).wrB (refLostFld k) true)
    (hv : v = { u with clk := { u.clk with refLost := setBit u.clk.refLost k true } })
    (hw : w = v.judgeRefLost.raise 0x1A1 k) : s.refFails k =
      if !(decide (s.refSel = k) && s.sys.refFound) then w
      else if w.refGood (1 - k) then
        (State.dropSlew { w with clk := { w.clk with failedOver := true } }).wr R.CLK_REF_STAT_SEL (1 - k)
      else w.holdover := by
  have hlost : ¬ (1 < k.val ∨ ((!s.is (refOk k)) = true ∧
      ((!(decide (s.refSel = k) && s.sys.refFound)) = true ∨ s.clk.refLost.getLsbD k = true))) := by
    rintro (hk | ⟨hok, hout | hout⟩)
    · omega
    all_goals rw [Bool.not_eq_true'] at hok
    · rw [Bool.not_eq_true'] at hout
      rw [hok, hout] at hthere
      exact Bool.noConfusion hthere
    · rw [hok, hout, Bool.not_true, Bool.and_false] at hthere
      exact Bool.noConfusion hthere
  unfold State.refFails
  dsimp only
  rw [if_neg hlost, hw, hv, hu]

theorem State.refQualifies_eq (k : Fin 2) {u v : State} (err : Int) (hu : u = s.wrB (refOk k) true)
    (hv : v = State.judgeRefLost { u with clk := { u.clk with refLost := setBit u.clk.refLost k false } }) :
    s.refQualifies k err =
      if v.is R.CLK_REF_STAT_HOLDOVER && !v.is R.CLK_REF_STAT_SLEWING && v.refGood k then
        (((v.wr R.CLK_REF_STAT_SEL k).wr R.CLK_REF_STAT_PHASE_ERR (ux 16 err)).wrB R.CLK_REF_STAT_SLEWING true).tellSlew
          (if err < 0 then -(v.rd R.CLK_SLEW_MAX_RATE : Int) else v.rd R.CLK_SLEW_MAX_RATE)
      else v.judgeRef := by
  unfold State.refQualifies
  rw [if_neg (by omega), hv, hu]

theorem State.slewComplete_of_slewing (h : s.is R.CLK_REF_STAT_SLEWING = true) : s.slewComplete =
    (((((s.wrB R.CLK_REF_STAT_SLEWING false).wrB R.CLK_REF_STAT_HOLDOVER false).wr R.CLK_REF_STAT_PHASE_ERR 0).tellSlew
      0).setActive 0x1A2 false).judgeRef := if_pos h

/-! ### Alignment (R76) -/

theorem State.syncIn_of_not_standby (hr : s.role ≠ .standby) (a b : Bool) : s.syncIn a b = s := if_pos (.inl hr)

section Align

variable (hr : s.role = .standby) (hen : s.is R.CLK_SYNC_ALIGN_EN = true)
include hr hen

/-- A pulse that finds a standby's dividers not to be moved is ignored, and counted. -/
theorem State.syncIn_of_barred (hbar : (s.is R.CLK_UPDATE_BUSY || s.onBackup 1 || s.onBackup 11) = true) (a b : Bool) :
    s.syncIn a b = s.inc R.CLK_SYNC_IGNORED := by
  unfold State.syncIn
  rw [if_neg (by simp [hr, hen]), if_pos hbar]

/-- A pulse aligns a standby's dividers, each that is off; the instant of a reset of the metering divider is kept. -/
theorem State.syncIn_of_free {u w : State} (hfree : (s.is R.CLK_UPDATE_BUSY || s.onBackup 1 || s.onBackup 11) = false)
    (a b : Bool) (hu : u = s.wrB R.CLK_SYNC_IN_PHASE (!a && !b))
    (hw : w = if b then { u with mtr := { u.mtr with dividerAt := some u.tsn.local_ } } else u) : s.syncIn a b =
      if a || b then (w.inc R.CLK_SYNC_ALIGNED_CNT).wrB R.CLK_SYNC_MOVED true else w := by
  unfold State.syncIn
  rw [if_neg (by simp [hr, hen]), if_neg (by simp [hfree]), hw, hu]

end Align

end Clocks

/-- Settles O42: each row of loops, references and alignment by the condition under which it acts. -/
theorem loopsAndReferences : Obligations.LoopsAndReferences := by
  refine ⟨fun s n hs t ht => ⟨?found, ?failed, ?idle, ?lost, ?unlocked, ?backup⟩,
    fun s k hs => ⟨?fails, ?qualifies, ?slewed, ?others, ?aligns, ?barred⟩⟩
  case found => exact fun u v hsearch hu hv => exec_of_effect (.inl hs) (State.searchDone_of_searching n ht hsearch hu hv)
  case failed => exact fun u hsearch hu => exec_of_effect (.inl hs) (State.searchFailed_of_searching n ht hsearch hu)
  case idle =>
    exact fun hidle => ⟨exec_of_effect (.inl hs) (State.searchDone_of_idle n ht hidle),
      exec_of_effect (.inl hs) (State.searchFailed_of_idle n ht hidle)⟩
  case lost => exact fun u v w hl hu hv hw => exec_of_effect (.inl hs) (State.lockLost_of_locked n hl hu hv hw)
  case unlocked => exact fun hl => exec_of_effect (.inl hs) (State.lockLost_of_unlocked n hl)
  case backup => exact exec_of_effect (.inl hs) (State.backupLost_of_collects hs)
  case fails =>
    intro u v w hthere hu hv hw
    have hf := State.refFails_of_there k hthere hu hv hw
    refine ⟨fun hout => ?_, fun hsel hfound hgood => ?_, fun hsel hfound hgood => ?_⟩
    · refine exec_of_effect (.inl hs) (hf.trans (if_pos ?_))
      rcases hout with h | h <;> simp [h]
    · exact exec_of_effect (.inl hs) (hf.trans (by simp [hsel, hfound, hgood]))
    · exact exec_of_effect (.inl hs) (hf.trans (by simp [hsel, hfound, hgood]))
  case qualifies =>
    intro u v err hu hv
    have hq := State.refQualifies_eq k err hu hv
    exact ⟨fun h => exec_of_effect (.inl hs) (hq.trans (if_pos h)),
      fun h => exec_of_effect (.inl hs) (hq.trans (if_neg (by simp [h])))⟩
  case slewed => exact fun h => exec_of_effect (.inl hs) (State.slewComplete_of_slewing h)
  case others => exact fun a b hr => exec_of_effect (.inl hs) (State.syncIn_of_not_standby hr a b)
  case aligns =>
    intro hr hen hbusy htb hmtr
    have hfree : (s.is R.CLK_UPDATE_BUSY || s.onBackup 1 || s.onBackup 11) = false := by
      simp only [hbusy, htb, hmtr, Bool.or_self]
    have ha a b := State.syncIn_of_free hr hen hfree a b rfl rfl
    refine ⟨exec_of_effect (.inl hs) (ha false false), exec_of_effect (.inl hs) (ha true false), ?_⟩
    rintro u a rfl
    exact exec_of_effect (.inl hs) ((ha a true).trans (by simp))
  case barred => exact fun a b hr hen hbar => exec_of_effect (.inl hs) (State.syncIn_of_barred hr hen hbar a b)

end Sys2Proof.Machine
end

section
/-! SUPPORT. How power transitions end, and what the steps of TOWPATH entry do (R83, R84). -/

set_option Elab.async false

namespace Sys2Proof.Machine

open Sys2Proof

section Transitions

variable {s : State}

theorem State.transitionDone_of_completing {t : Power} (hm : s.sys.move = some (.completing t)) (ht : t ≠ .hold) :
    s.transitionDone = (s.setMove none).runPending := by
  unfold State.transitionDone
  rw [hm]
  cases t
  case hold => exact absurd rfl ht
  all_goals rfl

/-- A change to HOLD completes when every loop that it started runs again, FAB then on its own loop (R84). -/
theorem State.transitionDone_hold (hm : s.sys.move = some (.completing .hold)) : s.transitionDone =
    if s.stillSearching then s
    else (State.setMove { s with clk := { s.clk with
      fabBackup := s.clk.fabBackup && (!s.loopLocked 0 || s.onBackup 0) } } none).runPending := by
  unfold State.transitionDone
  rw [hm]

theorem State.runPending_of_none (hp : Power.ofReq (s.rd R.SYS_PWR_STAT_PENDING) = none) : s.runPending = s := by
  unfold State.runPending
  rw [hp]

/-- With the HOLD barges over, TOWPATH entry stops the loops that run, but for PLL_TB and PLL_PCIE. -/
theorem State.towpathSteps_of_barged {u v w : State} (hm : s.sys.move = some (.holdBarges 0))
    (hu : u = (s.calAbandon.accsIdle.portsDown 6).allLanesOff)
    (hv : v = { u with clk := { u.clk with fabBackup := true }, hst := { u.hst with l1 := true } })
    (hw : w = each (clkLoops.filter fun n => n ≠ 1 ∧ n ≠ 10 ∧ (v.loopLocked n || v.bitOf R.CLK_PLL_STAT_SEARCH n))
      State.stopLoop v) :
    s.towpathSteps = ((w.judgeLoops.cmpWatch).setPower .towpath false).setMove (some (.completing .towpath)) := by
  subst hw hv hu
  unfold State.towpathSteps
  rw [hm]
  rfl

theorem State.towpathSteps_of_not_barged (hm : s.sys.move ≠ some (.holdBarges 0)) : s.towpathSteps = s := by
  unfold State.towpathSteps
  split
  case h_1 h => exact absurd h hm
  case h_2 => rfl

end Transitions

/-- Settles O43: each row by the move in progress. -/
theorem powerTransitionsEnd : Obligations.PowerTransitionsEnd := by
  refine fun s u hs => ⟨?completes, ?leaves, ?waits, State.runPending_of_none, ?enters, ?idle⟩
  case completes =>
    rintro t hm ht rfl
    exact exec_of_effect (.inl hs) (State.transitionDone_of_completing hm ht)
  case leaves =>
    rintro v hm hstill rfl
    exact exec_of_effect (.inl hs) ((State.transitionDone_hold hm).trans (if_neg (by simp [hstill])))
  case waits => exact fun hm hstill => exec_of_effect (.inl hs) ((State.transitionDone_hold hm).trans (if_pos hstill))
  case enters => exact fun v w hm hu hv hw => exec_of_effect (.inl hs) (State.towpathSteps_of_barged hm hu hv hw)
  case idle => exact fun hm => exec_of_effect (.inl hs) (State.towpathSteps_of_not_barged hm)

end Sys2Proof.Machine
end

section
/-! SUPPORT. Ports that come up and go down, frames that arrive, and the head of a launch queue (R75, R334 to R336,
R338, R346, R350 to R353). -/

set_option Elab.async false

namespace Sys2Proof.Machine

open Sys2Proof

section Net

variable {s : State}

/-! ### Ports (R75, R334, R346) -/

/-- Whether UP or not, a port that goes down shows a loss of signal and hears no master any more; one that was UP is
reported. -/
theorem State.portDown_eq (p : Nat) {c : Nat} {u : State}
    (hu : u = (if c = 0 then s.wrB (R.TSN_PORT_STAT_LOS p) true else s).deafen p) : s.portDown p (c + 1) =
      if u.is (R.TSN_PORT_STAT_UP p) then
        let v := (u.wrB (R.TSN_PORT_STAT_UP p) false).event 9 5 [(16, 1, p), (17, 1, 0), (18, 1, c + 1)]
        if v.is (R.TSN_PORT_CTL_EN p) then
          ((v.wrB (R.TSN_PORT_STAT_LOST p) true).setActive 0x123 true).raise 0x123 p
        else v
      else u := by
  unfold State.portDown
  rw [hu]
  simp only [Nat.add_eq_right]

/-! ### Frames that arrive (R335, R336, R338) -/

section Receiving

variable {p : Nat} {b : Bytes}

theorem State.frameIn_of_down (hup : s.is (R.TSN_PORT_STAT_UP p) = false) (fcs : Bool) (x : Int) :
    s.frameIn p b fcs x = s := if_pos (by rw [hup]; rfl)

section Up

variable (hup : s.is (R.TSN_PORT_STAT_UP p) = true) (x : Int)
include hup

theorem State.frameIn_of_badFcs : s.frameIn p b false x = s.inc (R.TSN_PORT_ERR_FCS p) := by
  unfold State.frameIn
  simp only [hup, Bool.not_true, Bool.not_false, Bool.false_eq_true, if_false, if_true]

theorem State.frameIn_of_badLength (hlen : (s.bodyOf b).length < 60 ∨ 1518 < (s.bodyOf b).length) :
    s.frameIn p b true x = s.inc (R.TSN_PORT_ERR_LENGTH p) := by
  unfold State.frameIn
  simp only [hup, hlen, Bool.not_true, Bool.false_eq_true, if_false, if_true]

section GoodLength

variable (hmin : 60 ≤ (s.bodyOf b).length) (hmax : (s.bodyOf b).length ≤ 1518)
include hmin hmax

theorem State.frameIn_of_filtered (hf : s.filtersOut p b = true) :
    s.frameIn p b true x = s.inc (R.TSN_PORT_DROP_FILTERED p) := by
  unfold State.frameIn
  simp only [hup, hf, Nat.not_lt.2 hmin, Nat.not_lt.2 hmax, Bool.not_true, Bool.false_eq_true, or_self, if_false, if_true]

/-- A frame with no redundancy trailer is taken as it is. -/
theorem State.frameIn_of_passed (hf : s.filtersOut p b = false) (ht : s.trailerOf b = none) :
    s.frameIn p b true x = s.takeFrame p (s.bodyOf b) x := by
  unfold State.frameIn
  simp only [hup, hf, ht, Nat.not_lt.2 hmin, Nat.not_lt.2 hmax, Bool.not_true, Bool.false_eq_true, or_self, if_false]

end GoodLength

end Up

end Receiving

/-! ### The head of a launch queue (R350 to R353) -/

/-- The row gives the instants of both ports. -/
theorem exec_frameLaunch {t : State} {q : Fin 8} {x0 x1 : Int} (hs : s.collects = true)
    (ht : s.launch q (fun p => if p = 0 then x0 else x1) = t) : exec (.frameLaunch q x0 x1) s = .next t.settle :=
  exec_of_effect (.inl hs) ht

section Launching

variable {q : Nat} (x : Nat → Int) {h : Posted} {l : List Posted}

theorem State.launch_of_empty (hq : s.postedOf (13 + q) = []) : s.launch q x = s := by
  unfold State.launch
  simp only [hq]

section Head

variable (hq : s.postedOf (13 + q) = h :: l)
include hq

theorem State.launch_of_gated (hg : s.queueGated q = true) : s.launch q x = s.completePosted (13 + q) 0 4 0 4 0 := by
  unfold State.launch
  simp only [hq, hg, if_true]

variable (hg : s.queueGated q = false)
include hg

theorem State.launch_of_noPort (hp : s.txPorts h.desc = []) :
    s.launch q x = s.completePosted (13 + q) 0 4 0 0xB 0 := by
  unfold State.launch
  simp only [hq, hg, hp, Bool.false_eq_true, List.isEmpty_nil, if_false, if_true]

section NoLaunchTime

variable (hp : s.txPorts h.desc = [0]) (ht : launchOf h.desc = 0)
include hp ht

theorem State.launch_of_heldBack (hb : s.heldBack q h 0 (s.egressPlant 0 (x 0)) = true) : s.launch q x = s := by
  unfold State.launch
  simp [hq, hg, hp, ht, hb]

/-- A frame with no launch time, of one port and with no timestamp to insert, goes out on its port as it is. -/
theorem State.launch_of_free {u : State} (hb : s.heldBack q h 0 (s.egressPlant 0 (x 0)) = false)
    (hone : h.desc.le 14 1 = 0) (hplain : h.desc.le 15 1 = 0) (hu : u = s.advanceByTicks (x 0 / 131072).toNat) :
    s.launch q x = (u.emit (.frameOut 0 h.frame (u.egressPlant 0 (x 0)))).completePosted (13 + q) 0 0 0 0 0 := by
  subst hu
  unfold State.launch
  simp [hq, hg, hp, ht, hb, hone, hplain, each]

end NoLaunchTime

end Head

end Launching

end Net

/-- Settles O58: each port, frame and queue by what the row finds. -/
theorem framesComeAndGo : Obligations.FramesComeAndGo := by
  refine fun s hs => ⟨?down, ?up, ?deaf, ?frames, ?launches, ?empty⟩
  case down =>
    intro p c u v hu
    have hd := State.portDown_eq p.val hu
    exact ⟨fun hup => exec_of_effect (.inl hs) (hd.trans (if_neg (by simp [hup]))),
      fun hup hv => exec_of_effect (.inl hs) (hd.trans ((if_pos hup).trans (by rw [hv])))⟩
  case up =>
    rintro p u rfl
    exact exec_of_effect (.inl hs) rfl
  case deaf => exact fun p b f x hup => exec_of_effect (.inl hs) (State.frameIn_of_down hup f x)
  case frames =>
    intro p b x hup
    exact ⟨exec_of_effect (.inl hs) (State.frameIn_of_badFcs hup x),
      fun hlen => exec_of_effect (.inl hs) (State.frameIn_of_badLength hup x hlen),
      fun hmin hmax => ⟨fun hf => exec_of_effect (.inl hs) (State.frameIn_of_filtered hup x hmin hmax hf),
        fun hf ht => exec_of_effect (.inl hs) (State.frameIn_of_passed hup x hmin hmax hf ht)⟩⟩
  case launches =>
    intro q x0 x1 h l hq
    refine ⟨fun hg => exec_frameLaunch hs (State.launch_of_gated _ hq hg),
      fun hg hp => exec_frameLaunch hs (State.launch_of_noPort _ hq hg hp),
      fun hg hp ht => ⟨fun hb => exec_frameLaunch hs (State.launch_of_heldBack _ hq hg hp ht hb),
        fun u hb hone hplain hu => exec_frameLaunch hs (State.launch_of_free _ hq hg hp ht hb hone hplain hu)⟩⟩
  case empty => exact fun q x0 x1 hq => exec_frameLaunch hs (State.launch_of_empty _ hq)

end Sys2Proof.Machine
end

section
/-! SUPPORT. The checks of a ring command, one lemma per outcome (R102, R103), and buffers and frames that wait in their
rings (R108, R110, R111). -/

set_option Elab.async false

namespace Sys2Proof.Machine

open Sys2Proof

/-! ### The checks of a command (R102) -/

section Check

variable {s : State} {row : Nat} {fmt : Format} {own : Owner} {c : Cmd}

theorem State.check_of_otherOpcode (hop : c.desc.opcode.toNat ≠ row) :
    s.check row fmt own c = s.complete c.ring c.idx c.desc (vBad 6) := if_pos hop

section RowOpcode

variable (hop : c.desc.opcode.toNat = row)
include hop

theorem State.check_of_badFlags (hflags : c.desc.flagsOk = false) :
    s.check row fmt own c = s.complete c.ring c.idx c.desc (vBad 5) := by
  simp [State.check, hop, hflags]

variable (hflags : c.desc.flagsOk = true)
include hflags

theorem State.check_of_malformed {det : Nat} (hfmt : fmt s c.desc = some det) :
    s.check row fmt own c = s.complete c.ring c.idx c.desc (vBad det) := by
  simp [State.check, hop, hflags, hfmt]

variable (hfmt : fmt s c.desc = none)
include hfmt

theorem State.check_of_unpermitted (hperm : s.permitted c.ring row = false) :
    s.check row fmt own c = s.complete c.ring c.idx c.desc { status := .auth } := by
  simp [State.check, hop, hflags, hfmt, hperm]

variable (hperm : s.permitted c.ring row = true)
include hperm

theorem State.check_of_mode {det : Nat} (hmode : s.modeRefusal c.desc = some det) :
    s.check row fmt own c = s.complete c.ring c.idx c.desc (vMode det) := by
  simp [State.check, hop, hflags, hfmt, hperm, hmode]

section Owned

variable (hmode : s.modeRefusal c.desc = none) {t : State} {v : Verdict} (hown : own c s = (t, v))
include hmode hown

theorem State.check_of_final (hv : v.status.keeps = false) :
    s.check row fmt own c = t.complete c.ring c.idx c.desc v := by
  simp [State.check, hop, hflags, hfmt, hperm, hmode, hown, hv]

theorem State.check_of_full (hv : v.status.keeps = true) (hfull : 64 ≤ s.hst.kept.length) :
    s.check row fmt own c = s.complete c.ring c.idx c.desc (vBusy 9) := by
  simp [State.check, hop, hflags, hfmt, hperm, hmode, hown, hv, hfull]

theorem State.check_of_kept (hv : v.status.keeps = true) (hroom : s.hst.kept.length < 64) :
    s.check row fmt own c = (t.keep { seq := c.seq, ring := c.ring, idx := c.idx, desc := c.desc
                                      deferred := decide (v.status = .deferred), since := s.sys.k }).showKept.complete
      c.ring c.idx c.desc v := by
  simp [State.check, State.keep, hop, hflags, hfmt, hperm, hmode, hown, hv, Nat.not_le.2 hroom]

end Owned

end RowOpcode

end Check

/-- A ring command that comes up is completed as its check says. -/
theorem exec_of_check {c : Instr} {op : Nat} {r : RingIx} {d : Desc} {resp : Bytes} {fmt : Format} {own : Owner}
    (hc : ringRow c = some (op, r, d, resp)) (hrow : rowOf op resp = (fmt, own)) {s t : State} {v : Verdict}
    (hup : s.comesUp r d) (h : (s.taken r).check op fmt own (s.cmdOf r d) = t.complete r (s.nextIx r) d v) :
    exec c s = .next (s.completed t r d v) := by
  rw [exec_up hc hrow hup, h, State.completed]

/-- Settles O20: each outcome of the check, in the order of its steps. -/
theorem ringChecksInOrder : Obligations.RingChecksInOrder := by
  intro c s op r d resp fmt own hc hrow hup
  refine ⟨?opcode, ?flags, ?form, ?permission, ?mode⟩
  case opcode => exact fun hop => exec_of_check hc hrow hup (State.check_of_otherOpcode hop)
  case flags => exact fun hop hf => exec_of_check hc hrow hup (State.check_of_badFlags hop hf)
  case form => exact fun det hop hf hfmt => exec_of_check hc hrow hup (State.check_of_malformed hop hf hfmt)
  case permission =>
    exact fun hop hf hfmt hperm => exec_of_check hc hrow hup (State.check_of_unpermitted hop hf hfmt hperm)
  case mode =>
    exact fun det hop hf hfmt hperm hmode => exec_of_check hc hrow hup (State.check_of_mode hop hf hfmt hperm hmode)

/-- Settles O22: what the owner decides is final, finds the table full, or enters it. -/
theorem ownerDecidesLast : Obligations.OwnerDecidesLast := by
  rintro c s t op r d resp fmt own v hc hrow ⟨hup, hop, hf, hfmt, hperm, hmode⟩ hown
  refine ⟨?final, ?full, ?kept⟩
  case final => exact fun hv => exec_of_check hc hrow hup (State.check_of_final hop hf hfmt hperm hmode hown hv)
  case full =>
    exact fun hv hfull => exec_of_check hc hrow hup (State.check_of_full hop hf hfmt hperm hmode hown hv hfull)
  case kept =>
    exact fun hv hroom => exec_of_check hc hrow hup (State.check_of_kept hop hf hfmt hperm hmode hown hv hroom)

/-! ### Posted rings (R108, R110, R111) -/

section Posted

variable {s : State} {r : RingIx} {d : Desc}

/-- A descriptor of its ring's opcode that the fetch decides nothing about waits behind those before it. -/
theorem State.post_of_undecided {row : Nat} {frame : Bytes} {outcome : State → Option (Nat × Nat)}
    (hevt : r.val ≠ evtq) (hr : 4 ≤ r.val) (hh : s.hasDesc r = true) (hop : d.opcode.toNat = row)
    (hring : ringOpcode r = row) (ho : outcome (s.taken r) = none) : s.post r row d frame outcome =
      (s.taken r).enqueue { ring := r, idx := s.nextIx r, desc := d, frame := frame, bad := none } := by
  have hup : s.takeUp r = (s.nextIx r, s.hst.fetchSeq, s.taken r) := rfl
  simp [State.post, hevt, Nat.not_lt.2 hr, hh, hup, hop, hring, ho]

theorem fmtOutcome_of_good {fmt : Format} (hflags : d.flagsOk = true) (hfence : d.fence = false)
    (hfmt : fmt s d = none) : fmtOutcome fmt d s = none := by
  simp [fmtOutcome, hflags, hfence, hfmt]

theorem ringOpcode_telemetry (h4 : 4 ≤ r.val) (h12 : r.val < 12) : ringOpcode r = 0xC0 := by
  simp [ringOpcode, Nat.not_lt.2 h4, h12]

theorem ringOpcode_transmit (h13 : 13 ≤ r.val) (h21 : r.val < 21) : ringOpcode r = 0xA0 := by
  unfold ringOpcode
  rw [if_neg (by omega), if_neg (by omega), if_pos h21]

theorem ringOpcode_receive (h21 : 21 ≤ r.val) : ringOpcode r = 0xB0 := by
  unfold ringOpcode
  rw [if_neg (by omega), if_neg (by omega), if_neg (by omega)]

end Posted

/-- Settles O31: each posted ring takes the opcode that is its own. -/
theorem buffersWaitInTheirRings : Obligations.BuffersWaitInTheirRings := by
  rintro s r d hs hh hflags hfence u rfl waits rfl
  refine ⟨fun h4 h12 hop hfmt => ?telemetry, fun h21 hop hfmt => ?receive, fun frame h13 h21 hop ho => ?transmit⟩
  case telemetry =>
    exact exec_of_effect (.inl hs) (State.post_of_undecided (by unfold evtq; omega) h4 hh (by rw [hop]; rfl)
      (ringOpcode_telemetry h4 h12) (fmtOutcome_of_good hflags hfence hfmt))
  case receive =>
    exact exec_of_effect (.inl hs) (State.post_of_undecided (by unfold evtq; omega) (by omega) hh (by rw [hop]; rfl)
      (ringOpcode_receive h21) (fmtOutcome_of_good hflags hfence hfmt))
  case transmit =>
    exact exec_of_effect (.inl hs) (State.post_of_undecided (by unfold evtq; omega) (by omega) hh (by rw [hop]; rfl)
      (ringOpcode_transmit h13 h21) ho)

end Sys2Proof.Machine
end

section
/-! SUPPORT. Doorbells, enable and disable of rings, and failed accesses, each by the case of its rule that holds (R88,
R90, R93 to R95). -/

set_option Elab.async false

namespace Sys2Proof.Machine

open Sys2Proof

section Rings

variable {s : State}

/-! ### Doorbells (R93, R94) -/

section Doorbell

variable {r i : Nat}

theorem State.doorbell_of_stopped (hrun : s.ringRuns r = false) : s.doorbell r i = s := if_pos (by rw [hrun]; rfl)

variable (hrun : s.ringRuns r = true)
include hrun

/-- An index within the ring from CONS and from PROD is the new PROD, up to which descriptors are fetched. -/
theorem State.doorbell_of_within {w : State}
    (hcons : (i + 65536 - s.rd (R.HST_RING_STAT_CONS r)) % 65536 ≤ s.ringSize r)
    (hprod : (i + 65536 - s.rd (R.HST_RING_STAT_PROD r)) % 65536 ≤ s.ringSize r)
    (hw : w = (s.wr (R.HST_RING_STAT_PROD r) i).modRing r (fun g => { g with fetched := i })) :
    s.doorbell r i = if i ≠ s.rd (R.HST_RING_STAT_PROD r) ∧ r < 4 then w.restartWatch else w := by
  unfold State.doorbell
  rw [if_neg (by simp [hrun]), if_pos ⟨hcons, hprod⟩, hw]

theorem State.doorbell_of_outside
    (hout : s.ringSize r < (i + 65536 - s.rd (R.HST_RING_STAT_CONS r)) % 65536 ∨
      s.ringSize r < (i + 65536 - s.rd (R.HST_RING_STAT_PROD r)) % 65536) : s.doorbell r i = s.doorbellBad r := by
  unfold State.doorbell
  rw [if_neg (by simp [hrun]), if_neg (by omega)]

end Doorbell

section Consumer

variable {i : Nat} (hrun : s.ringRuns evtq = true)
include hrun

theorem State.consumed_of_within (h : (i + 65536 - s.rd (R.HST_RING_STAT_PROD evtq)) % 65536 ≤
      (s.rd (R.HST_RING_STAT_CONS evtq) + 65536 - s.rd (R.HST_RING_STAT_PROD evtq)) % 65536) :
    s.consumed i = (s.wr (R.HST_RING_STAT_PROD evtq) i).flushHost := by
  unfold State.consumed
  rw [if_neg (by simp [hrun]), if_pos h]

theorem State.consumed_of_outside (h : (s.rd (R.HST_RING_STAT_CONS evtq) + 65536 - s.rd (R.HST_RING_STAT_PROD evtq)) %
      65536 < (i + 65536 - s.rd (R.HST_RING_STAT_PROD evtq)) % 65536) : s.consumed i = s.doorbellBad evtq := by
  unfold State.consumed
  rw [if_neg (by simp [hrun]), if_neg (by omega)]

end Consumer

/-- A doorbell of a posted ring acts on the state in which its word is written. -/
theorem State.doorbellWrite_posted {r : RingIx} {v : Word} (hr : r ≠ 12) (hd : s.decodes (0x8118 + 0x20 * r) = true) :
    s.doorbellWrite r v = (s.written (0x8118 + 0x20 * r) v).doorbell r (v.toNat % 65536) := by
  have hevt : r.val ≠ evtq := fun h => hr (Fin.ext h)
  unfold State.doorbellWrite
  rw [if_neg (by omega), hostWrite_written hd, if_neg hevt]

theorem State.doorbellWrite_events {v : Word} (hd : s.decodes 0x8298 = true) :
    s.doorbellWrite evtq v = (s.written 0x8298 v).consumed (v.toNat % 65536) :=
  hostWrite_written hd fun u => u.consumed (v.toNat % 65536)

/-- With as many records as entries the event ring is full (R94). -/
theorem State.evtqReady_of_full (h : (s.rd (R.HST_RING_STAT_CONS evtq) + 65536 - s.rd (R.HST_RING_STAT_PROD evtq)) %
      65536 = s.ringSize evtq) : s.evtqReady = false := by
  unfold State.evtqReady
  rw [h, decide_eq_false (Nat.lt_irrefl _), Bool.and_false]

end Rings

/-- Settles O33: each doorbell by where its index lies. -/
theorem doorbellsMoveTheRings : Obligations.DoorbellsMoveTheRings := by
  refine ⟨?posted, ?events⟩
  case posted =>
    rintro s u r v i hs hr hd rfl rfl
    have hexec {t : State} (ht : (s.written (0x8118 + 0x20 * r) v).doorbell r (v.toNat % 65536) = t) :
        exec (.ringDoorbell r ⟨v, false⟩) s = .next t.settle :=
      exec_of_effect (.inl hs) ((State.doorbellWrite_posted hr hd).trans ht)
    exact ⟨fun hrun => hexec (State.doorbell_of_stopped hrun),
      fun hrun hcons hprod w hw => hexec (State.doorbell_of_within hrun hcons hprod hw),
      fun hrun hout => hexec (State.doorbell_of_outside hrun hout), exec_of_effect (.inl hs) rfl⟩
  case events =>
    rintro s u v i hs hd rfl rfl hrun
    have hexec {t : State} (ht : (s.written 0x8298 v).consumed (v.toNat % 65536) = t) :
        exec (.eventRingConsumerWrite v) s = .next t.settle :=
      exec_of_effect (.inl hs) ((State.doorbellWrite_events hd).trans ht)
    exact ⟨fun h => hexec (State.consumed_of_within hrun h), fun h => hexec (State.consumed_of_outside hrun h),
      State.evtqReady_of_full⟩

section Setup

variable {s : State}

/-! ### Enable and disable (R90, R95) -/

/-- A field's value is that of its bits. -/
theorem Fld.get_of_sameBits (f : Fld) {w v : Word}
    (h : ∀ j < f.width, w.getLsbD (f.lsb + j) = v.getLsbD (f.lsb + j)) : f.get w = f.get v := by
  refine Nat.eq_of_testBit_eq fun j => ?_
  by_cases hj : j < f.width
  · rw [Fld.testBit_get f w hj, Fld.testBit_get f v hj, h j hj]
  · unfold Fld.get
    simp [Nat.testBit_mod_two_pow, hj]

/-! Setting or clearing ENABLE, bit 31, leaves SIZE_LOG2. -/

theorem ringSize_of_enabled (r : Nat) (v : Word) :
    (R.HST_RING_CTL_SIZE_LOG2 r).get (v ||| 0x80000000#32) = (R.HST_RING_CTL_SIZE_LOG2 r).get v := by
  have hlow : ∀ j < (R.HST_RING_CTL_SIZE_LOG2 r).width,
      (0x80000000#32).getLsbD ((R.HST_RING_CTL_SIZE_LOG2 r).lsb + j) = false :=
    show ∀ j < 4, (0x80000000#32).getLsbD (0 + j) = false by decide
  exact Fld.get_of_sameBits _ fun j hj => by rw [BitVec.getLsbD_or, hlow j hj, Bool.or_false]

theorem ringSize_of_disabled (r : Nat) (v : Word) :
    (R.HST_RING_CTL_SIZE_LOG2 r).get (v &&& 0x7FFFFFFF#32) = (R.HST_RING_CTL_SIZE_LOG2 r).get v := by
  have hlow : ∀ j < (R.HST_RING_CTL_SIZE_LOG2 r).width,
      (0x7FFFFFFF#32).getLsbD ((R.HST_RING_CTL_SIZE_LOG2 r).lsb + j) = true :=
    show ∀ j < 4, (0x7FFFFFFF#32).getLsbD (0 + j) = true by decide
  exact Fld.get_of_sameBits _ fun j hj => by rw [BitVec.getLsbD_and, hlow j hj, Bool.and_true]

theorem getLsbD_uncommit (v : Word) : (v &&& 0x7FFFFFFF#32).getLsbD 31 = false := by
  rw [BitVec.getLsbD_and, show (0x7FFFFFFF#32).getLsbD 31 = false from rfl, Bool.and_false]

/-- With the ring's size as it stands, a write of `HST_RING_CTL` enables or disables, and no more. -/
theorem State.ringCtl_of_sameSize {r : RingIx} {v : Word} {u : State} (n : Nat)
    (hd : s.decodes (0x8108 + 0x20 * r) = true)
    (hsize : (R.HST_RING_CTL_SIZE_LOG2 r).get v = s.rd (R.HST_RING_CTL_SIZE_LOG2 r))
    (hu : u = s.written (0x8108 + 0x20 * r) ((R.HST_RING_CTL_ENABLE r).put v (s.rd (R.HST_RING_CTL_ENABLE r)))) :
    s.ringCtl r v n =
      if v.getLsbD 31 then
        if u.is (R.HST_RING_CTL_ENABLE r) then u
        else if u.is (R.HST_RING_STATE_QUIESCED r) then u.enableRing r
        else u.wrB (R.HST_RING_STATE_ENABLE_PENDING r) true
      else u.disableRing r n := by
  subst hu
  unfold State.ringCtl
  rw [if_neg (by omega)]
  simp only [hsize, hostWrite_written hd, ne_eq, not_true_eq_false, decide_false, Bool.and_false, Bool.false_and,
    Bool.false_eq_true, if_false]

/-- A ring starts from index 0; held records go out into the event ring. -/
theorem State.enableRing_eq {r : RingIx} {y : State}
    (hy : y = (((((((s.wrB (R.HST_RING_CTL_ENABLE r) true).wrB (R.HST_RING_STATE_QUIESCED r) false).wrB
      (R.HST_RING_STATE_HALTED r) false).wrB (R.HST_RING_STATE_ENABLE_PENDING r) false).wr
      (R.HST_RING_STAT_PROD r) 0).wr (R.HST_RING_STAT_CONS r) 0).modRing r fun _ => {}).indexWord r) :
    s.enableRing r = if r = 12 then y.flushHost else y := by
  subst hy
  have hevt : r.val = evtq ↔ r = 12 := ⟨fun h => Fin.ext h, fun h => by rw [h]; rfl⟩
  simp only [State.enableRing, hevt]

/-- A ring that runs is disabled where fetching stands. -/
theorem State.disableRing_of_running {r n : Nat} {x : State}
    (hx : x = s.wrB (R.HST_RING_STATE_ENABLE_PENDING r) false) (hen : x.is (R.HST_RING_CTL_ENABLE r) = true)
    (hhalt : x.is (R.HST_RING_STATE_HALTED r) = false) (hn : idxWithin (x.ring r).fetch n (x.ring r).fetched = true) :
    s.disableRing r n = (x.wrB (R.HST_RING_CTL_ENABLE r) false).modRing r fun g => { g with fetched := n } := by
  unfold State.disableRing
  rw [← hx]
  dsimp only
  rw [if_pos hen, hhalt, hn]
  rfl

theorem State.ringQuiesced_of_finished {r : RingIx} {t u v : State} (hen : s.is (R.HST_RING_CTL_ENABLE r) = false)
    (hq : s.is (R.HST_RING_STATE_QUIESCED r) = false) (hf : (s.ring r).fetch = (s.ring r).fetched)
    (hheld : (s.hst.held.any fun h => decide (h.ring = r.val)) = false)
    (hwb : (s.hst.heldWb.any fun w => decide (w.ring = r.val)) = false)
    (ht : t = each (s.postedOf r) (fun s p => s.wbPosted r p.idx p.desc 0 4 0 0 0) s)
    (hu : u = { t with hst := { t.hst with posted := t.hst.posted.filter fun p => p.ring ≠ r.val } })
    (hv : v = u.wrB (R.HST_RING_STATE_QUIESCED r) true) :
    s.ringQuiesced r = if v.is (R.HST_RING_STATE_ENABLE_PENDING r) then v.enableRing r else v := by
  subst hv hu ht
  unfold State.ringQuiesced
  rw [if_neg (by simp [hen, hq, hf, hheld, hwb])]
  rfl

/-! ### Failed accesses (R88) -/

theorem State.dmaError_of_active {r : RingIx} (a : Nat) (w : Bool)
    (h : s.is (R.HST_RING_CTL_ENABLE r) = true ∨ s.is (R.HST_RING_STATE_QUIESCED r) = false) :
    s.dmaError r a w = ((s.wrB (R.HST_RING_STATE_HALTED r) true).raiseWith 0x00B r
      { addr := a, master := 0, access := if w then 4 else 3 }).ringError r 2 := by
  refine if_neg ?_
  rcases h with h | h <;> simp [h]

theorem State.dmaError_of_quiesced {r : Nat} (a : Nat) (w : Bool) (hen : s.is (R.HST_RING_CTL_ENABLE r) = false)
    (hq : s.is (R.HST_RING_STATE_QUIESCED r) = true) : s.dmaError r a w = s :=
  if_pos (by simp [hen, hq])

end Setup

/-- Settles O34: an enable or a disable by how the ring stands, a ring that has finished by what it leaves. -/
theorem ringsStartAndStop : Obligations.RingsStartAndStop := by
  refine ⟨?control, ?quiesced⟩
  case control =>
    intro s u w r v n hs hd hsize hu hw
    have hon := State.ringCtl_of_sameSize 0 hd ((ringSize_of_enabled r v).trans hsize) hu
    have hoff := State.ringCtl_of_sameSize n.toNat hd ((ringSize_of_disabled r v).trans hsize) hw
    rw [if_pos (getLsbD_commit v)] at hon
    refine ⟨fun y hen hq hy => ?starts, fun hen hq => ?waits, fun hen => ?goesOn, fun x hx hen hhalt hn => ?stops⟩
    case starts =>
      refine exec_of_effect (.inl hs) (hon.trans ?_)
      rw [if_neg (by simp [hen]), if_pos hq, State.enableRing_eq hy]
    case waits => exact exec_of_effect (.inl hs) (hon.trans (by simp [hen, hq]))
    case goesOn => exact exec_of_effect (.inl hs) (hon.trans (if_pos hen))
    case stops =>
      refine exec_of_effect (.inl hs) (hoff.trans ?_)
      rw [getLsbD_uncommit, if_neg Bool.false_ne_true, State.disableRing_of_running hx hen hhalt hn]
  case quiesced =>
    intro s r t u v hs hen hq hf hheld hwb ht hu hv
    exact exec_of_effect (.inl hs) (State.ringQuiesced_of_finished hen hq hf hheld hwb ht hu hv)

/-- Settles O35: the ring halts, or has no access under way. -/
theorem failedAccessHaltsTheRing : Obligations.FailedAccessHaltsTheRing := by
  intro s r a w hs
  exact ⟨fun h => exec_of_effect (.inl hs) (State.dmaError_of_active a.toNat w h),
    fun hen hq => exec_of_effect (.inl hs) (State.dmaError_of_quiesced a.toNat w hen hq)⟩

end Sys2Proof.Machine
end

section
/-! SUPPORT. Where an event record goes (R112 to R114), and what the causes of R87 leave of rings and link. -/

set_option Elab.async false

namespace Sys2Proof.Machine

open Sys2Proof

/-! ### Event records (R112 to R114) -/

section Events

variable {s : State}

theorem State.event_of_full (h : 64 ≤ s.heldCount) (cls code : Nat) (pay : List (Nat × Nat × Nat)) :
    s.event cls code pay = State.inc { s with hst := { s.hst with
      evSeq := s.hst.evSeq + 1, lossOpen := some (s.hst.lossOpen.getD 0 + 1) } } R.HST_EVT_STAT_LOST := if_pos h

theorem State.placeLost_of_none (h : s.hst.lossOpen = none) : s.placeLost = s := by
  unfold State.placeLost
  rw [h]

/-- With room for it and no loss to report, a record takes its SEQ and its place. -/
theorem State.event_of_room {e : Event} {u : State} {cls code : Nat} {pay : List (Nat × Nat × Nat)}
    (hroom : s.heldCount < 64) (hloss : s.hst.lossOpen = none)
    (hu : u = { s with hst := { s.hst with evSeq := s.hst.evSeq + 1 } })
    (he : e = ⟨cls, code, s.cycleNum, s.hst.evSeq.toNat, s.plantNs,
      layBytes 16 (pay.map fun (o, n, v) => (o - 16, n, v))⟩) :
    s.event cls code pay = (u.placeEvent e).showHeld := by
  subst hu he
  unfold State.event
  rw [if_neg (by omega), State.placeLost_of_none hloss]
  rfl

theorem State.placeEvent_of_ready (hstore : s.hst.store = []) (hready : s.evtqReady = true) (e : Event) :
    s.placeEvent e = s.writeEvent e :=
  if_pos (by rw [hstore, hready]; rfl)

theorem State.placeEvent_of_held (h : s.hst.store ≠ [] ∨ s.evtqReady = false) (e : Event) :
    s.placeEvent e = { s with hst := { s.hst with store := s.hst.store ++ [e] } } := by
  refine if_neg ?_
  rcases h with h | h <;> simp [h]

/-- The oldest of the held records is written first. -/
theorem State.drainStore_of_ready {e : Event} {t : List Event} (hstore : s.hst.store = e :: t)
    (hready : s.evtqReady = true) (n : Nat) :
    s.drainStore (n + 1) = (State.writeEvent { s with hst := { s.hst with store := t } } e).drainStore n := by
  rw [State.drainStore, hstore]
  exact if_pos hready

end Events

/-- Settles O36: a record is lost, written or held by what stands before it. -/
theorem eventsTakeTheirPlaces : Obligations.EventsTakeTheirPlaces := by
  intro s cls code pay
  refine ⟨fun h => State.event_of_full h cls code pay, ?placed, fun e c hc => ?written,
    fun n e t hstore hready => State.drainStore_of_ready hstore hready n⟩
  case placed =>
    intro e u hroom hloss hu he
    have hplace := State.event_of_room hroom hloss hu he
    have hstore : u.hst.store = s.hst.store := by rw [hu]
    have hready : u.evtqReady = s.evtqReady := by rw [hu]; rfl
    exact ⟨fun h hr => hplace.trans (by rw [State.placeEvent_of_ready (hstore.trans h) (hready.trans hr)]),
      fun h => hplace.trans (by rw [State.placeEvent_of_held (by rwa [hstore, hready])])⟩
  case written =>
    rw [hc]
    rfl

/-! ### Rings disabled by a cause of R87 -/

section Dropped

variable {s : State}

theorem ringEnable_fits (r : Nat) : (R.HST_RING_CTL_ENABLE r).fits := show 31 + 1 ≤ 32 by decide

theorem ringPending_fits (r : Nat) : (R.HST_RING_STATE_ENABLE_PENDING r).fits := show 3 + 1 ≤ 32 by decide

theorem ringEnable_apart {r q : Nat} (h : q ≠ r) : (R.HST_RING_CTL_ENABLE r).apart (R.HST_RING_CTL_ENABLE q) :=
  .inl (show 0x8108 + 0x20 * r ≠ 0x8108 + 0x20 * q by omega)

theorem ringPending_apart (r q : Nat) : (R.HST_RING_STATE_ENABLE_PENDING r).apart (R.HST_RING_CTL_ENABLE q) :=
  .inl (show 0x8114 + 0x20 * r ≠ 0x8108 + 0x20 * q by omega)

theorem State.is_wrB_same (hwf : s.regsWf = true) {f : Fld} (hf : f.fits) : (s.wrB f false).is f = false := by
  have hrd : (s.wrB f false).rd f = 0 := (State.rd_wr_same hwf f hf 0).trans (Nat.zero_mod _)
  simp [State.is, hrd]

theorem State.is_wrB_apart (hwf : s.regsWf = true) {f g : Fld} (hf : f.fits) (ha : f.apart g) (b : Bool) :
    (s.wrB f b).is g = s.is g := by
  unfold State.is
  rw [show (s.wrB f b).rd g = s.rd g from State.rd_wr_apart hwf f g hf _ ha]

theorem State.is_eq_of_regs {t : State} (h : t.regs = s.regs) (f : Fld) : t.is f = s.is f := by
  unfold State.is State.rd State.reg
  rw [h]

/-- The register writes of a disable. -/
theorem State.disableRing_is (s : State) (r n : Nat) (f : Fld) {t : State}
    (ht : t = s.wrB (R.HST_RING_STATE_ENABLE_PENDING r) false) : (s.disableRing r n).is f =
      if t.is (R.HST_RING_CTL_ENABLE r) then (t.wrB (R.HST_RING_CTL_ENABLE r) false).is f else t.is f := by
  unfold State.disableRing
  rw [← ht]
  dsimp only
  split
  · exact State.is_eq_of_regs (State.modRing_regs ..) f
  · rfl

theorem State.disableRing_off (hwf : s.regsWf = true) (r n : Nat) :
    (s.disableRing r n).is (R.HST_RING_CTL_ENABLE r) = false := by
  rw [State.disableRing_is s r n _ rfl]
  split
  · exact State.is_wrB_same (State.wr_regsWf hwf _ _) (ringEnable_fits r)
  · exact Bool.eq_false_iff.2 ‹_›

/-- A ring that is disabled leaves the others as they are. -/
theorem State.disableRing_other (hwf : s.regsWf = true) {r q : Nat} (h : q ≠ r) (n : Nat) :
    (s.disableRing r n).is (R.HST_RING_CTL_ENABLE q) = s.is (R.HST_RING_CTL_ENABLE q) := by
  rw [State.disableRing_is s r n _ rfl,
    State.is_wrB_apart (s := s.wrB _ false) (State.wr_regsWf hwf _ _) (ringEnable_fits r) (ringEnable_apart h),
    ite_self, State.is_wrB_apart hwf (ringPending_fits r) (ringPending_apart r q)]

/-- One ring disabled by a cause of R87. -/
def State.dropRing (s : State) (r : Nat) : State :=
  let t := s.disableRing r (s.ring r).fetched
  if s.is (R.HST_RING_CTL_ENABLE r) then t.dropWriteBacks r else t

theorem State.dropRings_eq (s : State) : s.dropRings = each allRings State.dropRing s := rfl

theorem State.dropRing_regs (s : State) (r : Nat) :
    (s.dropRing r).regs = (s.disableRing r (s.ring r).fetched).regs := by
  unfold State.dropRing
  dsimp only
  split <;> rfl

theorem State.dropRing_regsWf (hwf : s.regsWf = true) (r : Nat) : (s.dropRing r).regsWf = true := by
  unfold State.regsWf
  rw [State.dropRing_regs]
  exact ((Keeps.refl s).disableRing r _).regs hwf

/-- A ring that is dropped, or was disabled already, is disabled. -/
theorem State.dropRing_off (hwf : s.regsWf = true) {r q : Nat}
    (h : s.is (R.HST_RING_CTL_ENABLE q) = false ∨ q = r) : (s.dropRing r).is (R.HST_RING_CTL_ENABLE q) = false := by
  rw [State.is_eq_of_regs (State.dropRing_regs s r)]
  by_cases hq : q = r
  · rw [hq]
    exact State.disableRing_off hwf r _
  · rw [State.disableRing_other hwf hq]
    exact h.resolve_right hq

theorem State.each_dropRing_off {r : Nat} (rs : List Nat) (hwf : s.regsWf = true)
    (h : s.is (R.HST_RING_CTL_ENABLE r) = false ∨ r ∈ rs) :
    (each rs State.dropRing s).is (R.HST_RING_CTL_ENABLE r) = false := by
  induction rs generalizing s with
  | nil => exact h.resolve_right List.not_mem_nil
  | cons q rs ih =>
    refine ih (State.dropRing_regsWf hwf q) ?_
    rcases h with h | h
    · exact .inl (State.dropRing_off hwf (.inl h))
    · exact (List.mem_cons.1 h).imp_left fun hr => State.dropRing_off hwf (.inr hr)

/-- A cause of R87 leaves no ring enabled. -/
theorem State.dropRings_off (hwf : s.regsWf = true) (r : RingIx) :
    s.dropRings.is (R.HST_RING_CTL_ENABLE r) = false :=
  State.dropRings_eq s ▸ State.each_dropRing_off allRings hwf (.inr (List.mem_range.2 r.isLt))

/-! ### Link states (R87) -/

/-- The link comes up where `PERST_N` is high and its clock runs, and so do the main domains. -/
theorem State.linkUps_of_clocked (hs : s.collects = true) (hp : s.hst.perstHigh = true) (hb : s.onBackup 10 = false) :
    s.linkUps = ({ s with hst := { s.hst with linkUp := true } } : State).flushHost :=
  if_pos (by rw [hp, hb]; exact hs)

end Dropped

/-- Settles O37: each cause by what it sets, and the rings by that each is dropped. -/
theorem linkStatesAndResets : Obligations.LinkStatesAndResets := by
  refine ⟨fun s hs => ⟨?down, ?up, ?d3hot, ?d0, ?masterSet, ?masterCleared⟩, fun s => ⟨?perst, ?release, ?reset⟩,
    fun s r hwf => State.dropRings_off hwf r⟩
  case down => exact exec_of_effect (.inl hs) rfl
  case up => exact fun hp hb => exec_of_effect (.inl hs) (State.linkUps_of_clocked hs hp hb)
  case d3hot => exact fun hp => exec_of_effect (.inl hs) (if_pos hp)
  case d0 => exact fun hp => exec_of_effect (.inl hs) (if_pos hp)
  case masterSet => exact fun hp hl => exec_of_effect (.inl hs) (if_pos (by rw [hp, hl]; rfl))
  case masterCleared => exact fun hp => exec_of_effect (.inl hs) (if_neg (by rw [hp]; exact Bool.false_ne_true))
  case perst =>
    rintro h rfl
    exact exec_of_effect (.inr rfl) rfl
  case release => exact exec_of_effect (.inr rfl) rfl
  case reset => exact fun hs hp => exec_of_effect (.inl hs) (if_neg (by rw [hp]; exact Bool.false_ne_true))

end Sys2Proof.Machine
end

section
/-! SUPPORT. What goes out of the host link while it can, telemetry blocks, and the watchdog (R106 to R108, R114, R116,
R118 to R121). -/

set_option Elab.async false

namespace Sys2Proof.Machine

open Sys2Proof

section HostLink

variable {s : State}

/-! ### Messages (R116) -/

theorem State.holdoff_of_gathered {r : RingIx} (h : 0 < (s.ring r).gathered) : s.holdoff r = s.ringMessage r :=
  if_pos (by simp [h])

/-- An unmasked vector is sent where it was pending. -/
theorem State.unmask_eq (v : Fin 32) (enable mask : Bool) {m : List (Nat × Word)}
    (hm : m = SMap.put msixReset s.hst.msixTable (0x80000 + 16 * v + 12)
      (SMap.get msixReset s.hst.msixTable (0x80000 + 16 * v + 12) &&& ~~~1#32)) :
    s.unmask v enable mask =
      State.sendPending { s with hst := { s.hst with msixTable := m, msixEnable := enable, msixMask := mask } } := by
  subst hm
  exact if_neg (by omega)

/-! ### Telemetry (R106 to R108) -/

theorem or_commit_of_set {v : Word} (h : v.getLsbD 31 = true) : v ||| 0x80000000#32 = v := by
  refine BitVec.eq_of_getLsbD_eq fun i hi => ?_
  have hbit : (0x80000000#32).getLsbD i = decide (i = 31) := by
    revert i
    decide
  rw [BitVec.getLsbD_or, hbit]
  by_cases h31 : i = 31
  · rw [h31, h, Bool.true_or]
  · rw [decide_eq_false h31, Bool.or_false]

/-- An enable of a stream that is off, which nothing of Table 4.13 refuses, takes the item list. -/
theorem State.tlmCtl_of_granted {i : Fin 8} {u : State} {v : Word} {list : Option (List Word)}
    (hd : s.decodes (0x8400 + 0x10 * i) = true) (hoff : s.is (R.HST_TLM_CTL_ENABLE i) = false)
    (hv : v.getLsbD 31 = true) (hu : u = s.written (0x8400 + 0x10 * i) v) (hr : u.tlmRefused i list = none) :
    s.tlmCtl i v list = (u.wr (R.HST_TLM_STAT_DROPPED i) 0).setStream i
      { items := (list.getD []).take (u.rd (R.HST_TLM_CTL_ITEMS i)), gap := 0, last := 0 } := by
  subst hu
  unfold State.tlmCtl
  rw [if_neg (by omega)]
  simp only [hoff, hv, hostWrite_written hd, hr, Bool.false_and, Bool.not_true, Bool.or_self, Bool.false_eq_true,
    if_false]

section Block

variable {i : Fin 8} {x : Stream} (hen : s.is (R.HST_TLM_CTL_ENABLE i) = true)
  (hp : s.power = .run ∨ s.power = .hold) (hk : s.sys.k % s.rd (R.HST_TLM_CTL_DECIM i) = 0)
  (hl : x.last ≠ s.sys.k + 1)
include hen hp hk hl

theorem State.block_due : (decide (i.val < 8) && s.is (R.HST_TLM_CTL_ENABLE i) &&
    (decide (s.power = .run) || decide (s.power = .hold)) &&
    decide (s.sys.k % s.rd (R.HST_TLM_CTL_DECIM i) = 0) && decide (x.last ≠ s.sys.k + 1)) = true := by
  rcases hp with hp | hp <;> simp [hen, hp, hk, hl]

variable (hx : x = s.stream i)
include hx

/-- A block that is due goes to the head buffer of its ring, with its size. -/
theorem State.blockWrite_of_buffer {p : Posted} {rest : List Posted} (hq : s.postedOf (4 + i) = p :: rest)
    (hdma : s.canDma = true) (hhalt : s.is (R.HST_RING_STATE_HALTED (4 + i)) = false)
    (hsize : blockBytes x.items ≤ p.desc.le 12 4) : s.blockWrite i =
      ((s.emit (.telemetry (p.desc.le 4 8) (s.blockOf i x))).setStream i
        { x with gap := 0, last := s.sys.k + 1 }).completePosted
        (4 + i) (blockBytes x.items) 0 (if x.gap = 0 then 0 else 8) 0 s.cycleNum := by
  unfold State.blockWrite
  dsimp only
  rw [← hx, State.block_due hen hp hk hl, Bool.not_true, if_neg Bool.false_ne_true, hq]
  dsimp only
  rw [if_neg (by simp [hdma, hhalt]), if_neg (by omega)]
  rfl

/-- With no buffer, no DMA or a halted ring it is dropped and counted. -/
theorem State.blockWrite_of_none (h : s.postedOf (4 + i) = [] ∨ s.canDma = false ∨
      s.is (R.HST_RING_STATE_HALTED (4 + i)) = true) : s.blockWrite i = s.dropBlock i x := by
  unfold State.blockWrite
  dsimp only
  rw [← hx, State.block_due hen hp hk hl, Bool.not_true, if_neg Bool.false_ne_true]
  rcases h with hq | h
  · rw [hq]
  · split
    · rfl
    · exact if_pos (by rcases h with h | h <;> simp [h])

end Block

/-! ### Watchdog and plans (R118 to R121) -/

theorem State.watchWarn_of_first (hw : s.watching = true) (h : s.hst.warned = false) :
    s.watchWarn = ((({ s with hst := { s.hst with warned := true } } : State).showWatch).event 0 5 []).sendVec 24 :=
  if_pos (by rw [hw, h]; rfl)

/-- An expiry counts, raises its fault, tells the host and resolves every kept command; its role says what follows. -/
theorem State.watchExpired_of_watching {u w : State} {plan : Nat} (hwatch : s.watching = true)
    (hplan : plan = s.rd R.HST_WATCH_PLAN)
    (hu : u = (s.wrB R.HST_WATCH_STAT_EXPIRED true).inc R.HST_WATCH_STAT_EXPIRIES)
    (hw : w = ((({ u with hst := { u.hst with warned := true } } : State).raise 0x00D plan).event 0 6
      [(16, 1, plan), (17, 1, if s.watchSwaps then 1 else 0)]).sendVec 24) :
    s.watchExpired = (w.resolveWhere (fun _ => true) (vMode 2)).expiredIn w.role s.watchSwaps := by
  subst hw hu hplan
  exact if_neg (by rw [hwatch]; exact Bool.false_ne_true)

theorem State.expiredIn_standby (swap : Bool) : s.expiredIn .standby swap =
    ({ s with hst := { s.hst with armed := false, warned := false } } : State).showWatch := rfl

theorem State.expiredIn_plan {r : Role} (hr : r ≠ .standby) : s.expiredIn r false = s.planDue := if_neg hr

theorem State.expiredIn_swap {r : Role} (hr : r ≠ .standby) : s.expiredIn r true =
    State.swapStart { s with hst := { s.hst with watchSwap := some s.sys.k } } 0 true := if_neg hr

/-- The end of a plan's ramp is that of its mark while marks run. -/
theorem State.planRampEnd_of_ramp {p : Plan} {u : State} (hp : s.hst.plan = some p) (hw : p.waiting = false)
    (hc : p.complete = false) (hu : u = s.advanceTo (s.markTime p.since + (s.planRamp : Int))) :
    s.planRampEnd = if u.marksRun then { u with hst := { u.hst with plan := some { p with ended := true } } }
      else (u.rampStep p.start 1 1).planIdle p := by
  subst hu
  unfold State.planRampEnd
  rw [hp]
  dsimp only
  exact if_neg (by simp [hw, hc])

end HostLink

/-- Settles O38: each row by what it finds to send. -/
theorem messagesAndTelemetryGoOut : Obligations.MessagesAndTelemetryGoOut := by
  refine ⟨fun s hs => ⟨?holdoff, ?unmask, ?flush⟩, fun s i hs => ⟨?enable, ?block⟩⟩
  case holdoff => exact fun r h => exec_of_effect (.inl hs) (State.holdoff_of_gathered h)
  case unmask => exact fun v b f m hm => exec_of_effect (.inl hs) (State.unmask_eq v b f hm)
  case flush =>
    rintro u rfl
    exact exec_of_effect (.inl hs) rfl
  case enable =>
    intro u v list hd hoff hv hu hr
    refine exec_of_effect (.inl hs) (Eq.trans ?_ (State.tlmCtl_of_granted hd hoff hv hu hr))
    exact congrArg (fun w => s.tlmCtl i w list) (or_commit_of_set hv)
  case block =>
    intro x hx hen hp hk hl
    refine ⟨fun p rest hq hdma hhalt hsize => ?_, fun h => ?_⟩
    · exact exec_of_effect (.inl hs) (State.blockWrite_of_buffer hen hp hk hl hx hq hdma hhalt hsize)
    · exact exec_of_effect (.inl hs) (State.blockWrite_of_none hen hp hk hl hx h)

/-- Settles O39: the warning, the expiry by its role, and the ramp's end by whether marks run. -/
theorem watchdogWarnsAndExpires : Obligations.WatchdogWarnsAndExpires := by
  refine fun s hs => ⟨?warns, ?expires, ?ramp⟩
  case warns => exact fun hw h => exec_of_effect (.inl hs) (State.watchWarn_of_first hw h)
  case expires =>
    rintro u w _ plan hwatch hplan hu hw rfl
    have he := State.watchExpired_of_watching hwatch hplan hu hw
    refine ⟨fun hr => ?_, fun hr hswap => ?_, fun hr hswap => ?_⟩
    · exact exec_of_effect (.inl hs) (he.trans (by rw [hr, State.expiredIn_standby]))
    · exact exec_of_effect (.inl hs) (he.trans (by rw [hswap, State.expiredIn_plan hr]))
    · exact exec_of_effect (.inl hs) (he.trans (by rw [hswap, State.expiredIn_swap hr]))
  case ramp =>
    intro p u hp hw hc hu
    have he := State.planRampEnd_of_ramp hp hw hc hu
    exact ⟨fun hm => exec_of_effect (.inl hs) (he.trans (if_pos hm)),
      fun hm => exec_of_effect (.inl hs) (he.trans (if_neg (by simp [hm])))⟩

end Sys2Proof.Machine
end

section
/-! SUPPORT. Lanes: what a barge that passes its checks meets, and training by the states of Table 5.2 (R123, R125 to
R129, R159). -/

set_option Elab.async false

namespace Sys2Proof.Machine

open Sys2Proof

/-! ### Barges and lanes -/

/-- A barge that passes its checks is acted on. -/
theorem State.screen_of_ok {b : Barge} (hb : bargeOk b) (s : State) (p : Nat) (f : State → State) :
    s.screen p b f = f s := by
  obtain ⟨hcrc, hlen⟩ := hb
  rw [State.screen, if_neg (not_not_intro hcrc), if_neg (not_not_intro hlen)]

theorem isLink_of_lt {n : Nat} (h : n < 24) : isLink n = false := decide_eq_false (by omega)

theorem isLink_of_ge {n : Nat} (h : 24 ≤ n) : isLink n = true := decide_eq_true h

/-- A Canal lane is no lock-link lane. -/
@[simp] theorem isLink_canal (n : LaneIx) : isLink n = false := isLink_of_lt n.isLt

section Training

variable {s u : State} {n : Nat}

/-! ### Training (R126, R127) -/

theorem State.laneAligned_of_detect (h : s.laneState n = .detect) (xs : List Symbol) :
    s.laneAligned n xs = s.setLane n .align := by
  simp only [State.laneAligned, h]

/-- A lane in ALIGN goes on once its symbols are aligned: a lock-link lane to RUNNING, any other to ENUM. -/
theorem State.laneAligned_of_align (h : s.laneState n = .align) (xs : List Symbol)
    (hu : u = ((s.setLane n .enum).modLane n fun l => { l with hello := false }).endWake (poundOf n)) :
    s.laneAligned n xs = if alignedBy xs then
      (if isLink n then s.enterRunning n else (u.sendTrain n (u.trainHello n)).sendDelayReq n) else s := by
  subst hu
  simp only [State.laneAligned, h]
  cases alignedBy xs <;> rfl

/-- A training state fails to ABSENT; in ENUM that is for want of HELLO. -/
theorem State.laneAbsent_of_training (h : s.laneState n = .detect ∨ s.laneState n = .align ∨
      (s.laneState n = .enum ∧ (s.lane n).hello = false))
    (hu : u = (((s.inc (R.CNL_LANE_STAT_RETRIES n)).laneOff n).setLane n .absent).wrB (R.CNL_LANE_STAT_WAS_ABSENT n) true) :
    s.laneAbsent n = u.event 1 3 [(16, 1, n), (17, 1, (s.laneState n).code),
      (18, 2, backoffMs (u.rd (R.CNL_LANE_STAT_RETRIES n)))] := by
  subst hu
  have hfails : ¬ (s.laneState n = .enum ∧ (s.lane n).hello = true) := by
    rcases h with h | h | ⟨-, hello⟩
    · simp [h]
    · simp [h]
    · simp [hello]
  rw [State.laneAbsent, if_neg hfails]
  rcases h with h | h | ⟨h, -⟩ <;> simp only [h]

theorem State.laneAbsent_of_hello (h : s.laneState n = .enum) (hello : (s.lane n).hello = true) : s.laneAbsent n = s :=
  if_pos ⟨h, hello⟩

theorem State.backoffEnd_of_absent (h : s.laneState n = .absent) : s.backoffEnd n = s.enterDetect n := if_pos h

/-! ### Enumeration (R128) -/

theorem State.helloReceived_of_enum {b : Barge} (hb : bargeOk b) (hlane : isLink n = false) (h : s.laneState n = .enum) :
    s.helloReceived n b = (s.modLane n fun l => { l with
      hello := true, peerRate := leAt b.payload 3 1, settled := false, answered := [] }).sendEnum n := by
  rw [State.helloReceived, State.screen_of_ok hb, if_pos (by simp [h, hlane])]

/-- A REPORT on a lane that has been enumerated is taken, and the repeats start afresh once the pound is covered. -/
theorem State.reportReceived_of_enumerated {b : Barge} (hb : bargeOk b) (hlane : isLink n = false)
    (h : s.laneState n = .enum ∨ s.laneState n = .running ∨ s.laneState n = .step)
    (hu : u = ((if s.is R.RED_CTL_PAIRED then s.sendRelay 1 n b else s).nodeReport n b).showReach n) :
    s.reportReceived n b = if u.fullyReached (poundOf n) then
      each (u.ownLanes (poundOf n)) (fun v m => v.modLane m fun l => { l with enumTries := 0 }) u else u := by
  subst hu
  rw [State.reportReceived, State.screen_of_ok hb]
  exact if_pos (by simpa [hlane, or_assoc] using h)

theorem State.reachSettled_of_canal (hlane : isLink n = false) (hu : u = s.modLane n fun l => { l with settled := true }) :
    s.reachSettled n = (if u.laneState n = .enum then u.leaveEnum n else u).judgeDark (poundOf n) := by
  subst hu
  exact if_neg (by simp [hlane])

theorem State.enumRetry_of_uncovered (hlane : isLink n = false) (hruns : s.runs n = true)
    (hpart : s.fullyReached (poundOf n) = false) :
    s.enumRetry n = (s.modLane n fun l => { l with enumTries := l.enumTries + 1, settled := false }).sendEnum n :=
  if_pos (by simp [hlane, hruns, hpart])

theorem State.enumRetry_of_covered (h : s.fullyReached (poundOf n) = true) : s.enumRetry n = s := if_neg (by simp [h])

end Training

/-- Settles O46: each row by the training state in which it finds its lane. -/
theorem lanesTrain : Obligations.LanesTrain := by
  intro s hs
  refine ⟨?signal, ?aligned, ?fails, ?greeted, ?backoff, ?hello, ?report, ?node, ?settled, ?repeats, ?covered⟩
  case signal => exact fun n xs h => exec_of_effect (.inl hs) (State.laneAligned_of_detect h xs)
  case aligned => exact fun n xs u h hu => exec_of_effect (.inl hs) (State.laneAligned_of_align h xs hu)
  case fails => exact fun n u h hu => exec_of_effect (.inl hs) (State.laneAbsent_of_training h hu)
  case greeted => exact fun n h hello => exec_of_effect (.inl hs) (State.laneAbsent_of_hello h hello)
  case backoff => exact fun n h => exec_of_effect (.inl hs) (State.backoffEnd_of_absent h)
  case hello => exact fun n b hb h => exec_of_effect (.inl hs) (State.helloReceived_of_enum hb (isLink_canal n) h)
  case report =>
    exact fun n b u hb h hu => exec_of_effect (.inl hs) (State.reportReceived_of_enumerated hb (isLink_canal n) h hu)
  case node =>
    rintro n b p x u rfl rfl rfl
    rfl
  case settled => exact fun n u hu => exec_of_effect (.inl hs) (State.reachSettled_of_canal (isLink_canal n) hu)
  case repeats =>
    exact fun n hruns hpart => exec_of_effect (.inl hs) (State.enumRetry_of_uncovered (isLink_canal n) hruns hpart)
  case covered => exact fun n h => exec_of_effect (.inl hs) (State.enumRetry_of_covered h)

end Sys2Proof.Machine
end

section
/-! SUPPORT. Rate steps: where a step is issued, switched, confirmed, gone back on and followed (R124, R130, R131,
R134). -/

set_option Elab.async false

namespace Sys2Proof.Machine

open Sys2Proof

/-! ### Lanes beside the one that changes -/

section LaneFrames

variable (s : State) {n m : Nat} (h : m ≠ n)
include h

theorem State.lane_modLane_other (f : LaneSt → LaneSt) : (s.modLane n f).lane m = s.lane m :=
  SMap.get_put_other _ _ _ h

theorem State.lane_setRate_other (rate : Nat) (t : Nat × Nat) : (s.setRate n rate t).lane m = s.lane m :=
  State.lane_modLane_other _ h _

end LaneFrames

@[simp] theorem State.lane_occupy (s : State) (l k m : Nat) : (s.occupy l k).lane m = s.lane m := by
  unfold State.occupy
  split <;> rfl

/-- Sending changes no lane's training. -/
@[simp] theorem State.lane_sendTrain (s : State) (n m : Nat) (payload : Bytes) : (s.sendTrain n payload).lane m = s.lane m :=
  State.lane_occupy _ _ _ _

section RateSteps

variable {s u v w : State} {p n : Nat} {x : StepSt}

/-! ### The lead (R124, R130, R131) -/

/-- The lead sends STEP on its lanes of a pound, all settled at one rate below the one aimed for and none in a step. -/
theorem State.stepIssue_of_ready {wait r time : Nat} {ls : List Nat}
    (htime : time = s.plantNs + max 200000 (min 300000 wait))
    (hls : ls = (s.ownLanes p).filter (fun n => (s.laneState n = .step || s.runs n) && !(s.lane n).alone)) (hne : ls ≠ [])
    (hlead : s.leads = true) (haim : r < s.aimRate p)
    (hlanes : ∀ n ∈ ls, (s.lane n).settled = true ∧ s.rd (R.CNL_LANE_STAT_RATE n) = r)
    (heast : (s.lane (2 * p)).step = none) (hwest : (s.lane (2 * p + 1)).step = none) :
    s.stepIssue p wait = each ls (fun t n => ((t.setLane n .step).modLane n fun l => { l with
      step := some (StepSt.mk (r + 1) r time false false true false), eq := {} }).sendTrain n
        (trainStep false (r + 1) time)) (s.forgetAligned p) := by
  have hrate : (ls.map fun n => s.rd (R.CNL_LANE_STAT_RATE n)).headD 0 = r := by
    obtain ⟨m, rest, rfl⟩ := List.exists_cons_of_ne_nil hne
    exact (hlanes m List.mem_cons_self).2
  have hready : (!ls.isEmpty && ls.all (fun n => (s.lane n).settled) &&
      (ls.map fun n => s.rd (R.CNL_LANE_STAT_RATE n)).all (fun x => decide (x = r)) &&
      [2 * p, 2 * p + 1].all fun n => (s.lane n).step.isNone) = true := by
    simpa [hne, heast, hwest, imp_and, forall_and] using hlanes
  subst htime
  unfold State.stepIssue
  simp only [← hls, hrate, hready]
  exact if_neg (by simp [hlead, haim])

/-- Once every reached node is aligned the lead sends CONFIRM on the stepped lanes, which then leave the step; in time,
or at any time where the step has gone back. -/
theorem State.confirm_of_aligned {ls : List Nat} {r : Nat} (hls : s.steppedLanes p = n :: ls)
    (hx : (s.lane n).step = some x) (hr : r = s.rd (R.CNL_LANE_STAT_RATE n)) (haligned : s.allAligned p r = true)
    (htime : x.reverted = true ∨ s.plantNs ≤ x.time + 4000000)
    (hv : v = State.modPound (each (n :: ls) (fun t m => t.sendTrain m (trainConfirm r x.time)) s) p
      (fun q => { q with confirmed := r })) :
    s.confirm p = each (n :: ls) State.endStep (if x.reverted then v else v.poundRate p r false) := by
  subst hr hv
  have hgo : ¬ (!s.allAligned p (s.rd (R.CNL_LANE_STAT_RATE n)) ||
      (!x.reverted && decide (x.time + 4000000 < s.plantNs))) = true := by
    rw [haligned, Bool.not_true, Bool.false_or, Bool.and_eq_true, Bool.not_eq_true', decide_eq_true_eq]
    rintro ⟨hforward, hlate⟩
    rcases htime with hback | hearly
    · exact Bool.false_ne_true (hforward.symm.trans hback)
    · omega
  simp only [State.confirm, hls, hx]
  exact if_neg hgo

/-- Until then, or too late, nothing is confirmed. -/
theorem State.confirm_of_waiting {ls : List Nat} (hls : s.steppedLanes p = n :: ls) (hx : (s.lane n).step = some x)
    (h : s.allAligned p (s.rd (R.CNL_LANE_STAT_RATE n)) = false ∨
      (x.reverted = false ∧ x.time + 4000000 < s.plantNs)) : s.confirm p = s := by
  simp only [State.confirm, hls, hx]
  exact if_pos (by simpa using h)

/-! ### The step time, and the way back (R131, R134) -/

theorem State.stepTime_of_none (h : s.nextStep p = none) : s.stepTime p = s := by
  simp only [State.stepTime, h]

/-- At the step time of its east lane alone a pound switches that lane, which asks for the far taps where these are
tuned; that this first request holds both is the model's choice (log entry 9). -/
theorem State.stepTime_of_east (hnext : s.nextStep p = some x.time) (hx : (s.lane (2 * p)).step = some x)
    (hsw : x.switched = false)
    (hu : u = (s.advanceTo x.time).modLane (2 * p) (fun l => { l with step := some { x with switched := true }, eq := {} }))
    (hwest : (s.lane (2 * p + 1)).step = none)
    (hv : v = u.setRate (2 * p) x.newRate (u.startTaps (2 * p) x.newRate)) :
    s.stepTime p = if 2 ≤ x.newRate then v.sendTrain (2 * p)
      (layBytes 16 [(0, 1, 6), (12, 1, (v.lane (2 * p)).reqSeq.toNat)]) else v := by
  have heast : ((s.advanceTo x.time).lane (2 * p)).step = some x := hx
  have hkept : v.lane (2 * p + 1) = s.lane (2 * p + 1) := by
    rw [hv, State.lane_setRate_other _ (by omega), hu, State.lane_modLane_other _ (by omega)]
    rfl
  simp only [State.stepTime, hnext, each, List.foldl, heast, hsw, ← hu, ← hv, ne_eq, not_true_eq_false, decide_false,
    Bool.or_false, Bool.false_eq_true, if_false]
  by_cases hrate : 2 ≤ x.newRate
  · simp only [if_pos hrate, State.lane_sendTrain, hkept, hwest]
  · simp only [if_neg hrate, hkept, hwest]

theorem State.stepRevert_of_none (h : s.lateLanes p = []) : s.stepRevert p = s := by
  simp only [State.stepRevert, h, List.findSome?_nil]

/-- Without CONFIRM a pound's one late lane goes back to its old rate and taps; the lead caps its lanes and reports. -/
theorem State.stepRevert_of_east (hlate : s.lateLanes p = [2 * p]) (hx : (s.lane (2 * p)).step = some x)
    (hu : u = (s.advanceTo ((x.time : Int) + 5000000)).modLane (2 * p)
      (fun l => { l with step := some { x with reverted := true } }))
    (hv : v = ((u.setRate (2 * p) x.oldRate (SMap.get (fun _ => preset x.oldRate) (u.lane (2 * p)).taps x.oldRate)).inc
      (R.CNL_LANE_ERR_STEP_FAIL (2 * p))).forgetAligned p)
    (hw : w = each (v.ownLanes p) (fun t n => t.wr (R.CNL_LANE_STAT_CAP_RATE n) x.oldRate) v) :
    s.stepRevert p = if x.lead then (w.raise 0x022 p).poundRate p x.oldRate true else v := by
  subst hw hv hu
  simp only [State.stepRevert, hlate, List.findSome?_cons, each, List.foldl, hx]

/-! ### The others (R130, R131) -/

/-- A seat that does not lead takes the first STEP on its lane. -/
theorem State.stepReceived_of_free {b : Barge} (hb : bargeOk b) (hlane : isLink n = false) (hnone : (s.lane n).step = none)
    (h : s.laneState n = .running ∨ s.laneState n = .enum)
    (hx : x = StepSt.mk (leAt b.payload 2 1 % 4) (s.rd (R.CNL_LANE_STAT_RATE n)) (leAt b.payload 4 8)
      ((leAt b.payload 1 1).testBit 4) false false false) :
    s.stepReceived n b =
      ((s.setLane n .step).modLane n fun l => { l with step := some x, eq := {} }).forgetAligned (poundOf n) := by
  subst hx
  rw [State.stepReceived, State.screen_of_ok hb]
  exact if_pos (by simpa [hlane, hnone] using h)

/-- A step that this seat follows ends at the rate confirmed, with the taps last in force there. -/
theorem State.confirmReceived_of_following {b : Barge} {r : Nat} (hx : (s.lane n).step = some x) (hb : bargeOk b)
    (hlead : x.lead = false) (hr : r = leAt b.payload 2 1 % 4) :
    s.confirmReceived n b = State.enterRunning
      (((if s.rd (R.CNL_LANE_STAT_RATE n) = r then s else s.setRate n r (SMap.get (fun _ => preset r) (s.lane n).taps r)).modPound
        (poundOf n) fun q => { q with confirmed := r }).modLane n fun l => { l with step := none }) n := by
  subst hr
  rw [State.confirmReceived, State.screen_of_ok hb]
  simp only [hx, hlead, Bool.false_eq_true, if_false]

end RateSteps

/-- Settles O47: each row by the step in which it finds the lanes of its pound. -/
theorem rateSteps : Obligations.RateSteps := by
  intro s hs
  refine ⟨?issue, ?idle, ?switch, ?follow, ?confirm, ?waits, ?confirmed, ?back, ?unstepped⟩
  case issue =>
    exact fun p wait ls r time htime hls hne hlead haim hlanes heast hwest =>
      exec_of_effect (.inl hs) (State.stepIssue_of_ready htime hls hne hlead haim hlanes heast hwest)
  case idle => exact fun p h => exec_of_effect (.inl hs) (State.stepTime_of_none h)
  case switch =>
    exact fun p x u v hnext hx hsw hu hwest hv =>
      exec_of_effect (.inl hs) (State.stepTime_of_east hnext hx hsw hu hwest hv)
  case follow =>
    exact fun n b x hb hnone h hx =>
      exec_of_effect (.inl hs) (State.stepReceived_of_free hb (isLink_canal n) hnone h hx)
  case confirm =>
    exact fun p n ls x r v hls hx hr haligned htime hv =>
      exec_of_effect (.inl hs) (State.confirm_of_aligned hls hx hr haligned htime hv)
  case waits => exact fun p n ls x hls hx h => exec_of_effect (.inl hs) (State.confirm_of_waiting hls hx h)
  case confirmed =>
    exact fun n b x r hx hb hlead hr =>
      exec_of_effect (.inl hs) (State.confirmReceived_of_following hx hb hlead hr)
  case back =>
    exact fun p x u v w hlate hx hu hv hw => exec_of_effect (.inl hs) (State.stepRevert_of_east hlate hx hu hv hw)
  case unstepped => exact fun p h => exec_of_effect (.inl hs) (State.stepRevert_of_none h)

end Sys2Proof.Machine
end

section
/-! SUPPORT. Taps by request, hops that rejoin, and loss of lock (R123, R132 to R136, R138, R139). -/

set_option Elab.async false

namespace Sys2Proof.Machine

open Sys2Proof

/-! ### A lane's state beside other registers -/

/-- A lane's training state is in its status register alone. -/
theorem State.laneState_wr_other (s : State) {f : Fld} {n : Nat} (h : f.off ≠ (R.CNL_LANE_STAT_STATE n).off) (v : Nat) :
    (s.wr f v).laneState n = s.laneState n := by
  have hrd : (s.wr f v).rd (R.CNL_LANE_STAT_STATE n) = s.rd (R.CNL_LANE_STAT_STATE n) :=
    congrArg _ (State.reg_setReg_other s _ h.symm)
  simp only [State.laneState, hrd]

theorem State.lane_congr {s t : State} (h : t.cnl = s.cnl) (n : Nat) : t.lane n = s.lane n := by
  rw [State.lane, State.lane, h]

section TapsAndLoss

variable {s t u : State} {n : Nat} {b : Barge}

/-! ### Requests and answers (R133 to R136) -/

/-- Forced taps are held, and the answer says so (R135). -/
theorem State.eqReqReceived_of_forced {f : Nat × Nat} (hb : bargeOk b) (hlane : isLink n = false)
    (hrate : 2 ≤ s.rd (R.CNL_LANE_STAT_RATE n)) (hf : (s.lane n).forced = some f) :
    s.eqReqReceived n b = s.sendTrain n (layBytes 16 [(0, 1, 7), (2, 1, s.rd (R.CNL_LANE_TAPS_TX_PRE n)),
      (3, 1, s.rd (R.CNL_LANE_TAPS_TX_POST n)), (4, 1, 2), (12, 1, leAt b.payload 12 1)]) := by
  rw [State.eqReqReceived, State.screen_of_ok hb, if_neg (by simp [hlane, Nat.not_lt.2 hrate])]
  simp only [hf]

/-- Other taps move as asked, and the answer tells where they stand. -/
theorem State.eqReqReceived_of_free {x y : Nat × Bool} (hb : bargeOk b) (hlane : isLink n = false)
    (hrate : 2 ≤ s.rd (R.CNL_LANE_STAT_RATE n)) (hf : (s.lane n).forced = none)
    (hx : x = moveTap 7 (s.rd (R.CNL_LANE_TAPS_TX_PRE n)) (leAt b.payload 2 1))
    (hy : y = moveTap 15 (s.rd (R.CNL_LANE_TAPS_TX_POST n)) (leAt b.payload 3 1)) :
    s.eqReqReceived n b = (s.setTaps n (x.1, y.1)).sendTrain n (layBytes 16 [(0, 1, 7), (2, 1, x.1), (3, 1, y.1),
      (4, 1, if x.2 || y.2 then 1 else 0), (12, 1, leAt b.payload 12 1)]) := by
  subst hx hy
  rw [State.eqReqReceived, State.screen_of_ok hb, if_neg (by simp [hlane, Nat.not_lt.2 hrate])]
  simp only [hf]

/-- On a lock-link lane, and at the rates whose taps are fixed, a request is discarded (R133, R136). -/
theorem State.eqReqReceived_of_fixed (hb : bargeOk b) (h : 24 ≤ n ∨ s.rd (R.CNL_LANE_STAT_RATE n) < 2) :
    s.eqReqReceived n b = s := by
  rw [State.eqReqReceived, State.screen_of_ok hb]
  exact if_pos (by simpa [isLink] using h)

/-- A search that has not settled notes the eye of one answer more, the best so far or no gain. -/
theorem eqSt_judged (e : EqSt) (eye pre post : Nat) (hset : e.settling = false) :
    EqSt.mk (e.asked + 1) (if e.best < eye then 0 else e.noGain + 1) (if e.best < eye then eye else e.best)
      (if e.best < eye then pre else e.bestPre) (if e.best < eye then post else e.bestPost) false =
    if e.best < eye then { asked := e.asked + 1, noGain := 0, best := eye, bestPre := pre, bestPost := post }
    else { e with asked := e.asked + 1, noGain := e.noGain + 1 } := by
  split
  · rfl
  · rw [← hset]

/-- The receiver judges an answer: it asks on until the search ends, and then for the best setting seen. -/
theorem State.eqRspReceived_of_canal {eye : Nat} {x y : Fin 3} {e f : EqSt} {done : Bool} (hb : bargeOk b)
    (hlane : isLink n = false)
    (hu : u = ((s.wr (R.CNL_LANE_TAPS_FAR_PRE n) (leAt b.payload 2 1)).wr (R.CNL_LANE_TAPS_FAR_POST n)
      (leAt b.payload 3 1)).wr (R.CNL_LANE_TAPS_EYE n) (min eye 255)) (he : e = (s.lane n).eq)
    (hf : f = (if e.settling then e else if e.best < eye then {
        asked := e.asked + 1, noGain := 0, best := eye, bestPre := leAt b.payload 2 1, bestPost := leAt b.payload 3 1 }
      else { e with asked := e.asked + 1, noGain := e.noGain + 1 }))
    (hdone : done = (f.settling || decide (96 ≤ f.best) || decide (8 ≤ f.noGain) || decide (64 ≤ f.asked))) :
    s.eqRspReceived n b eye x y =
      if done = false then (u.modLane n fun l => { l with eq := { f with settling := done } }).sendEqReq n x y
      else if leAt b.payload 4 1 = 2 ∨ (leAt b.payload 2 1 = f.bestPre ∧ leAt b.payload 3 1 = f.bestPost) then
        u.modLane n fun l => { l with eq := { f with settling := done } }
      else (u.modLane n fun l => { l with eq := { f with settling := done } }).sendEqReq n
        (towardTap (leAt b.payload 2 1) f.bestPre) (towardTap (leAt b.payload 3 1) f.bestPost) := by
  have hlanes : (u.lane n).eq = e := by
    rw [he, State.lane_congr (s := s) (by rw [hu, State.wr_cnl, State.wr_cnl, State.wr_cnl])]
  have hjudged : (if e.settling then e else EqSt.mk (e.asked + 1) (if e.best < eye then 0 else e.noGain + 1)
      (if e.best < eye then eye else e.best) (if e.best < eye then leAt b.payload 2 1 else e.bestPre)
      (if e.best < eye then leAt b.payload 3 1 else e.bestPost) false) = f := by
    rw [hf]
    by_cases hset : e.settling = true
    · rw [if_pos hset, if_pos hset]
    · rw [if_neg hset, if_neg hset, eqSt_judged e eye _ _ (Bool.eq_false_iff.2 hset)]
  rw [State.eqRspReceived, State.screen_of_ok hb, if_neg (by simp [hlane])]
  simp only [← hu, hlanes, decide_eq_true_eq, hjudged, ← hdone, Nat.mod_eq_of_lt x.isLt, Nat.mod_eq_of_lt y.isLt,
    Bool.not_eq_true']

/-! ### Hops that rejoin (R132) -/

section Rejoin

variable (halone : (s.lane n).alone = true) (hstep : s.laneState n = .step)
include halone hstep

/-- A lane alone sends a hop-scope STEP to the rate of its pound, while none of the pound's lanes is in a step; of the
200 µs to 300 µs ahead that R130 leaves, the model takes the least. -/
theorem State.hopRejoin_of_slower {r time : Nat} (hr : r = (s.pound (poundOf n)).confirmed)
    (htime : time = s.plantNs + 200000) (hnone : (s.lane n).step = none)
    (hpound : ∀ m ∈ s.ownLanes (poundOf n), (s.lane m).step = none) (hrate : s.rd (R.CNL_LANE_STAT_RATE n) ≠ r) :
    s.hopRejoin n true = (s.modLane n fun l => { l with
        step := some (StepSt.mk r (s.rd (R.CNL_LANE_STAT_RATE n)) time true false true false), eq := {} }).sendTrain n
      (trainStep true r time) := by
  subst hr htime
  rw [State.hopRejoin, if_neg (by simp [halone, hstep]), if_neg (by simp)]
  simp only [hnone]
  rw [if_neg (by simpa using hpound), if_neg hrate]

/-- Once it has switched and equalised it is confirmed here. -/
theorem State.hopRejoin_of_switched {x : StepSt} (hx : (s.lane n).step = some x) (hsw : x.switched = true) :
    s.hopRejoin n true = (s.sendTrain n (trainConfirm x.newRate x.time)).enterRunning n := by
  rw [State.hopRejoin, if_neg (by simp [halone, hstep]), if_neg (by simp)]
  simp only [hx, hsw, if_true]

/-- A hop that fails leaves its lane ABSENT with back-off. -/
theorem State.hopRejoin_of_failed
    (hu : u = ((((s.inc (R.CNL_LANE_STAT_RETRIES n)).inc (R.CNL_LANE_ERR_STEP_FAIL n)).laneOff n).setLane n .absent).wrB
      (R.CNL_LANE_STAT_WAS_ABSENT n) true) :
    s.hopRejoin n false = u.event 1 3 [(16, 1, n), (17, 1, 4), (18, 2, backoffMs (u.rd (R.CNL_LANE_STAT_RETRIES n)))] := by
  subst hu
  rw [State.hopRejoin, if_neg (by simp [halone, hstep]), if_pos (by simp)]

end Rejoin

/-! ### Loss of lock (R138, R139) -/

/-- Symbols are counted on a lane that runs or steps, and counting them leaves its state. -/
theorem State.countInvalid_of_up (h : s.laneState n = .running ∨ s.laneState n = .step) (xs : List Symbol)
    (ht : t = s.incBy (R.CNL_LANE_ERR_INVALID n) (invalidCount xs)) :
    s.countInvalid n xs = t ∧ t.laneState n = s.laneState n := by
  subst ht
  refine ⟨if_pos h, State.laneState_wr_other s ?_ _⟩
  show 0x1000C + 0x40 * n ≠ 0x10004 + 0x40 * n
  omega

/-- A lane that runs or steps and loses lock says so, and starts again, or stays OFF until its quad's domain returns; by
cause 2 only on 8 invalid symbols in a window. -/
theorem State.laneLost_of_up (h : s.laneState n = .running ∨ s.laneState n = .step) (c : Fin 4) (xs : List Symbol)
    (ht : t = s.incBy (R.CNL_LANE_ERR_INVALID n) (invalidCount xs))
    (hu : u = ((((t.wrB (R.CNL_LANE_STAT_LOST n) true).inc (R.CNL_LANE_ERR_LOSS_CNT n)).event 1 2
      [(16, 1, n), (17, 1, c.val + 1)]).raise (if isLink n then 0x021 else 0x020) n)) :
    s.laneLost n (c.val + 1) xs = if c = 1 ∧ burst xs = false then t
      else if c = 3 then (u.laneOff n).modLane n fun l => { l with quadOff := true } else u.enterDetect n := by
  obtain ⟨hcount, hstate⟩ := State.countInvalid_of_up h xs ht
  have hup : (decide (t.laneState n = .running) || decide (t.laneState n = .step)) = true := by simpa [hstate] using h
  have hburst : (c.val + 1 = 2 ∧ (!burst xs) = true) ↔ (c = 1 ∧ burst xs = false) := by
    rw [Bool.not_eq_true', Fin.ext_iff]
    exact and_congr_left' ⟨fun h => by omega, fun h => by omega⟩
  have hquad : c.val + 1 = 4 ↔ c = 3 := by rw [Fin.ext_iff]; omega
  simp only [State.laneLost, hcount, hburst, hup, if_true, hquad, ← hu]

end TapsAndLoss

/-- Settles O48: each row by what it finds of the lane's taps, hop and lock. -/
theorem tapsAndLoss : Obligations.TapsAndLoss := by
  intro s hs
  refine ⟨fun n b hb hn hrate => ⟨?forced, ?moved⟩, ?fixed, ?answer, fun n r t halone hstep hr ht => ⟨?hop, ?joined, ?failed⟩,
    ?lost⟩
  case forced => exact fun t hf => exec_of_effect (.inl hs) (State.eqReqReceived_of_forced hb (isLink_of_lt hn) hrate hf)
  case moved =>
    exact fun x y hf hx hy => exec_of_effect (.inl hs) (State.eqReqReceived_of_free hb (isLink_of_lt hn) hrate hf hx hy)
  case fixed => exact fun n b hb h => exec_of_effect (.inl hs) (State.eqReqReceived_of_fixed hb h)
  case answer =>
    exact fun n b eye x y u e f done hb hu he hf hdone =>
      exec_of_effect (.inl hs) (State.eqRspReceived_of_canal hb (isLink_canal n) hu he hf hdone)
  case hop =>
    exact fun hnone hpound hrate =>
      exec_of_effect (.inl hs) (State.hopRejoin_of_slower halone hstep hr ht hnone hpound hrate)
  case joined => exact fun x hx hsw => exec_of_effect (.inl hs) (State.hopRejoin_of_switched halone hstep hx hsw)
  case failed => exact fun u hu => exec_of_effect (.inl hs) (State.hopRejoin_of_failed halone hstep hu)
  case lost => exact fun n c xs t u h ht hu => exec_of_effect (.inl hs) (State.laneLost_of_up h c xs ht hu)

end Sys2Proof.Machine
end

section
/-! SUPPORT. Towpath ports: what they send, and what a frame or the want of one does (R144, R145, R148). -/

set_option Elab.async false

namespace Sys2Proof.Machine

open Sys2Proof

section Towpath

variable {s u v : State} {p : Nat} {f : Bytes}

/-- Where keep-alives are sent, one starts on each enabled port. -/
theorem State.keepAliveSend_of_sending (h : s.towpathSends = true) :
    s.keepAliveSend = each ((List.range 12).filter fun p => s.portOn p) (fun t p =>
      (t.emit (.keepAlive p (t.keepAlive p) (towpathLine (t.keepAlive p)))).modPort p fun q => { q with seq := q.seq + 1 }) s :=
  if_pos h

theorem State.keepAliveSend_of_silent (h : s.towpathSends = false) : s.keepAliveSend = s := if_neg (by simp [h])

theorem State.towpathFrame_of_off (h : s.portOn p = false) : s.towpathFrame p f = s := if_pos (by simp [h])

/-- A frame of a wrong length or CRC is counted, and the next good one is the first in a row. -/
theorem State.towpathFrame_of_bad (hon : s.portOn p = true) (hbad : f.length ≠ 12 ∨ leAt f 10 2 ≠ (keepAliveCrc f).toNat) :
    s.towpathFrame p f = (s.inc (R.CNL_TP_ERR_CRC_ERR p)).modPort p fun q => { q with good := 0 } := by
  rw [State.towpathFrame, if_neg (by simp [hon]), if_pos hbad]

section GoodFrame

variable (hon : s.portOn p = true) (hlen : f.length = 12) (hcrc : leAt f 10 2 = (keepAliveCrc f).toNat)
  (hu : u = (((s.wr (R.CNL_TP_STAT_STATE p) (leAt f 8 1)).wr (R.CNL_TP_STAT_SEQ p) (leAt f 3 1)).wrB
    (R.CNL_TP_STAT_ORIGIN p) ((leAt f 1 1).testBit 3)).wrB (R.CNL_TP_STAT_TURNED p) ((leAt f 1 1).testBit 2))
  (hv : v = ((u.wr (R.CNL_TP_MAP_ALIVE p) (leAt f 4 2)).wr (R.CNL_TP_MAP_FAULT p) (leAt f 6 2)).modPort p
    (fun q => { q with good := min 2 (q.good + 1) }))
include hon hlen hcrc hu hv

/-- A good frame shows what it carries, and the second in a row brings up a port that is not. -/
theorem State.towpathFrame_of_good : s.towpathFrame p f =
    if 2 ≤ (v.port p).good && !v.is (R.CNL_TP_STAT_UP p) then
      (v.wrB (R.CNL_TP_STAT_UP p) true).event 1 6 [(16, 1, p), (17, 2, leAt f 4 2)] else v := by
  subst hv hu
  rw [State.towpathFrame, if_neg (by simp [hon]), if_neg (by simp [hlen, hcrc])]

theorem State.towpathFrame_of_shown (h : (v.port p).good < 2 ∨ v.is (R.CNL_TP_STAT_UP p) = true) :
    s.towpathFrame p f = v := by
  rw [State.towpathFrame_of_good hon hlen hcrc hu hv]
  refine if_neg fun hup => ?_
  obtain ⟨hgood, hdown⟩ := (Bool.and_eq_true _ _).mp hup
  rcases h with h | h
  · exact absurd (of_decide_eq_true hgood) (by omega)
  · simp [h] at hdown

theorem State.towpathFrame_of_second (hgood : 2 ≤ (v.port p).good) (hup : v.is (R.CNL_TP_STAT_UP p) = false) :
    s.towpathFrame p f = (v.wrB (R.CNL_TP_STAT_UP p) true).event 1 6 [(16, 1, p), (17, 2, leAt f 4 2)] := by
  rw [State.towpathFrame_of_good hon hlen hcrc hu hv]
  exact if_pos (by simp [hgood, hup])

end GoodFrame

/-- A port that is UP is lost, which is noted, counted and raised. -/
theorem State.towpathLost_of_up (h : s.is (R.CNL_TP_STAT_UP p) = true) :
    s.towpathLost p = (((((s.wrB (R.CNL_TP_STAT_UP p) false).wrB (R.CNL_TP_STAT_LOST p) true).inc
      (R.CNL_TP_ERR_LOSS_CNT p)).modPort p fun q => { q with good := 0 }).event 1 5 [(16, 1, p)]).raise 0x023 p :=
  if_pos h

theorem State.towpathLost_of_down (h : s.is (R.CNL_TP_STAT_UP p) = false) :
    s.towpathLost p = s.modPort p fun q => { q with good := 0 } := if_neg (by simp [h])

end Towpath

/-- Settles O50: a port by whether it is on, a frame by its checks, and the loss by whether the port is UP. -/
theorem towpathPorts : Obligations.TowpathPorts := by
  intro s hs
  refine ⟨?send, ?silent, ?off, ?bad, fun p f u v hon hlen hcrc hu hv => ⟨?shown, ?second⟩, ?lost, ?down⟩
  case send => exact fun h => exec_of_effect (.inl hs) (State.keepAliveSend_of_sending h)
  case silent => exact fun h => exec_of_effect (.inl hs) (State.keepAliveSend_of_silent h)
  case off => exact fun p f h => exec_of_effect (.inl hs) (State.towpathFrame_of_off h)
  case bad => exact fun p f hon hbad => exec_of_effect (.inl hs) (State.towpathFrame_of_bad hon hbad)
  case shown => exact fun h => exec_of_effect (.inl hs) (State.towpathFrame_of_shown hon hlen hcrc hu hv h)
  case second =>
    exact fun hgood hup => exec_of_effect (.inl hs) (State.towpathFrame_of_second hon hlen hcrc hu hv hgood hup)
  case lost => exact fun p h => exec_of_effect (.inl hs) (State.towpathLost_of_up h)
  case down => exact fun p h => exec_of_effect (.inl hs) (State.towpathLost_of_down h)

end Sys2Proof.Machine
end

section
/-! SUPPORT. Registers of metering, lanes, time and faults: what a written word starts, what a captured read holds, and
how a diagnostic run ends (R127, R281, R283, R286, R342, R356, R392, R393). -/

set_option Elab.async false

namespace Sys2Proof.Machine

open Sys2Proof

/-- A field of another register reads as before, whatever form the registers have. -/
theorem State.rd_wr_offApart (s : State) {f g : Fld} (h : g.off ≠ f.off) (v : Nat) : (s.wr f v).rd g = s.rd g :=
  congrArg _ (State.reg_setReg_other s _ h)

section ServiceRegisters

variable {s u w : State} {v : Word}

/-! ### Where a word written leads (Table 18.1) -/

/-- GO written starts a diagnostic run (R286). -/
theorem State.mtrWrite_diag (hd : s.decodes 0x30010 = true) (hu : u = s.written 0x30010 (v ||| 0x80000000#32)) :
    s.mtrWrite byHost 0x30010 (v ||| 0x80000000#32) = u.diagGo := by
  subst hu
  exact (hostWrite_written hd _).trans (if_pos ⟨rfl, getLsbD_commit v⟩)

/-- Trackers written are cleared (R283). -/
theorem State.mtrWrite_trkClear (hd : s.decodes 0x30018 = true) (hu : u = s.written 0x30018 v) :
    s.mtrWrite byHost 0x30018 v = u.trkClear v := by
  subst hu
  exact (hostWrite_written hd _).trans ((if_neg (by simp)).trans (if_pos rfl))

theorem getLsbD_restart (v : Word) : (v ||| 0x08000000#32).getLsbD 27 = true := by
  rw [BitVec.getLsbD_or, show (0x08000000#32).getLsbD 27 = true from rfl, Bool.or_true]

/-- RESTART written takes the lane through OFF (R127). -/
theorem State.laneCtl_restart {n : Nat} (hn : n < 28) (hd : s.decodes (0x10000 + 0x40 * n) = true)
    (hu : u = s.written (0x10000 + 0x40 * n) (v ||| 0x08000000#32)) :
    s.laneCtl n (v ||| 0x08000000#32) = u.restartLane n := by
  subst hu
  rw [State.laneCtl, if_neg (by omega)]
  exact (hostWrite_written hd _).trans (if_pos (by rw [getLsbD_restart, Bool.true_or]))

/-- REARM written empties the capture (R392). -/
theorem State.fltWrite_rearm (hd : s.decodes 0x3E000 = true) (hu : u = s.written 0x3E000 (v ||| 0x80000000#32)) :
    s.fltWrite byHost 0x3E000 (v ||| 0x80000000#32) = u.rearm := by
  subst hu
  exact (hostWrite_written hd _).trans (if_pos ⟨rfl, getLsbD_commit v⟩)

/-- An index written copies its log entry (R393). -/
theorem State.fltWrite_logIdx (hd : s.decodes 0x3E040 = true) (hu : u = s.written 0x3E040 v) :
    s.fltWrite byHost 0x3E040 v = u.logCopy := by
  subst hu
  exact (hostWrite_written hd _).trans ((if_neg (by simp)).trans (if_pos rfl))

/-! ### A diagnostic run (R286) -/

section DiagGo

variable (hidle : s.mtr.diag = none) (hwait : s.is R.MTR_DIAG_RES_WAITING = false)
include hidle hwait

/-- Without the test DAC a run is refused. -/
theorem State.diagGo_of_noDac (hdac : s.is R.SYS_OVERLAY_MTR_TESTDAC = false) :
    s.diagGo = s.wr R.MTR_DIAG_RES_VERDICT 3 := by
  rw [State.diagGo, if_neg (by simp [hidle, hwait]), if_pos (by simp [hdac])]

/-- With it a run starts, or waits while background calibration holds the DAC; either way the channel is marked. -/
theorem State.diagGo_of_dac {c : Nat} (hdac : s.is R.SYS_OVERLAY_MTR_TESTDAC = true) (hc : c = s.rd R.MTR_DIAG_CH)
    (h40 : c < 40) (hw : w = s.wrB (R.MTR_CH_STAT_INJECTED c) true) :
    s.diagGo = if s.mtr.calStep = 3 then State.wrB { w with mtr := { w.mtr with waiting := some c } }
      R.MTR_DIAG_RES_WAITING true else w.diagStart c := by
  subst hc hw
  rw [State.diagGo, if_neg (by simp [hidle, hwait]), if_neg (by simp [hdac, h40])]

end DiagGo

/-- A run at a LEVEL ends with the quotient of its two means, whose verdict is 2 from one half on. -/
theorem State.diagDone_of_running {m1 m2 : F32} {c k : Nat} (hc : s.mtr.diag = some c)
    (hlevel : s.rd R.MTR_DIAG_LEVEL ≠ 0) (hu : u = (s.fresh 16).2)
    (hk : k = (max 0 (min 65535 (roundRat ((fRat m1 - fRat m2) * 65536 * 4095 /
      (4 * (s.rd R.MTR_DIAG_LEVEL : Rat)))))).toNat)
    (hw : w = (((({ u with mtr := { u.mtr with diag := none, injected := some (c, 16) } } : State).wr R.MTR_DIAG_RES_K k).wr
      R.MTR_DIAG_RES_VERDICT (if 32768 ≤ k then 2 else 1)).wrB R.MTR_DIAG_RES_BUSY false)) :
    s.diagDone m1 m2 = w.event 5 3 [(16, 1, c), (17, 1, if 32768 ≤ k then 2 else 1), (18, 2, k)] := by
  subst hw hk hu
  simp only [State.diagDone, hc, if_neg hlevel]

theorem each_singleton {α : Type} (x : α) (f : State → α → State) (s : State) : each [x] f s = f s x := rfl

/-- A clear that names one tracker in use closes that one. -/
theorem State.trkClear_of_single {t : Nat}
    (ht : ((List.range 32).filter fun t => v.getLsbD t && s.is (R.MTR_TRK_CFG_EN t)) = [t]) :
    s.trkClear v = s.closeTracker t := by
  rw [State.trkClear, ht, each_singleton]

/-! ### Reads that capture (R281, R356) -/

theorem arrayIx_of_item {base stride count i : Nat} (hs : 0 < stride) (hi : i < count) :
    arrayIx base stride count (base + stride * i) = some i := by
  have hquot : (base + stride * i - base) / stride = i := by
    rw [Nat.add_sub_cancel_left, Nat.mul_div_cancel_left i hs]
  have hrem : (base + stride * i - base) % stride = 0 := by rw [Nat.add_sub_cancel_left, Nat.mul_mod_right]
  rw [arrayIx, hquot, if_pos ⟨Nat.le_add_right .., hrem, hi⟩]

/-- A read of `TSN_NOW_LO` captures plant time. -/
theorem State.hostRead_now (hd : s.decodes 0x3A010 = true) (hu : u = (s.wakeLink byHost).captureNow) :
    s.hostRead 0x3A010 = u.emit (.readData 0x3A010 (u.regView 0x3A010)) := by
  have hbank : isBank 0x3A010 = false := by decide
  have hmsix : isMsix 0x3A010 = false := by decide
  simp only [State.hostRead, State.readReg, State.wakeLink_decodes, hd, hbank, hmsix, Bool.not_true, Bool.false_eq_true,
    if_false, if_true, ← hu]

/-- A read of the first bytes of an accumulator item captures the item. -/
theorem State.hostRead_accumulator {a : Nat} (ha : a < 64) (hd : s.decodes (0x31000 + 0x20 * a) = true)
    (hu : u = (s.wakeLink byHost).captureAcc a) :
    s.hostRead (0x31000 + 0x20 * a) = u.emit (.readData (0x31000 + 0x20 * a) (u.regView (0x31000 + 0x20 * a))) := by
  have hbank : isBank (0x31000 + 0x20 * a) = false := by simp [isBank]; omega
  have hmsix : isMsix (0x31000 + 0x20 * a) = false := by simp [isMsix]; omega
  have hnow : ¬ 0x31000 + 0x20 * a = 0x3A010 := by omega
  simp only [State.hostRead, State.readReg, State.wakeLink_decodes, hd, hbank, hmsix, Bool.not_true, Bool.false_eq_true,
    if_false, hnow, arrayIx_of_item (by omega : 0 < 0x20) ha, ← hu]

/-- Plant time and the local counter as captured are those of the read. -/
theorem State.captureNow_rd (hwf : s.regsWf = true) : s.captureNow.rd R.TSN_NOW_LO = s.plantNs % 2 ^ 32 ∧
    s.captureNow.rd R.TSN_LOCAL_LO = s.tsn.local_ % 2 ^ 32 := by
  have hnow : R.TSN_NOW_LO.fits := show 0 + 32 ≤ 32 by decide
  have hlocal : R.TSN_LOCAL_LO.fits := show 0 + 32 ≤ 32 by decide
  unfold State.captureNow
  constructor
  · rw [State.rd_wr_offApart _ (by decide), State.rd_wr_offApart _ (by decide), State.rd_wr_offApart _ (by decide),
      State.rd_wr_offApart _ (by decide), State.rd_wr_same hwf _ hnow]
    rfl
  · rw [State.rd_wr_offApart _ (by decide),
      State.rd_wr_same (State.wr_regsWf (State.wr_regsWf (State.wr_regsWf hwf _ _) _ _) _ _) _ hlocal]
    rfl

end ServiceRegisters

/-- Settles O19: each register by what it starts in the state in which the word is written, each capture by its read. -/
theorem serviceRegistersAct : Obligations.ServiceRegistersAct := by
  refine ⟨fun s u v hs => ⟨?diag, ?tracker, ?lane, ?now, ?accumulator, ?rearm, ?log, ?captured⟩, ?done⟩
  case diag =>
    intro hd hu hidle hwait
    have hgo := State.mtrWrite_diag hd hu
    refine ⟨fun hdac => ?_, fun c w hdac hc h40 hw => ?_⟩
    · exact exec_of_effect (.inl hs) (hgo.trans (State.diagGo_of_noDac hidle hwait hdac))
    · have hrun := hgo.trans (State.diagGo_of_dac hidle hwait hdac hc h40 hw)
      exact ⟨fun hcal => exec_of_effect (.inl hs) (hrun.trans (if_neg hcal)),
        fun hcal => exec_of_effect (.inl hs) (hrun.trans (if_pos hcal))⟩
  case tracker =>
    exact fun t hd hu ht =>
      exec_of_effect (.inl hs) ((State.mtrWrite_trkClear hd hu).trans (State.trkClear_of_single ht))
  case lane => exact fun n hd hu => exec_of_effect (.inl hs) (State.laneCtl_restart n.isLt hd hu)
  case now => exact fun hd hu => exec_of_effect (.inl hs) (State.hostRead_now hd hu)
  case accumulator => exact fun a hd hu => exec_of_effect (.inl hs) (State.hostRead_accumulator a.isLt hd hu)
  case rearm => exact fun hd hu => exec_of_effect (.inl hs) (State.fltWrite_rearm hd hu)
  case log => exact fun hd hu => exec_of_effect (.inl hs) (State.fltWrite_logIdx hd hu)
  case captured => exact State.captureNow_rd
  case done =>
    exact fun s u w m1 m2 c k hs hc hlevel hu hk hw =>
      exec_of_effect (.inl hs) (State.diagDone_of_running hc hlevel hu hk hw)

end Sys2Proof.Machine
end

section
/-! SUPPORT. What the owners of POUND_ENABLE, POUND_DISABLE, CELL_BYPASS and CELL_SERVICE decide, one lemma per outcome
(Tables 8.5 and 8.7, R188, R226, R228, R229, R233). -/

set_option Elab.async false

namespace Sys2Proof.Machine

open Sys2Proof

section PoundAndCellOwners

variable {s : State} {c : Cmd}

/-- An outcome that is done is final. -/
theorem Status.final_of_done {x : Status} : x.done = true → x.keeps = false := by cases x <;> decide

/-! ### Pounds (R226, R228, R229) -/

/-- A disabled pound that runs and has its slots is enabled from the line in IDLE while no sluice runs, once the Basin
admits it (Table 8.5). -/
theorem ownPoundEnable_of_admitted {p : Nat} {v : Verdict} (hp : p = c.desc.le 4 1) (hsoon : s.poundSoon p = 0)
    (hruns : s.poundRuns p = true) (hline : c.desc.le 5 1 = 0) (hidle : s.grid = 0) (hregion : s.regionHolds p = true)
    (hsluice : s.rd R.NRG_STAT_SLUICE = 0) (hv : s.admission none (fun _ => s.askPound p 0) 0 0 false = v)
    (hdone : v.status.done = true) : ownPoundEnable false c s = (s.accept c (fun x => decide (x.le 4 1 = p)) 0, v) := by
  subst hp
  simp only [ownPoundEnable, hsoon, hruns, hline, hidle, hregion, hsluice, hv, hdone]
  rfl

section NoneKept

/-! With no command kept no POUND_ENABLE waits that a POUND_DISABLE would take back. -/

variable (hkept : s.hst.kept = [])
include hkept

theorem ownPoundDisable_of_unused (hsoon : s.poundSoon (c.desc.le 4 1) = 1 ∨ s.poundSoon (c.desc.le 4 1) = 2) :
    ownPoundDisable c s = (s.queueDue c.desc 0, vOk) := by
  rcases hsoon with h | h <;> simp [ownPoundDisable, State.keptOf, hkept, h]

theorem ownPoundDisable_of_stopped (hsoon : s.poundSoon (c.desc.le 4 1) = 0 ∨ s.poundSoon (c.desc.le 4 1) = 4) :
    ownPoundDisable c s = (s, vOk) := by
  rcases hsoon with h | h <;> simp [ownPoundDisable, State.keptOf, hkept, h]

/-- An active pound may go where the cells that its leg has besides cover what the leg needs. -/
theorem ownPoundDisable_of_active {p left : Nat} (hp : p = c.desc.le 4 1) (hsoon : s.poundSoon p = 3)
    (hleft : left = ((s.legCells (s.legOf p)).filter fun g =>
      g / 16 ≠ p && (s.cellRole g = .active ∨ s.cellRole g = .ready)).length) :
    ownPoundDisable c s = if s.coveredWith (s.legOf p) left then (s.queueDue c.desc 0, vOk) else (s, vMode 0x0304) := by
  subst hp hleft
  simp only [ownPoundDisable, State.keptOf, hkept, hsoon, List.filter_nil, List.isEmpty_nil]
  cases s.coveredWith .. <;> rfl

end NoneKept

/-! ### Cells (R188, R233) -/

/-- A cell that is out already has nothing to be bypassed. -/
theorem ownBypass_of_gone (hbypass : c.desc.le 6 1 = 0)
    (hgone : s.cellRole (c.desc.le 4 2) = .parked ∨ s.cellRole (c.desc.le 4 2) = .failed) :
    ownBypass false c s = (s, vOk) := by
  rcases hgone with h | h <;> simp [ownBypass, hbypass, h]

/-- In IDLE no leg needs its cells. -/
theorem ownBypass_of_idle (hbypass : c.desc.le 6 1 = 0) (hparked : s.cellRole (c.desc.le 4 2) ≠ .parked)
    (hfailed : s.cellRole (c.desc.le 4 2) ≠ .failed) (hidle : s.grid = 0) :
    ownBypass false c s = (s.accept c (fun x => decide (x.le 4 2 = c.desc.le 4 2)) 0, vOk) := by
  simp [ownBypass, hbypass, hparked, hfailed, hidle]

theorem guarded_eq_false {addr n : Nat} (h : 0x1C ≤ addr ∨ addr + 4 * n ≤ 0x10) : guarded addr n = false := by
  rcases h with h | h <;> simp [guarded, Nat.not_lt.2 h]

/-- A host write may not touch the settings 0x0010 to 0x001B. -/
theorem ownService_of_guarded (hwrite : c.desc.le 6 1 = 2) (hend : c.desc.le 8 2 < 0x1C)
    (hbegin : 0x10 < c.desc.le 8 2 + 4 * c.desc.le 7 1) :
    ownService c s = (s, { status := .auth, detail := 0x0101 }) := by
  simp [ownService, guarded, hwrite, hend, hbegin]

/-- A read, and a write beside the protected settings, of a reached cell that serves no request waits for a window. -/
theorem ownService_of_reached {g : Nat} (hg : g = c.desc.le 4 2)
    (hfree : (c.desc.le 6 1 = 2 && guarded (c.desc.le 8 2) (c.desc.le 7 1)) = false)
    (hdark : s.is (R.CNL_CELL_STAT_DARK g) = false) (hunreached : s.is (R.CNL_CELL_STAT_UNREACHED g) = false)
    (hreached : s.reached g = true) (hruns : s.poundRuns (g / 16) = true) (hnone : (s.link g).service = none)
    {q : ServiceReq} (hq : q =
      { op := c.desc.le 6 1, len := c.desc.le 7 1, addr := c.desc.le 8 2, data := c.desc.le 12 8,
        tag := some c.desc.tag.toNat, sent := none }) :
    ownService c s = (s.modLink g fun l => { l with service := some q }, vOk) := by
  subst hg hq
  unfold ownService
  simp only [hfree, hdark, hunreached, hreached, hruns, hnone, Bool.false_eq_true, Bool.not_true, Bool.or_self,
    Option.isSome_none, if_false]

end PoundAndCellOwners

/-- A ring command that passes the checks before its owner completes as the owner decides, where that is final. -/
theorem exec_of_owner {c : Instr} {op : Nat} {r : RingIx} {d : Desc} {resp : Bytes} {fmt : Format} {own : Owner}
    {s t : State} {v : Verdict} (hc : ringRow c = some (op, r, d, resp)) (hrow : rowOf op resp = (fmt, own))
    (hpass : s.passes op fmt r d) (hown : own (s.cmdOf r d) (s.taken r) = (t, v)) (hv : v.status.keeps = false) :
    exec c s = .next (s.completed t r d v) := by
  obtain ⟨hup, hop, hflags, hfmt, hperm, hmode⟩ := hpass
  exact exec_of_check hc hrow hup (State.check_of_final hop hflags hfmt hperm hmode hown hv)

/-- Settles O27: each command by what its owner decides of a descriptor that passes the checks before. -/
theorem poundAndCellCommands : Obligations.PoundAndCellCommands := by
  refine ⟨?pounds, ?cells⟩
  case pounds =>
    rintro s r d u rfl p rfl
    refine ⟨fun hpass hsoon hruns hline hidle hregion hsluice v hv hdone => ?enable, fun hpass hkept hsoon => ?unused,
      fun left hpass hkept hsoon hleft => ⟨fun hcov => ?covered, fun hcov => ?needed⟩, fun hpass hkept hsoon => ?stopped⟩
    case enable =>
      exact exec_of_owner rfl rfl hpass
        (ownPoundEnable_of_admitted rfl hsoon hruns hline hidle hregion hsluice hv hdone) (Status.final_of_done hdone)
    case unused => exact exec_of_owner rfl rfl hpass (ownPoundDisable_of_unused hkept hsoon) rfl
    case covered =>
      exact exec_of_owner rfl rfl hpass ((ownPoundDisable_of_active hkept rfl hsoon hleft).trans (if_pos hcov)) rfl
    case needed =>
      exact exec_of_owner rfl rfl hpass
        ((ownPoundDisable_of_active hkept rfl hsoon hleft).trans (if_neg (Bool.eq_false_iff.1 hcov))) rfl
    case stopped => exact exec_of_owner rfl rfl hpass (ownPoundDisable_of_stopped hkept hsoon) rfl
  case cells =>
    rintro s r d u rfl g rfl q rfl
    refine ⟨fun hpass hbypass hgone => ?gone, fun hpass hbypass hparked hfailed hidle => ?running,
      fun hpass hwrite hend hbegin => ?guarded,
      fun hpass hfree hdark hunreached hreached hruns hnone => ?service⟩
    case gone => exact exec_of_owner rfl rfl hpass (ownBypass_of_gone hbypass hgone) rfl
    case running => exact exec_of_owner rfl rfl hpass (ownBypass_of_idle hbypass hparked hfailed hidle) rfl
    case guarded => exact exec_of_owner rfl rfl hpass (ownService_of_guarded hwrite hend hbegin) rfl
    case service =>
      have hopen : (d.le 6 1 = 2 && guarded (d.le 8 2) (d.le 7 1)) = false := by
        rcases hfree with hread | hbeside
        · simp [hread]
        · simp [guarded_eq_false hbeside]
      have hown := ownService_of_reached (c := s.cmdOf r d) rfl hopen hdark hunreached hreached hruns hnone rfl
      exact exec_of_owner rfl rfl hpass hown rfl

end Sys2Proof.Machine
end

section
/-! SUPPORT. Upstream barges, relays and hop delays: what each meets on its way and what is taken of it (R152, R153,
R155, R157, R159, R165, R168, R173, R176 to R178). -/

set_option Elab.async false

namespace Sys2Proof.Machine

open Sys2Proof

section Barges

variable {s u v : State} {n p g t : Nat} {b : Barge}

/-! ### The checks of a barge (R152, R153, R155) -/

/-- An inverted CRC marks a barge that a node has stomped. -/
theorem State.screen_of_stomped (hbad : b.crc ≠ b.goodCrc) (hstomped : b.crc = ~~~b.goodCrc) (hp : p < s.poundCount)
    (f : State → State) : s.screen p b f = s.inc (R.CNL_POUND_ERR_STOMPED p) :=
  (if_pos hbad).trans (if_pos (by simp [hstomped, hp]))

theorem State.screen_of_badCrc (hbad : b.crc ≠ b.goodCrc) (hother : b.crc ≠ ~~~b.goodCrc) (f : State → State) :
    s.screen p b f = s :=
  (if_pos hbad).trans (if_neg (by simp [hother]))

theorem State.screen_of_badLength (hgood : b.crc = b.goodCrc) (hlen : b.length ≠ bargeWords b.typ) (f : State → State) :
    s.screen p b f = { s with cnl := { s.cnl with malformed := s.cnl.malformed + 1 } } :=
  (if_neg (not_not_intro hgood)).trans (if_pos hlen)

/-! ### Barges by their type (R168) -/

theorem State.upstream_of_state (h : b.typ = 2 ∨ b.typ = 3) : s.upstream n b t = s.stateFrom (isWest n) b t := if_pos h

theorem State.upstream_of_fault (h : b.typ = 7) : s.upstream n b t = s.faultFrom b := by simp [State.upstream, h]

theorem State.upstream_of_response (h : b.typ = 6) : s.upstream n b t = s.serviceFrom b := by simp [State.upstream, h]

/-- Of the training barges a REPORT tells of its node. -/
theorem State.upstream_of_report (h : b.typ = 10) (hb : bargeOk b) (hreport : leAt b.payload 0 1 = 3) :
    s.upstream n b t = s.nodeReport n b := by
  simp [State.upstream, h, State.screen_of_ok hb, hreport]

/-- A barge of its pound on a running lane goes to the partner in a pair, and is taken. -/
theorem State.received_of_running (hlane : isLink n = false) (hruns : s.runs n = true) (hp : b.pound = poundOf n)
    (hloop : s.looped (poundOf n) = false)
    (hu : u = if s.is R.RED_CTL_PAIRED && b.crc = b.goodCrc then s.sendRelay 1 n b else s) :
    s.received n b t = u.upstream n b t := by
  subst hu
  exact if_neg (by simp [hlane, hruns, hp, hloop])

theorem State.received_of_unheard (h : s.runs n = false ∨ b.pound ≠ poundOf n ∨ s.looped (poundOf n) = true) :
    s.received n b t = s := by
  refine if_pos ?_
  rcases h with h | h | h <;> simp [h]

/-! ### States, faults and answers (R173, R176, R177) -/

/-- A state of the due sample over the cell's reading end is accepted inside its uplink window. -/
theorem State.stateFrom_of_due {west : Bool} {k : Nat} (hb : bargeOk b) (hp : b.pound < s.poundCount)
    (hpos : b.position < 16) (hg : g = 16 * b.pound + b.position) (hreached : s.reached g = true)
    (hend : s.is (R.CNL_CELL_STAT_END g) = west) (hk : k = s.dueSample b.pound) (hcycle : b.cycle = k % 65536)
    (hhops : b.hops = s.rd (R.CNL_CELL_STAT_DEPTH g)) (hout : s.isOut b.pound = false) :
    s.stateFrom west b t = if s.inUplink b.pound t then
      ((((s.acceptState g k b).showNode g).cellNews g k).takeClosure g).prechargeDone b.pound else s := by
  subst hg hk
  simp [State.stateFrom, State.screen_of_ok hb, hp, hpos, hreached, hend, hcycle, hhops, hout]

/-- A report whose FAULT_SEQ has been acknowledged changes nothing. -/
theorem State.cellReport_of_known {x : Bytes} {a : Nat × List Nat} (ha : s.flt.acks.find? (fun a => a.1 = g) = some a)
    (hseq : a.2.contains (leAt x 3 1) = true) : s.cellReport g x = s := by
  refine if_pos ?_
  simp only [ha, hseq, Bool.or_true]

theorem State.faultFrom_of_fitted (hb : bargeOk b) (hp : b.pound < s.poundCount)
    (hpos : b.position < s.rd (R.CNL_POUND_CTL_FITTED b.pound)) :
    s.faultFrom b = s.cellReport (16 * b.pound + b.position) b.payload := by
  rw [State.faultFrom, State.screen_of_ok hb]
  exact if_neg (by simp [hp, hpos])

theorem State.serviceFrom_of_answer {r : ServiceReq} (hb : bargeOk b) (hg : g = 16 * b.pound + b.position)
    (hr : (s.link g).service = some r) (hsent : r.sent = some b.seq) : s.serviceFrom b =
      s.serviceDone g r (leAt b.payload 2 1) (if r.op = 1 then leAt b.payload 8 (4 * r.len) else 0) := by
  subst hg
  rw [State.serviceFrom, State.screen_of_ok hb]
  simp only [hr, hsent, if_true]

theorem State.serviceTimeout_of_request {r : ServiceReq} (hr : (s.link g).service = some r) :
    s.serviceTimeout g = if r.sent.isSome then s.serviceDone g r 0x10 0 else s := by
  simp only [State.serviceTimeout, hr]

/-! ### Relayed barges (R168, R178) -/

section Relays

variable {l : Nat} (hlink : 24 ≤ l) (hruns : s.runs l = true)
include hlink hruns

/-- What the partner has heard at its end is taken as heard here. -/
theorem State.relayed_of_upstream (hend : s.ownEnd n = false) : s.relayed l 1 n b t = s.upstream n b t := by
  simp [State.relayed, isLink_of_ge hlink, hruns, hend]

/-- What the partner sends over this seat's end goes out there, marked as relayed, where the gate lets it. -/
theorem State.relayed_of_downstream {c : Barge} (hend : s.ownEnd n = true) (hlane : s.runs n = true) (hb : bargeOk b)
    (hgate : s.gateOpen = true ∨ s.is R.RED_PARTNER_LINE = true ∨ b.typ = 4) (hc : c = { b with flags := b.flags ||| 4 }) :
    s.relayed l 2 n b t = s.emit (.barge n { c with crc := c.goodCrc }) := by
  subst hc
  rw [State.relayed, if_neg (by simp [isLink_of_ge hlink, hruns]), if_neg (by decide), if_pos rfl, State.screen_of_ok hb]
  refine if_pos ?_
  rcases hgate with h | h | h <;> simp [hend, hlane, h]

theorem State.relayed_of_otherKind {k : Nat} (hup : k ≠ 1) (hdown : k ≠ 2) :
    s.relayed l k n b t = { s with cnl := { s.cnl with malformed := s.cnl.malformed + 1 } } := by
  simp [State.relayed, isLink_of_ge hlink, hruns, hup, hdown]

end Relays

/-! ### Hop delays (R157, R159, R165) -/

section HopDelays

variable (hb : bargeOk b)
include hb

/-- A DELAY_RSP that answers the request sent last is kept, unless it lies more than 1 ns from a mean there is. -/
theorem State.delayMeasured_of_answer {rtt d : Nat} (hlane : isLink n = false) (htyp : leAt b.payload 0 1 = 9)
    (hseq : (s.lane n).delaySeq.map (·.toNat) = some (leAt b.payload 12 1))
    (hu : u = s.modLane n fun l => { l with delaySeq := none }) (hd : d = (stamped rtt - leAt b.payload 4 4) / 2)
    (hv : v = u.modLane n fun l => { l with delays := (d :: l.delays).take 8 }) : s.delayMeasured n rtt b =
      if !(u.lane n).delays.isEmpty && (u.laneDelay n + 65536 < d || d + 65536 < u.laneDelay n) then
        u.modLane n fun l => { l with discarded := l.discarded + 1 }
      else (v.showPaths (poundOf n)).capByDelay (poundOf n) := by
  subst hv hd hu
  rw [State.delayMeasured, State.screen_of_ok hb]
  exact if_neg (by simp [hlane, htyp, hseq])

theorem State.delayMeasured_of_other {rtt : Nat} (h : leAt b.payload 0 1 ≠ 9 ∨
      (s.lane n).delaySeq.map (·.toNat) ≠ some (leAt b.payload 12 1)) : s.delayMeasured n rtt b = s := by
  rw [State.delayMeasured, State.screen_of_ok hb]
  refine if_pos ?_
  rcases h with h | h <;> simp [h]

/-- A request on a lane whose receiver is up is answered with the turn. -/
theorem State.delayReq_of_up {turn : Nat} (hlane : isLink n = false) (hoff : s.laneState n ≠ .off)
    (hdetect : s.laneState n ≠ .detect) (habsent : s.laneState n ≠ .absent) : s.delayReq n turn b =
      s.sendTrain n (layBytes 16 [(0, 1, 9), (4, 4, stamped turn), (12, 1, leAt b.payload 12 1)]) := by
  rw [State.delayReq, State.screen_of_ok hb]
  exact if_neg (by simp [hlane, hoff, hdetect, habsent])

end HopDelays

end Barges

/-- Settles O49: each barge by what its checks, its lane and its type make of it. -/
theorem bargesAreTaken : Obligations.BargesAreTaken := by
  refine ⟨fun s hs => ⟨?heard, ?unheard, ?screened, ?state, ?fault, ?answer, ?unanswered, ?upstream, ?otherKind,
    ?downstream, ?byType⟩, fun s n b hs hb => ⟨?delay, ?stray, ?request⟩⟩
  case heard =>
    intro n b t u hruns hp hloop hu
    have htaken (t : Nat) := State.received_of_running (t := t) (isLink_canal n) hruns hp hloop hu
    exact ⟨fun h => exec_of_effect (.inl hs) ((htaken t).trans (State.upstream_of_state h)),
      fun h => exec_of_effect (.inl hs) ((htaken 0).trans (State.upstream_of_fault h)),
      fun h => exec_of_effect (.inl hs) ((htaken 0).trans (State.upstream_of_response h))⟩
  case unheard =>
    exact fun n b t h => ⟨exec_of_effect (.inl hs) (State.received_of_unheard h),
      exec_of_effect (.inl hs) (State.received_of_unheard h), exec_of_effect (.inl hs) (State.received_of_unheard h)⟩
  case screened =>
    exact fun p b f => ⟨fun hb => State.screen_of_ok hb s p f,
      fun hbad hstomped hp => State.screen_of_stomped hbad hstomped hp f,
      fun hbad hother => State.screen_of_badCrc hbad hother f, fun hgood hlen => State.screen_of_badLength hgood hlen f⟩
  case state =>
    exact fun west b t g k hb hp hpos hg hreached hend hk hcycle hhops hout =>
      State.stateFrom_of_due hb hp hpos hg hreached hend hk hcycle hhops hout
  case fault =>
    rintro b seq hb hp rfl hpos ⟨a, ha, hseq⟩
    exact (State.faultFrom_of_fitted hb hp hpos).trans (State.cellReport_of_known ha hseq)
  case answer => exact fun b g r hb hg hr hsent => State.serviceFrom_of_answer hb hg hr hsent
  case unanswered => exact fun g r hr => exec_of_effect (.inl hs) (State.serviceTimeout_of_request hr)
  case upstream =>
    exact fun l n b t hruns hend =>
      exec_of_effect (.inl hs) (State.relayed_of_upstream (Nat.le_add_right 24 l) hruns hend)
  case otherKind =>
    intro l k n x hruns hup hdown
    exact exec_of_effect (.inl hs) (State.relayed_of_otherKind (Nat.le_add_right 24 l) hruns
      (fun h => hup (BitVec.eq_of_toNat_eq h)) fun h => hdown (BitVec.eq_of_toNat_eq h))
  case downstream =>
    exact fun l n b t c hruns hend hlane hb hgate hc =>
      exec_of_effect (.inl hs) (State.relayed_of_downstream (Nat.le_add_right 24 l) hruns hend hlane hb hgate hc)
  case byType =>
    exact fun n b t => ⟨State.upstream_of_state, State.upstream_of_fault, State.upstream_of_response,
      State.upstream_of_report⟩
  case delay =>
    exact fun rtt d u v htyp hseq hu hd hv =>
      exec_of_effect (.inl hs) (State.delayMeasured_of_answer hb (isLink_canal n) htyp hseq hu hd hv)
  case stray => exact fun rtt h => exec_of_effect (.inl hs) (State.delayMeasured_of_other hb h)
  case request =>
    exact fun turn hoff hdetect habsent =>
      exec_of_effect (.inl hs) (State.delayReq_of_up hb (isLink_canal n) hoff hdetect habsent)

end Sys2Proof.Machine
end

section
/-! SUPPORT. The Loop Engine's descriptor banks, its host set-points and BANK_COMMIT: where a word written in a bank
leads, and what the owners of SETPOINT, STRING_SETPOINT and BANK_COMMIT admit (R205, R207, R216, R248, R252, R254,
R258). -/

set_option Elab.async false

namespace Sys2Proof.Machine

open Sys2Proof

/-! ### Descriptor banks (R205, R248) -/

section Banks

variable {s u : State} {v : Word}

/-- From boot DONE on every register that exists decodes (R80, R433). -/
theorem State.decodes_of_bootDone (hs : s.collects = true) (hb : s.bootDone = true) (off : Nat) :
    s.decodes off = regExists off := by
  obtain ⟨hoff, hreset⟩ : s.sys.boot ≠ .off ∧ s.sys.boot ≠ .reset := by simpa [State.collects] using hs
  rw [State.decodes, if_neg (not_or.2 ⟨hoff, hreset⟩), if_pos hb]

theorem isBank_of_word (i : Fin 65536) : isBank (0x40000 + 4 * i) = true := by
  simp [isBank]; omega

/-- Every word of the banks exists. -/
theorem regExists_of_word (i : Fin 65536) : regExists (0x40000 + 4 * i) = true := by
  have halign : (0x40000 + 4 * i.val) % 4 = 0 := by omega
  simp [regExists, halign, isBank_of_word]

theorem State.wakeLink_loop (s : State) (q : Requester) : (s.wakeLink q).loop = s.loop := by
  unfold State.wakeLink; split <;> rfl

/-- Waking the link closes no bank. -/
theorem State.wakeLink_bankClosed (s : State) (q : Requester) (b : Nat) :
    (s.wakeLink q).bankClosed b = s.bankClosed b := by
  unfold State.wakeLink; split <;> rfl

/-- A word of a bank written goes to the bank: bank B follows bank A, of 32,768 words each. -/
theorem State.writeReg_bank (hs : s.collects = true) (hb : s.bootDone = true) (i : Fin 65536) :
    s.writeReg byHost (0x40000 + 4 * i) v = (s.wakeLink byHost).bankWrite (0x40000 + 4 * i) v := by
  have hdec : (s.wakeLink byHost).decodes (0x40000 + 4 * i) = true := by
    rw [State.wakeLink_decodes, State.decodes_of_bootDone hs hb, regExists_of_word]
  simp [State.writeReg, State.writeMemory, isBank_of_word, hdec]

theorem State.bankWrite_of_closed {off b : Nat} (hoff : b = (off - 0x40000) / 0x20000) (hc : s.bankClosed b = true) :
    s.bankWrite off v = s.raise 0x043 0 := by
  subst hoff
  exact if_pos hc

/-- A word stored in an open bank voids what verification recorded of it, and makes a verification of it fail. -/
theorem State.bankWrite_of_open {off b : Nat} (hoff : b = (off - 0x40000) / 0x20000) (hc : s.bankClosed b = false)
    (hu : u = { s with loop := { s.loop with
      words := SMap.put (fun _ => 0) s.loop.words off v,
      verifying := s.loop.verifying.map fun w => w || decide (b = s.loop.verifyBank) } }) :
    s.bankWrite off v = (u.setBankInfo b { u.bankInfo b with verified := false, digest := 0 }).showBanks := by
  subst hoff hu
  exact if_neg (Bool.eq_false_iff.1 hc)

theorem bank_of_word (i : Fin 65536) : i.val / 32768 = (0x40000 + 4 * i.val - 0x40000) / 0x20000 := by omega

/-- GO starts a verification of the staged bank where none runs (Table 7.16). -/
theorem State.loopWrite_go (hd : s.decodes 0x20004 = true) (hu : u = s.written 0x20004 1#32)
    (hidle : u.is R.LOOP_BANK_STAT_VERIFY_BUSY = false) :
    s.loopWrite byHost 0x20004 1#32 = State.wrB { u with loop := { u.loop with
      verifying := some false, verifyBank := u.stagedBank } } R.LOOP_BANK_STAT_VERIFY_BUSY true := by
  have hgo : s.loopWrite byHost 0x20004 1#32 = u.verifyGo := by
    subst hu
    exact (hostWrite_written hd _).trans (if_pos ⟨rfl, rfl⟩)
  exact hgo.trans (if_neg (Bool.eq_false_iff.1 hidle))

theorem regExists_soeSet : ∀ i : Fin 16, regExists (0x2C21C + 0x20 * i) = true := by decide

/-- An SOE written waits for the next SAMPLE mark (R248). -/
theorem State.soeWrite_of_decodes {i : Nat} (hi : i < 16) (hd : s.decodes (0x2C21C + 0x20 * i) = true)
    (hu : u = s.written (0x2C21C + 0x20 * i) v) :
    s.soeWrite i v = { u with nrg := { u.nrg with soeSet := u.nrg.soeSet ++ [(i, v.toNat)] } } := by
  subst hu
  exact (if_neg (Nat.not_le.2 hi)).trans (hostWrite_written hd _)

end Banks

/-- Settles O17: each access by where its word leads; a verification's end checks the commits that waited. -/
theorem banksAreWrittenAndVerified : Obligations.BanksAreWrittenAndVerified := by
  intro s u v hs hb
  refine ⟨?closed, ?stored, ?go, ?verified, ?soe⟩
  case closed =>
    rintro i b rfl hc
    rw [← State.wakeLink_bankClosed s byHost] at hc
    exact exec_of_effect (.inl hs) ((State.writeReg_bank hs hb i).trans (State.bankWrite_of_closed (bank_of_word i) hc))
  case stored =>
    rintro i b m rfl hc rfl hu
    rw [← State.wakeLink_bankClosed s byHost] at hc
    rw [← State.wakeLink_loop s byHost] at hu
    exact exec_of_effect (.inl hs)
      ((State.writeReg_bank hs hb i).trans (State.bankWrite_of_open (bank_of_word i) hc hu))
  case go =>
    have hd : s.decodes 0x20004 = true := (State.decodes_of_bootDone hs hb _).trans (by decide)
    exact fun hu hidle => exec_of_effect (.inl hs) (State.loopWrite_go hd hu hidle)
  case verified => exact fun hv => exec_of_effect (.inl hs) (if_pos hv)
  case soe =>
    intro i hu
    have hd : s.decodes (0x2C21C + 0x20 * i) = true := (State.decodes_of_bootDone hs hb _).trans (regExists_soeSet i)
    exact exec_of_effect (.inl hs) (State.soeWrite_of_decodes i.isLt hd hu)

/-! ### Set-points and commits (R207, R216, R252, R254) -/

section Owners

variable {s w : State} {c : Cmd}

/-- A command that moves no voltage and no role fits every cap in every view, so only its further test can fail. -/
theorem State.misfit_of_noChange (s : State) (planned : Bool) (o : Option Nat) :
    s.misfit planned { Ask.nothing with extra := o } = o := by
  have hview : s.viewWith planned { Ask.nothing with extra := o } = s.viewWith planned Ask.nothing := rfl
  have hcells (cap : Int) (l : List Int) :
      (List.zip l l).any (fun (e, f) => decide (cap < e) && decide (f < e)) = false := by
    simp [List.zip, List.zipWith_self]
  have hpounds (l : List Nat) : (l.any fun _ => false) = false := by simp
  unfold State.misfit
  simp only [hview, hcells, hpounds, Int.lt_irrefl, decide_false, Bool.and_false, Bool.false_eq_true, if_false]

/-- What moves nothing and passes its further test is admitted as asked (R256). -/
theorem State.admission_of_noChange {may : Option Rat} {test : F32 → Option Nat} {v now : F32} {final : Bool}
    (h : test v = none) : s.admission may (fun x => { Ask.nothing with extra := test x }) v now final =
      { status := .ok, value := v } := by
  rw [State.admission, State.misfit_of_noChange, h]

theorem Status.done_ok : Status.ok.done = true := rfl

/-- Only a derated admission is told. -/
theorem State.tellDerated_of_ok {v : Verdict} (h : v.status = .ok) : s.tellDerated c v = s := if_neg (by simp [h])

/-- A slot in no energy class takes the set-point as asked (R258). -/
theorem ownSetpoint_of_unclassed {slot : Nat} {v : F32} (hslot : slot = c.desc.le 4 2) (hv : v = opF32 c.desc 8)
    (hclass : s.slotClass slot = (0, 0)) : ownSetpoint false c s =
      ((s.supersedeOlder c 0x20 fun x => x.le 4 2 = slot).stageSetpoint slot v, { status := .ok, value := v }) := by
  subst hslot hv
  simp only [ownSetpoint, hclass, Status.done_ok, if_true, State.tellDerated_of_ok]

/-- With BOTH in force a current within the string's limits is admitted as asked, and its guards end (R252). -/
theorem ownString_of_within {i slot : Nat} {v : F32} (hi : i = c.desc.le 4 1) (hv : v = opF32 c.desc 8)
    (hslot : slot = s.rd R.NRG_OUT_OUT_BASE + i) (hout : s.basinOut = true) (hboth : s.rd R.NRG_CTL_DIR = 2)
    (htest : s.stringTest i v = true) (hmax : fLe (fAbs v) (s.f32 (R.NRG_STR_IMAX i)) = true)
    (hw : w = s.supersedeOlder c 0x21 fun x => x.le 4 1 = i) : ownString false c s =
      (((({ w with loop := { w.loop with staged := w.loop.staged ++ [(slot, v)] } }).wrB (R.NRG_STR_STAT_GUARD i)
        false).wrB (R.NRG_STR_STAT_TOP i) false).showGuard, { status := .ok, value := v }) := by
  subst hi hv hslot hw
  have hdir : ((s.rd R.NRG_CTL_DIR = 0 && fLt (opF32 c.desc 8) 0#32) ||
      (s.rd R.NRG_CTL_DIR = 1 && fLt 0#32 (opF32 c.desc 8))) = false := by simp [hboth]
  have hwithin : (s.stringTest (c.desc.le 4 1) (opF32 c.desc 8) &&
      fLe (fAbs (opF32 c.desc 8)) (s.f32 (R.NRG_STR_IMAX (c.desc.le 4 1)))) = true := by rw [htest, hmax]; rfl
  simp only [ownString, hout, hdir, State.admission_of_noChange, hwithin, Status.done_ok, Bool.not_true,
    Bool.false_eq_true, if_false, if_true, State.tellDerated_of_ok]

/-- The verified bank that is not in force passes where its digest, its schedule and the partner's copy agree
(Table 7.9). -/
theorem State.commitVerdict_of_verified {b n : Nat} (hidle : b ≠ s.bank) (hnone : s.loop.verifying = none)
    (hverified : (s.bankInfo b).verified = true) (hdigest : (s.bankInfo b).digest.toNat = n)
    (hsched : (s.bankInfo b).sched ≤ s.budget s.periodNs)
    (hpartner : s.is R.RED_CTL_PAIRED = false ∨ leAt s.red.partner 16 4 = (s.bankInfo b).digest.toNat) :
    s.commitVerdict b n = vOk := by
  have hpair : (s.is R.RED_CTL_PAIRED && decide (leAt s.red.partner 16 4 ≠ (s.bankInfo b).digest.toNat)) = false := by
    rcases hpartner with h | h <;> simp [h]
  subst hdigest
  unfold State.commitVerdict
  simp only [hidle, hnone, hverified, Nat.not_lt.2 hsched, hpair, Option.isSome_none, Bool.false_and, Bool.not_true,
    Bool.false_eq_true, ne_eq, not_true_eq_false, if_false]

/-- A bank that passes is accepted for the next SAMPLE mark (R207). -/
theorem ownCommit_of_ok {b : Nat} (hb : b = c.desc.le 4 1) (hok : s.commitVerdict b (c.desc.le 8 4) = vOk) :
    ownCommit c s = ((s.supersedeOlder c 0x30 fun _ => true).acceptCommit b, vOk) := by
  subst hb
  simp only [ownCommit, hok]
  exact if_pos rfl

end Owners

/-- Settles O26: each command by what its owner admits of a descriptor that passes the checks before. -/
theorem setpointsAndBanks : Obligations.SetpointsAndBanks := by
  refine ⟨?setpoints, ?commit⟩
  case setpoints =>
    rintro s r d u rfl v rfl
    refine ⟨fun hpass hclass => ?slot, fun i slot w hpass hi hslot hout hboth htest hmax hw => ?string⟩
    case slot => exact exec_of_owner rfl rfl hpass (ownSetpoint_of_unclassed rfl rfl hclass) rfl
    case string =>
      exact exec_of_owner rfl rfl hpass (ownString_of_within hi rfl hslot hout hboth htest hmax hw) rfl
  case commit =>
    rintro s r d hpass u rfl b hb hidle hnone hverified hdigest hsched hpartner w rfl
    have hok := State.commitVerdict_of_verified hidle hnone hverified hdigest hsched hpartner
    exact exec_of_owner rfl rfl hpass (ownCommit_of_ok hb hok) rfl

end Sys2Proof.Machine
end

section
/-! SUPPORT. What the owners of GRID_MODE and ENERGY_DIR decide (Table 8.10, R239, R251). -/

set_option Elab.async false

namespace Sys2Proof.Machine

open Sys2Proof

/-! ### Grid modes (R239) -/

/-- IDLE may be left for any mode. -/
theorem gridAllowed_of_idle {t : Nat} (h : t ≠ 0) : gridAllowed 0 t = true := by simp [gridAllowed, h]

section GridOwner

/-! The request meets neither a shut-down nor a blend. -/

variable {s : State} {c : Cmd} {t : Nat} (ht : t = c.desc.le 4 1) (hshut : s.shutting = false)
  (hblend : s.cell.blend = none)
include ht hshut hblend

/-- The mode in force asks for nothing, where no return to IDLE is queued that would end it. -/
theorem ownGrid_of_same (hstay : s.grid = 0 ∨ s.gridSoon ≠ 0) (hsame : t = s.gridSoon) :
    ownGrid false c s = (s, vOk) := by
  have hleaves : (s.shutting || (s.grid ≠ 0 && s.gridSoon = 0)) = false := by
    rcases hstay with h | h <;> simp [hshut, h]
  rw [ht] at hsame
  simp only [ownGrid, hleaves, hblend, hsame, Option.isSome_none, Bool.false_and, Bool.false_eq_true, if_false, if_true]

/-- From a mode other than IDLE only the transition itself and its VPK condition are checked (Table 8.10). -/
theorem ownGrid_of_running (hother : t ≠ s.gridSoon) (hrun : s.gridSoon ≠ 0)
    (hallowed : gridAllowed s.gridSoon t = true) (hvpk : s.vpkAllows s.gridSoon t = true) :
    ownGrid false c s = (s.accept c (fun _ => true) 0, vOk) := by
  rw [ht] at hother hallowed hvpk
  simp only [ownGrid, hshut, hblend, hother, hrun, hallowed, hvpk, Option.isSome_none, Bool.not_true, Bool.false_and,
    Bool.and_false, Bool.or_self, decide_false, Bool.false_eq_true, if_false]

/-- IDLE is left once slots, legs, VPK and sluice allow it and the cells that are READY fit as active (Table 8.10). -/
theorem ownGrid_of_idle {v : Verdict} (hgrid : s.grid = 0) (hidle : s.gridSoon = 0) (hleave : t ≠ 0)
    (hslots : s.gridSlots = true) (hneed : ([0, 1, 2].all fun l => s.rd (R.CELL_LEG_CTL_N_NEED l) ≠ 0) = true)
    (hlegs : ([0, 1, 2].any s.legRefuses) = false) (hvpk : s.vpkAllows 0 t = true) (hsluice : s.rd R.NRG_STAT_SLUICE = 0)
    (hv : s.admission none (fun _ => { Ask.nothing with act := fun g => s.soonRole g = .ready }) 0 0 false = v)
    (hdone : v.status.done = true) : ownGrid false c s = (s.accept c (fun _ => true) 0, v) := by
  have hallowed := gridAllowed_of_idle hleave
  have hunset : ([0, 1, 2].any fun l => s.rd (R.CELL_LEG_CTL_N_NEED l) = 0) = false := by simpa using hneed
  rw [ht] at hleave hallowed hvpk
  simp only [ownGrid, hshut, hblend, hgrid, hidle, hleave, hallowed, hslots, hunset, hlegs, hvpk, hsluice, hv, hdone,
    Option.isSome_none, Bool.not_true, Bool.false_and, Bool.and_false, Bool.or_self, ne_eq, not_true_eq_false,
    decide_false, Bool.false_eq_true, if_false, if_true]

end GridOwner

/-! ### Directions (R251) -/

/-- Does a set-point of a sign that direction `t` forbids stand? CHARGE (0) forbids string currents below 0 and power
set-points above 0, DISCHARGE (1) the opposite signs (R251). -/
def State.standsAgainst (s : State) (t : Nat) : Bool :=
  let strings := (List.range 16).map s.stringSetpoint
  let powers := s.powerSetpoints.map (·.2)
  let neg (xs : List F32) := xs.any fun v => fLt v 0#32
  let pos (xs : List F32) := xs.any fun v => fLt 0#32 v
  (t = 0 && (neg strings || pos powers)) || (t = 1 && (pos strings || neg powers))

theorem State.standsAgainst_iff (s : State) (t : Nat) : s.standsAgainst t = true ↔
    (t = 0 ∧ ((((List.range 16).map s.stringSetpoint).any fun v => fLt v 0#32) = true ∨
      ((s.powerSetpoints.map (·.2)).any fun v => fLt 0#32 v) = true)) ∨
    (t = 1 ∧ ((((List.range 16).map s.stringSetpoint).any fun v => fLt 0#32 v) = true ∨
      ((s.powerSetpoints.map (·.2)).any fun v => fLt v 0#32) = true)) := by
  simp only [State.standsAgainst, Bool.or_eq_true, Bool.and_eq_true, decide_eq_true_eq]

/-- A direction is refused for what stands against it, and else admitted. -/
theorem ownDir_eq (c : Cmd) (s : State) : ownDir c s =
    if s.standsAgainst (c.desc.le 4 1) then (s, vMode 0x0402) else (s.accept c (fun _ => true) 0, vOk) := rfl

/-- Settles O25: each command by what its owner decides of a descriptor that passes the checks before. -/
theorem gridModesAndDirections : Obligations.GridModesAndDirections := by
  refine ⟨?grid, ?direction⟩
  case grid =>
    rintro s r d hpass u rfl t ht q rfl hshut hblend hstay
    refine ⟨fun hsame => ?same, fun hother hrun hallowed hvpk => ?running,
      fun hidle hleave hslots hneed hlegs hvpk hsluice v hv hdone => ?idle⟩
    case same => exact exec_of_owner rfl rfl hpass (ownGrid_of_same ht hshut hblend hstay hsame) rfl
    case running =>
      exact exec_of_owner rfl rfl hpass (ownGrid_of_running ht hshut hblend hother hrun hallowed hvpk) rfl
    case idle =>
      have hgrid : (s.taken r).grid = 0 := hstay.resolve_right fun h => h hidle
      exact exec_of_owner rfl rfl hpass
        (ownGrid_of_idle ht hshut hblend hgrid hidle hleave hslots hneed hlegs hvpk hsluice hv hdone)
        (Status.final_of_done hdone)
  case direction =>
    rintro s r d hpass u rfl t rfl strings powers rfl rfl against hiff
    rw [← State.standsAgainst_iff] at hiff
    have hown := ownDir_eq (s.cmdOf r d) (s.taken r)
    refine ⟨fun h => ?refused, fun h => ?admitted⟩
    case refused => exact exec_of_owner rfl rfl hpass (hown.trans (if_pos (hiff.1 h))) rfl
    case admitted => exact exec_of_owner rfl rfl hpass (hown.trans (if_neg fun hs => h (hiff.2 hs))) rfl

end Sys2Proof.Machine
end

section
/-! SUPPORT. What ends when a time limit of the Cell Manager or of the sluice passes, and how a signed record is written
(R227, R228, R232, R234, R235, R241, R261, R265, R266, R414). -/

set_option Elab.async false

namespace Sys2Proof.Machine

open Sys2Proof

section CellTimers

variable {s u v : State}

/-! ### Pounds (R227, R228, R235) -/

/-- A pre-charge that is too long disables the pound and its charging cells. -/
theorem State.prechargeTimeout_of_charging {p : Nat} (hcharging : s.poundState p = 1)
    (hu : u = s.advanceByTicks ((s.pmgr p).since + s.rd R.CELL_TMO_PRECH_TMO * 500000)) :
    s.prechargeTimeout p = (((u.setRoles (u.cellsIn (poundCells p) [.charging]) .disabled).setPound p 0 3).raise
      0x062 p).regroupAll := by
  subst hu
  exact if_pos hcharging

/-- STOPPING ends at its limit, which has passed where a cell has not reported: such cells fail, with the cause
that log entry 77 gives them, the others stop. -/
theorem State.stoppingEnd_of_stopping {p : Nat} {t : State} (hstopping : s.poundState p = 4)
    (ht : t = if (s.pmgr p).waiting = [] then s else
      s.advanceByTicks ((s.pmgr p).since + s.rd R.CELL_TMO_BYP_TMO * 500000))
    (hu : u = each ((s.pmgr p).waiting.filter fun g => t.cellRole g ≠ .failed) (fun v g =>
      ((v.setRole g .failed).roleEvent g (v.cellRole g) .failed 0xFF06).raise 0x060 g) t) :
    s.stoppingEnd p = ((((u.setRoles (u.cellsIn (poundCells p) [.disabled, .parked, .charging, .ready, .active, .rejoining])
      (if u.grid = 0 then .disabled else .parked)).modPmgr p fun x => { x with waiting := [] }).setPound p 0 4).regroupAll).retryAll
        0x40 (fun d => d.le 4 1 = p) (ownPoundEnable false) := by
  simp only [← List.isEmpty_iff] at ht
  subst hu ht
  exact if_neg fun h => h hstopping

/-- A pound long OUT outside IDLE is told to bypass. -/
theorem State.outTimeout_of_out {p : Nat} (hout : s.isOut p = true) (hgrid : s.grid ≠ 0)
    (hlong : s.rd R.CELL_TIMING_OUT_TMO ≤ (s.pound p).outCycles) :
    s.outTimeout p = s.modPmgr p fun x => { x with outBypass := true } :=
  if_pos (by simp [hout, hgrid, hlong])

/-! ### Cells (R232, R234, R261) -/

/-- A bypass not confirmed in time is told once. -/
theorem State.bypassTimeout_of_unconfirmed {g t : Nat} (hat : (s.cellAt g).bypassAt = some t)
    (htold : (s.cellAt g).bypassTold = false)
    (hu : u = s.advanceByTicks (t + s.rd R.CELL_TMO_BYP_TMO * 500000)) : s.bypassTimeout g =
      ((u.modCell g fun c => { c with bypassTold := true }).event 3 7 [(16, 2, g)]).raise 0x063 g := by
  subst hu
  simp only [State.bypassTimeout, hat]
  exact if_neg (Bool.eq_false_iff.1 htold)

/-- A rejoin that is too long returns the cell to its former role (its cause: log entry 77). -/
theorem State.rejoinTimeout_of_rejoining {g : Nat} {back : CellRole} (hrole : s.cellRole g = .rejoining)
    (hback : back = CellRole.ofCode (s.cellAt g).former)
    (hu : u = s.advanceByTicks ((s.cellAt g).since + s.rd R.CELL_TMO_PRECH_TMO * 500000)) :
    s.rejoinTimeout g = ((u.setRole g back).roleEvent g .rejoining back 0xFF08).regroupAll := by
  subst hback hu
  exact if_pos hrole

/-- A sluicing cell that is too slow ends unfinished, with its fault. -/
theorem State.sluiceCellTimeout_of_sluicing {g : Nat} (hsluice : s.rd R.NRG_STAT_SLUICE = 1)
    (hrole : s.cellRole g = .sluicing)
    (hu : u = s.advanceByTicks ((s.cellAt g).since + s.rd R.NRG_SLUICE_TMO * 500000)) :
    s.sluiceCellTimeout g = (u.sluiceCellEnd g false).raise 0x084 g := by
  subst hu
  exact if_pos (by simp [hsluice, hrole])

/-! ### The shut-down's ramp (R241) -/

/-- Waiting moves no power state, so marks run after it as before. -/
theorem State.marksRun_advanceTo (s : State) (m : Int) : (s.advanceTo m).marksRun = s.marksRun := rfl

/-- While marks run the end of the ramp is noted for the next one; without marks IDLE is reached at once
(log entries 94 and 120). -/
theorem State.shutdownEnd_of_shut {x : ShutDown} (hx : s.cell.shut = some x)
    (hu : u = s.advanceTo ((x.since : Int) + (s.rd R.CELL_IDLE_RAMP_RAMP : Int) * 1000000)) :
    s.shutdownEnd = if u.marksRun then { u with cell := { u.cell with shut := some { x with ended := true } } }
      else (u.rampStep x.start 1 1).reachIdle := by
  subst hu
  simp only [State.shutdownEnd, hx]

theorem State.shutdownEnd_of_none (h : s.cell.shut = none) : s.shutdownEnd = s := by
  simp only [State.shutdownEnd, h]

/-! ### Signed records (R265, R266, R414) -/

section SignedRecords

variable {j : RecordJob} {b : Bytes} {ok : Bool}

/-- The state in which the signed content `b` of a record has been written, or its write has failed. -/
def State.recordWritten (s : State) (j : RecordJob) (b : Bytes) (ok : Bool) : State :=
  if ok then (s.signature b).2.emit (.record j.addr (b ++ (s.signature b).1))
  else (s.signature b).2.raiseWith 0x00B 0 { addr := j.addr, access := 4 }

/-- RECORD_READY follows the energy record's write; the next record takes the next sequence number. -/
theorem State.recordReady_of_body (hj : s.nrg.record = some j) (hb : j.body = some b) (hv : v = s.recordWritten j b ok) :
    s.recordReady ok = State.event
      { v with nrg := { v.nrg with record := none, recordSeq := v.nrg.recordSeq + 1 } } 4 8
      [(16, 4, leAt b 4 4), (20, 2, j.tag), (22, 1, if ok then 0 else 1)] := by
  subst hv
  simp only [State.recordReady, hj, hb]
  rfl

/-- ATTEST_READY follows the attestation record's write; the next record takes the next sequence number. -/
theorem State.attestReady_of_body (hj : s.attestAtMark.sec.attest = some j) (hb : j.body = some b)
    (hv : v = s.recordWritten j b ok) : s.attestReady ok = State.event
      { v with sec := { v.sec with attest := none, attestSeq := v.sec.attestSeq + 1 } } 0xC 3
      [(16, 4, leAt b 4 4), (20, 2, j.tag), (22, 1, if ok then 0 else 1)] := by
  subst hv
  simp only [State.attestReady, hj, hb]
  rfl

end SignedRecords

end CellTimers

/-- Settles O51: each time limit by what it ends, each signed record by whether its write succeeded. -/
theorem cellTimersEnd : Obligations.CellTimersEnd := by
  refine ⟨fun s hs => ⟨?precharge, ?stopping, ?bypass, ?rejoin, ?out, ?ramp, ?noRamp, ?sluice⟩,
    fun s hs => ⟨?record, ?attest⟩⟩
  case precharge => exact fun p u h hu => exec_of_effect (.inl hs) (State.prechargeTimeout_of_charging h hu)
  case stopping => exact fun p t u h ht hu => exec_of_effect (.inl hs) (State.stoppingEnd_of_stopping h ht hu)
  case bypass =>
    exact fun g t u hat htold hu => exec_of_effect (.inl hs) (State.bypassTimeout_of_unconfirmed hat htold hu)
  case rejoin =>
    exact fun g back u h hback hu => exec_of_effect (.inl hs) (State.rejoinTimeout_of_rejoining h hback hu)
  case out => exact fun p hout hgrid hlong => exec_of_effect (.inl hs) (State.outTimeout_of_out hout hgrid hlong)
  case ramp =>
    intro x u hx hu
    have hmarks : u.marksRun = s.marksRun := hu ▸ s.marksRun_advanceTo _
    have hend := State.shutdownEnd_of_shut hx hu
    rw [hmarks] at hend
    exact ⟨fun h => exec_of_effect (.inl hs) (hend.trans (if_pos h)),
      fun h => exec_of_effect (.inl hs) (hend.trans (if_neg (Bool.eq_false_iff.1 h)))⟩
  case noRamp => exact fun h => exec_of_effect (.inl hs) (State.shutdownEnd_of_none h)
  case sluice =>
    exact fun g u hsluice hrole hu => exec_of_effect (.inl hs) (State.sluiceCellTimeout_of_sluicing hsluice hrole hu)
  case record =>
    rintro j b u v hj hb rfl
    exact ⟨fun hv => exec_of_effect (.inl hs) (State.recordReady_of_body hj hb hv),
      fun hv => exec_of_effect (.inl hs) (State.recordReady_of_body hj hb hv)⟩
  case attest =>
    rintro j b u v hj hb rfl
    exact ⟨fun hv => exec_of_effect (.inl hs) (State.attestReady_of_body hj hb hv),
      fun hv => exec_of_effect (.inl hs) (State.attestReady_of_body hj hb hv)⟩

end Sys2Proof.Machine
end

section
/-! SUPPORT. What the owners of SLUICE, ENERGY_RECORD and ATTEST decide (Table 9.6, R260, R265, R413, R414). -/

set_option Elab.async false

namespace Sys2Proof.Machine

open Sys2Proof

section SluiceAndRecordOwners

variable {s : State} {c : Cmd} {j : RecordJob}

/-! ### The sluice (R260) -/

/-- In IDLE a sluice that is not stopping may be started, or be given further cells. -/
theorem ownSluice_of_start (hstart : c.desc.le 4 1 = 0) (hidle : s.grid = 0) (hstopping : s.rd R.NRG_STAT_SLUICE ≠ 2) :
    ownSluice c s = (s.queueDue c.desc 0, vOk) := by
  simp only [ownSluice, hstart, hidle, hstopping, ne_eq, not_true_eq_false, if_true, if_false]

/-- A sluice that does not run has nothing to be stopped. -/
theorem ownSluice_of_stopped (hstop : c.desc.le 4 1 = 1) (hoff : s.rd R.NRG_STAT_SLUICE = 0) :
    ownSluice c s = (s, vOk) := by
  simp [ownSluice, hstop, hoff]

/-! ### Records (R265, R413, R414) -/

theorem ownRecord_of_free (hfree : s.signing = false) (hj : j = s.recordJob c) :
    ownRecord c s = ({ s with nrg := { s.nrg with record := some j } }, vOk) := by
  subst hj
  exact if_neg (Bool.eq_false_iff.1 hfree)

theorem ownRecord_of_signing (hbusy : s.signing = true) : ownRecord c s = (s, vBusy 0x040B) := if_pos hbusy

/-- While marks run the record takes its content at its mark. -/
theorem ownAttest_of_marks (hfree : s.signing = false) (hmarks : s.marksRun = true) (hj : j = s.recordJob c) :
    ownAttest c s = ({ s with sec := { s.sec with attest := some j } }, vOk) := by
  subst hj
  simp only [ownAttest, hfree, hmarks, Bool.false_eq_true, if_false, if_true]

/-- Where marks have stopped the record takes its content at once. -/
theorem ownAttest_of_noMarks (hfree : s.signing = false) (hmarks : s.marksRun = false) (hj : j = s.recordJob c) :
    ownAttest c s =
      ({ s with sec := { s.sec with attest := some { j with body := some (s.attestBody j) } } }, vOk) := by
  subst hj
  simp only [ownAttest, hfree, hmarks, Bool.false_eq_true, if_false]

theorem ownAttest_of_signing (hbusy : s.signing = true) : ownAttest c s = (s, vBusy 0x0C01) := if_pos hbusy

end SluiceAndRecordOwners

/-- Settles O28: each command by what its owner decides of a descriptor that passes the checks before. -/
theorem sluiceAndRecordsAdmitted : Obligations.SluiceAndRecordsAdmitted := by
  intro s r d u hu j hj
  subst hu
  refine ⟨fun hpass hstart hidle hstopping => ?start, fun hpass hstop hoff => ?stop, fun hpass hfree => ?record,
    fun hpass hbusy => ?recordBusy, fun hpass hfree hmarks => ?attest, fun hpass hfree hmarks => ?attestNow,
    fun hpass hbusy => ?attestBusy⟩
  case start => exact exec_of_owner rfl rfl hpass (ownSluice_of_start hstart hidle hstopping) rfl
  case stop => exact exec_of_owner rfl rfl hpass (ownSluice_of_stopped hstop hoff) rfl
  case record => exact exec_of_owner rfl rfl hpass (ownRecord_of_free hfree hj) rfl
  case recordBusy => exact exec_of_owner rfl rfl hpass (ownRecord_of_signing hbusy) rfl
  case attest => exact exec_of_owner rfl rfl hpass (ownAttest_of_marks hfree hmarks hj) rfl
  case attestNow => exact exec_of_owner rfl rfl hpass (ownAttest_of_noMarks hfree hmarks hj) rfl
  case attestBusy => exact exec_of_owner rfl rfl hpass (ownAttest_of_signing hbusy) rfl

end Sys2Proof.Machine
end

section
/-! SUPPORT. How the time limit of a deferral ends it: the kept command checked once more, finally (R257). -/

set_option Elab.async false

namespace Sys2Proof.Machine

open Sys2Proof

section Deferral

variable {s t : State} {e : Kept} {own : Owner}

/-- A kept command as its owner sees it when it is checked again. -/
def State.keptCmd (s : State) (e : Kept) : Cmd :=
  { seq := e.seq, ring := e.ring, idx := e.idx, desc := e.desc, fetchTime := s.plantNs }

theorem State.deferTimeout_of_deferred {seq : Nat}
    (he : (s.hst.kept.find? fun x => x.seq = seq && x.deferred) = some e) (hown : basinOwner e.op true = some own) :
    s.deferTimeout seq = s.retry e own := by
  simp only [State.deferTimeout, he, hown]

theorem State.retry_of_refused {det : Nat} (hmode : s.modeRefusal e.desc = some det) :
    s.retry e own = s.resolve e (vMode det) := by
  simp only [State.retry, hmode]

/-- An owner that refuses and changes nothing has queued no effect, so the refusal is all that happens. -/
theorem State.retry_of_rejected {v : Verdict} (hmode : s.modeRefusal e.desc = none)
    (hown : own (s.keptCmd e) s = (s, v)) (hfinal : v.status.keeps = false) : s.retry e own = s.resolve e v := by
  rw [State.keptCmd] at hown
  simp [State.retry, hmode, hown, hfinal]

/-- The final check does not defer: it admits, admits less, or rejects. -/
theorem State.admission_final_not_deferred (s : State) (may : Option Rat) (ask : F32 → Ask) (want now : F32) :
    (s.admission may ask want now true).status ≠ .deferred := by
  unfold State.admission
  cases s.misfit false (ask want) with
  | none => exact Status.noConfusion
  | some det =>
    simp only [Bool.not_true, Bool.false_and, Bool.false_eq_true, if_false, if_true]
    cases (if s.is R.NRG_CTL_DERATE_EN then may else none).bind fun u => s.derated u ask want now with
    | none => exact Status.noConfusion
    | some v => exact Status.noConfusion

/-- What does not fit at the final check and may not be derated is rejected (R257). -/
theorem State.admission_final_of_misfit {may : Option Rat} {ask : F32 → Ask} {want now : F32} {det : Nat}
    (hfit : s.misfit false (ask want) = some det) (hderate : s.is R.NRG_CTL_DERATE_EN = false) :
    s.admission may ask want now true = vEnergy 0x0408 := by
  simp [State.admission, hfit, hderate]

/-- A set-point of the LV class whose final check does not admit it leaves everything as it is. -/
theorem ownSetpoint_of_lvRejected {c : Cmd} {v : Verdict} {scope : Nat} (hclass : s.slotClass (c.desc.le 4 2) = (2, scope))
    (hv : s.admission (some tenth) (fun x => { Ask.nothing with lv := some (fRat x) }) (opF32 c.desc 8)
      (s.slotValue (c.desc.le 4 2)) true = v) (hrejected : v.status.done = false) : ownSetpoint true c s = (s, v) := by
  simp only [ownSetpoint, hclass, hv, hrejected, Bool.false_eq_true, if_false]

end Deferral

/-- Settles O32: the kept command by its mode, then by the final check of its owner. -/
theorem deferralEndsInADecision : Obligations.DeferralEndsInADecision := by
  intro s seq e own hs he hown
  have hend := State.deferTimeout_of_deferred he hown
  refine ⟨fun det hmode => ?refused, fun det hop hmode hderate hclass hfit => ?misfit,
    fun may ask want now => s.admission_final_not_deferred may ask want now⟩
  case refused => exact exec_of_effect (.inl hs) (hend.trans (State.retry_of_refused hmode))
  case misfit =>
    have hsetpoint : ownSetpoint true = own := by
      rw [hop] at hown
      exact Option.some.inj hown
    have hrejected : own (s.keptCmd e) s = (s, vEnergy 0x0408) :=
      hsetpoint ▸ ownSetpoint_of_lvRejected hclass (State.admission_final_of_misfit hfit hderate) rfl
    exact exec_of_effect (.inl hs) (hend.trans (State.retry_of_rejected hmode hrejected rfl))

end Sys2Proof.Machine
end

section
/-! SUPPORT. Results of metering: which fine results an instant has, where each goes, and what a fast one feeds (R272 to
R280, R283, R285). -/

set_option Elab.async false

namespace Sys2Proof.Machine

open Sys2Proof

section Results

variable {s u v w x : State} {n a : Nat} {xs : List Sample}

/-! ### Fine results (R272 to R280) -/

/-- A new instant in RUN or HOLD: its results go to routes and trackers, then into the accumulators, then the
trackers' windows end. -/
theorem State.fineResult_of_due {res : List (Nat × F32 × Bool)} (hdue : s.fineDue = true) (hnew : n ≠ s.mtr.fine)
    (hu : u = s.advanceTo (((n * 250000 : Nat) : Int) + 1550000))
    (hres : res = State.fineValues { u with mtr := { u.mtr with fine := n } } xs)
    (hv : v = each res State.takeFine { u with mtr := { u.mtr with fine := n } })
    (hw : w = each v.accsInUse (fun t a => t.accTake n (fineNumber res) a) v)
    (hx : x = each ((List.range 32).filter fun k => w.is (R.MTR_TRK_CFG_EN k)) (fun t k => t.trackerEnd n k) w) :
    s.fineResult n xs = x.injectedPassed := by
  subst hx hw hv hres hu
  exact if_neg (by simp [hdue, hnew])

/-- Outside RUN and HOLD, and for an instant already taken, there is nothing to take. -/
theorem State.fineResult_of_past (h : s.fineDue = false ∨ n = s.mtr.fine) : s.fineResult n xs = s :=
  if_pos (by simpa using h)

/-- Each sample of a channel that has results of its own gives one result, scaled and judged. -/
theorem State.mem_fineValues {c : Nat} {y : F32} {ok : Bool} : (c, y, ok) ∈ s.fineValues xs ↔
    ∃ x ∈ xs, x.channel = c ∧ isChannel c = true ∧ s.interleaved c = false ∧ y = s.scaled c x.x ∧
      ok = s.resultValid c (x.clean && !s.divided fineSpan) := by
  simp only [State.fineValues, List.mem_map, List.mem_filter, Prod.mk.injEq, Bool.and_eq_true, Bool.not_eq_true']
  constructor
  · rintro ⟨x, ⟨hx, hchannel, hown⟩, rfl, rfl, rfl⟩
    exact ⟨x, hx, rfl, hchannel, hown, rfl, rfl⟩
  · rintro ⟨x, hx, rfl, hchannel, hown, rfl, rfl⟩
    exact ⟨x, ⟨hx, hchannel, hown⟩, rfl, rfl, rfl⟩

/-- A result is shown and written to its routes, and a valid one is seen by the channel's fine trackers. -/
theorem State.takeFine_of_written {c : Nat} {y : F32} {ok : Bool}
    (hu : u = (s.wrB (R.MTR_CH_STAT_VALID c) ok).writeRoutes 2 c y ok) :
    s.takeFine (c, y, ok) = if ok then u.feedTrackers 1 c y else u := by
  subst hu
  rfl

/-- An accumulator adds the instant's results, then its window ends if the instant is a multiple of WIN. -/
theorem State.accTake_of_added {val : Nat → Option Rat} (hu : u = s.accAdd a val) : s.accTake n val a =
    if u.rd (R.MTR_ACC_CFG_WIN a) ≠ 0 ∧ n % u.rd (R.MTR_ACC_CFG_WIN a) = 0 then u.accBoundary a (n * 250000) else u := by
  subst hu
  exact if_congr (by simp) rfl rfl

/-! ### Fast results (R273, R283) -/

/-- A valid fast result feeds the trackers of the channel it belongs to, under its own modulator's correction. -/
theorem State.fastResult_of_channel {x : Sample} {c : Nat}
    (hc : c = if s.interleaved x.channel then x.channel - 1 else x.channel) : s.fastResult x =
      if s.metering && s.validBy x.channel c (x.clean && !s.divided fastSpan) then
        s.feedTrackers 0 c (s.scaledBy x.channel c x.x) else s := by
  subst hc
  rfl

end Results

/-- Settles O52: an instant by whether it is due and new, each result by its sample, each user of it by its rule. -/
theorem resultsAreTaken : Obligations.ResultsAreTaken := by
  intro s hs
  refine ⟨?taken, ?past, ?values, ?routed, ?added, ?fast⟩
  case taken =>
    exact fun n xs u res v w x hdue hnew hu hres hv hw hx =>
      exec_of_effect (.inl hs) (State.fineResult_of_due hdue hnew hu hres hv hw hx)
  case past => exact fun n xs h => exec_of_effect (.inl hs) (State.fineResult_of_past h)
  case values => exact fun xs c v ok => State.mem_fineValues
  case routed => exact fun c v ok u hu => State.takeFine_of_written hu
  case added => exact fun n val a u hu => State.accTake_of_added hu
  case fast => exact fun x c hc => exec_of_effect (.inl hs) (State.fastResult_of_channel hc)

end Sys2Proof.Machine
end

section
/-! SUPPORT. What is seen of a channel's input, and the steps of a slice in background calibration (R272, R284, R285,
R400). -/

set_option Elab.async false

namespace Sys2Proof.Machine

open Sys2Proof

section Inputs

variable {s : State} {c : Nat}

/-! ### Inputs (R272) -/

/-- An overload of an on-chip channel is shown, told and faulted. -/
theorem State.inputEdge_of_overload (hc : isChannel c = true) (hchip : c < 40) : s.inputEdge c 1 =
    ((s.wrB (R.MTR_CH_STAT_OVR c) true).event 5 4 [(16, 1, c), (17, 1, 1)]).raise 0x0A0 c := by
  rw [State.inputEdge, if_neg (by simp [hc, hchip]), if_pos rfl]

/-- A stuck stream of a channel that is not on chip is shown, told and faulted. -/
theorem State.inputEdge_of_stuck (hc : isChannel c = true) (hstream : 40 ≤ c) : s.inputEdge c 2 =
    ((s.wrB (R.MTR_CH_STAT_STUCK c) true).event 5 4 [(16, 1, c), (17, 1, 2)]).raise 0x0A1 c := by
  rw [State.inputEdge, if_neg (by simp [hc, hstream]), if_neg (by decide), if_pos rfl]

/-- Only a stream gets stuck. -/
theorem State.inputEdge_stuck_onChip (hchip : c < 40) : s.inputEdge c 2 = s := if_pos (by simp [hchip])

/-- Only an on-chip channel overloads. -/
theorem State.inputEdge_overload_stream (hstream : 40 ≤ c) : s.inputEdge c 1 = s := if_pos (by simp [hstream])

/-- A channel shown overloaded or stuck that is clear shows neither, and that is told. -/
theorem State.inputEdge_of_clear (hc : isChannel c = true)
    (hshown : s.is (R.MTR_CH_STAT_OVR c) = true ∨ s.is (R.MTR_CH_STAT_STUCK c) = true) : s.inputEdge c 0 =
      ((s.wrB (R.MTR_CH_STAT_OVR c) false).wrB (R.MTR_CH_STAT_STUCK c) false).event 5 4 [(16, 1, c)] := by
  rw [State.inputEdge, if_neg (by simp [hc]), if_neg (by decide), if_neg (by decide),
    if_pos ((Bool.or_eq_true _ _).mpr hshown)]

/-- What an input shows has its effect, and the sources' ACTIVE bits are made to agree with it. -/
theorem exec_inputState {t : State} {c : Fin 64} {st : Fin 3} (hs : s.collects = true) (h : s.inputEdge c st = t) :
    exec (.inputState c st) s = .next t.judgeInputs.settle :=
  exec_of_effect (.inl hs) (congrArg State.judgeInputs h)

end Inputs

section Calibration

variable {s u : State} {g o : F32} {n : Nat}

/-! ### The steps of a slice (R284, R285) -/

/-- The rotation starts the next slice, the spare's apart, with the wait for the substitute. -/
theorem State.calStep_of_idle (hstep : s.mtr.calStep = 0) (hen : s.is R.MTR_CTL_CAL_EN = true)
    (hfree : s.calBlocked = false) (hslice : s.mtr.calNext < 40)
    (hu : u = ((s.wrB R.MTR_CAL_STAT_PAUSED false).wrB R.MTR_CAL_STAT_RUNNING true).wr R.MTR_CAL_STAT_SLICE
      s.mtr.calNext) : s.calStep g o = { u with mtr := { u.mtr with calStep := 1 } } := by
  subst hu
  simp only [State.calStep, hstep]
  rw [if_neg (by simp [hen]), if_neg (by simp [hfree]), State.wrB_mtr, State.wrB_mtr,
    if_neg (show ¬ s.mtr.calNext = 40 by omega)]

/-- The spare takes the channel's place, which its windows note. -/
theorem State.calStep_of_chosen (hstep : s.mtr.calStep = 1) (hn : n = s.rd R.MTR_CAL_STAT_SLICE)
    (hu : u = (s.wrB (R.MTR_CH_STAT_SUBST n) true).markCal n) :
    s.calStep g o = { u with mtr := { u.mtr with calStep := 2 } } := by
  subst hu hn
  simp only [State.calStep, hstep]

theorem State.calStep_of_substituted (hstep : s.mtr.calStep = 2) :
    s.calStep g o = { s with mtr := { s.mtr with calStep := 3 } } := by
  simp only [State.calStep, hstep]

/-- What was measured is accepted or refused, and a diagnostic run that waited for the DAC starts. -/
theorem State.calStep_of_measured (hstep : s.mtr.calStep = 3) (hn : n = s.rd R.MTR_CAL_STAT_SLICE)
    (hu : u = s.calAccept n g o) : s.calStep g o =
      match u.mtr.waiting with
      | some c => State.diagStart { u with mtr := { u.mtr with calStep := 4 } } c
      | none => { u with mtr := { u.mtr with calStep := 4 } } := by
  subst hu hn
  simp only [State.calStep, hstep] <;> rfl

/-- A slice other than the spare's waits once more for its channel to return. -/
theorem State.calStep_of_judged (hstep : s.mtr.calStep = 4) (hslice : s.rd R.MTR_CAL_STAT_SLICE < 40) :
    s.calStep g o = { s with mtr := { s.mtr with calStep := 5 } } := by
  simp only [State.calStep, hstep]
  exact if_neg (by omega)

/-- The channel takes its place again, which its windows note, and the slice ends. -/
theorem State.calStep_of_returning (hstep : s.mtr.calStep = 5) (hn : n = s.rd R.MTR_CAL_STAT_SLICE) :
    s.calStep g o = ((s.wrB (R.MTR_CH_STAT_SUBST n) false).markCal n).calSliceEnd := by
  subst hn
  simp only [State.calStep, hstep]

/-- A gain error and an offset within the limits become the channel's corrections, and are shown. -/
theorem State.calAccept_of_inLimits (hslice : n < 40) (hg : fFinite g = true) (ho : fFinite o = true)
    (hgain : fLe (fAbs g) 0x3BA3D70A#32 = true) (hofs : fLe (fAbs o) 0x3B03126F#32 = true) : s.calAccept n g o =
      State.wr (State.wr { s with mtr := { s.mtr with corr := SMap.put (fun _ => (0#32, 0#32)) s.mtr.corr n (g, o) } }
        (R.MTR_CH_STAT_GAIN_CORR n) (uxSat 16 (roundRat (fRat g * 5000000)))) (R.MTR_CH_STAT_OFS_CORR n)
        (uxSat 8 (roundRat (fRat o * 50000))) := by
  rw [State.calAccept, if_pos (by simp [hg, ho, hgain, hofs])]
  exact if_pos hslice

end Calibration

/-- Settles O53: an input by what is seen and where the channel lies, the rotation by the step its slice is at. -/
theorem inputsAndCalibration : Obligations.InputsAndCalibration := by
  intro s hs
  refine ⟨fun c hc => ⟨?onChip, ?stream, ?clear⟩, ?idle,
    fun g o n u hn => ⟨?chosen, ?substituted, ?measured, ?judged, ?accepted, ?returning⟩⟩
  case onChip =>
    exact fun hchip => ⟨exec_inputState hs (State.inputEdge_of_overload hc hchip),
      exec_inputState hs (State.inputEdge_stuck_onChip hchip)⟩
  case stream =>
    exact fun hstream => ⟨exec_inputState hs (State.inputEdge_of_stuck hc hstream),
      exec_inputState hs (State.inputEdge_overload_stream hstream)⟩
  case clear => exact fun hshown => exec_inputState hs (State.inputEdge_of_clear hc hshown)
  case idle =>
    exact fun g o u hstep hen hfree hu hslice =>
      exec_of_effect (.inl hs) (State.calStep_of_idle hstep hen hfree hslice hu)
  case chosen => exact fun hstep hu => exec_of_effect (.inl hs) (State.calStep_of_chosen hstep hn hu)
  case substituted => exact fun hstep => exec_of_effect (.inl hs) (State.calStep_of_substituted hstep)
  case measured => exact fun hstep hu => exec_of_effect (.inl hs) (State.calStep_of_measured hstep hn hu)
  case judged =>
    exact fun hstep hslice => exec_of_effect (.inl hs) (State.calStep_of_judged hstep (hn ▸ hslice))
  case accepted => exact fun hslice hg ho hgain hofs => State.calAccept_of_inLimits hslice hg ho hgain hofs
  case returning => exact fun hstep => exec_of_effect (.inl hs) (State.calStep_of_returning hstep hn)

end Sys2Proof.Machine
end

section
/-! SUPPORT. What every step does: one command or one tick, which completes, takes the front of the queue and keeps the
canonical form (R340, log entries 1 and 20). -/

set_option Elab.async false

namespace Sys2Proof.Machine

open Sys2Proof

/-! ### What a step runs -/

/-- With nothing queued a step is one tick. -/
theorem step_of_empty {s : State} (h : s.pending = []) : step s = .next s.tick := by
  unfold step
  rw [h]

/-- With commands queued a step is the front one, on the state in which the rest waits. -/
theorem step_of_front {s : State} {c : Instr} {rest : List Instr} (h : s.pending = c :: rest) :
    step s = exec c { s with pending := rest } := by
  unfold step
  rw [h]

/-- Settles O1: the front of the queue is the command put there, and the rest is the queue as it was. -/
theorem stepRunsFrontCommand : Obligations.StepRunsFrontCommand := fun _ _ => step_of_front rfl

/-- While its supplies are there the local counter counts one tick. -/
theorem State.tick_of_supplied {s : State} (hf : s.sys.feeds ≠ 0) (hr : s.sys.railsOk.getLsbD 0 = true) :
    s.tick = { s with tsn := { s.tsn with local_ := s.tsn.local_ + 1 } } := by
  rw [State.tick, if_pos ⟨hf, hr⟩, State.advanceByTicks, Nat.max_eq_right (Nat.le_succ _)]

theorem State.tick_of_unsupplied {s : State} (h : s.sys.feeds = 0 ∨ s.sys.railsOk.getLsbD 0 = false) : s.tick = s :=
  if_neg fun ⟨hf, hr⟩ => h.elim hf fun hr' => absurd hr (Bool.eq_false_iff.1 hr')

/-- Settles O2: a step on an empty queue is a tick, which the supplies of the local counter decide. -/
theorem emptyQueueIsOneTick : Obligations.EmptyQueueIsOneTick := by
  intro s hp
  rw [step_of_empty hp]
  exact ⟨fun hf hr => congrArg _ (State.tick_of_supplied hf hr), fun h => congrArg _ (State.tick_of_unsupplied h)⟩

/-! ### Completion -/

/-- Whether a command acts or finds the main domains held in reset, it answers a next state. -/
theorem exec_completes (c : Instr) (s : State) : completes (exec c s) := ⟨_, exec_eq_finish c s⟩

/-- Settles O4: a tick completes, and so does whatever command stands in front. -/
theorem everyStepCompletes : Obligations.EveryStepCompletes := by
  intro s
  cases hp : s.pending with
  | nil => exact ⟨_, step_of_empty hp⟩
  | cons c rest =>
    rw [step_of_front hp]
    exact exec_completes c _

/-! ### What every step keeps -/

/-- The effect of every command keeps all but the local counter, which a power-on reset starts anew. -/
theorem Keeps.effect_any {b₀ s : State} (hG : Keeps b₀ s) (c : Instr) : Keeps { b₀ with tsn := {} } (s.effect c) := by
  cases hc : startsAnew c with
  | false => exact (hG.effect c hc).atZero
  | true =>
    cases c with
    | powerOnReset straps feeds => exact hG.powerOn straps feeds
    | aonFeedLost f =>
      rw [State.effect]
      split
      · exact hG.feedBack f.feed
      · exact hG.feedLost f.feed
    | _ => nomatch hc

/-- What every command keeps, one that starts the local counter anew too. -/
theorem Keeps.of_exec_any {c : Instr} {s t : State} (h : exec c s = .next t) : Keeps { s with tsn := {} } t := by
  rcases exec_cases h with rfl | rfl
  · exact ((Keeps.refl s).effect_any c).settle
  · exact (Keeps.refl s).settle.atZero

/-- What every step keeps, from the state whose front command has been taken off the queue. -/
theorem Keeps.of_step {s t : State} (h : step s = .next t) :
    Keeps { s with tsn := {}, pending := s.pending.tail } t := by
  cases hp : s.pending with
  | nil =>
    rw [step_of_empty hp] at h
    obtain rfl := Host.Outcome.next.inj h
    obtain ⟨hqueue, hregs, hbanks, -, hfree, hsent⟩ := (Keeps.refl s).tick
    exact ⟨hqueue.trans hp, hregs, hbanks, Nat.zero_le _, hfree, hsent⟩
  | cons c rest =>
    rw [step_of_front hp] at h
    exact Keeps.of_exec_any h

/-- Settles O6: a tick leaves the empty queue, and a command keeps the queue that its front left. -/
theorem stepTakesOneCommand : Obligations.StepTakesOneCommand := fun _ _ h => (Keeps.of_step h).queue

/-- Settles O7: every effect, and all that follows from it, writes registers and banks through canonical maps. -/
theorem stepKeepsCanonicalForm : Obligations.StepKeepsCanonicalForm := by
  rintro s t ⟨hregs, hbanks⟩ h
  have hkeeps := Keeps.of_step h
  exact ⟨hkeeps.regs hregs, hkeeps.banks hbanks⟩

/-! ### Quiet states -/

/-- After reset no reaction is due, no level, latch or message differs from what is shown, and nothing is held. -/
theorem State.settleOnce_reset : State.reset.settleOnce = State.reset := by decide +kernel

/-- Settles O3: what is quiet stays so however many rounds are made, and no round adds to the reset state. -/
theorem quietStateIsLeftAlone : Obligations.QuietStateIsLeftAlone :=
  ⟨⟨fun _ h => State.settle_of_quiet h, decide_eq_true State.settleOnce_reset⟩, ⟨SMap.wf_nil _, SMap.wf_nil _⟩, rfl⟩

end Sys2Proof.Machine
end

section
/-! SUPPORT. What the written PWM and comparator registers do: loads, the stop of a group, staged values, re-arming and
the release of a latch (R292, R295, R296, R298, R310, R311). -/

set_option Elab.async false

namespace Sys2Proof.Machine

open Sys2Proof

section SwitchingRegisters

variable {s u : State} {v : Word}

/-! ### Loads and groups (R292, R295) -/

/-- A load written names the groups to arm; one that runs waits for its boundary, one that does not loads at once. -/
theorem State.pwmWrite_load {g : Nat} (hd : s.decodes 0x34000 = true) (hu : u = s.written 0x34000 v)
    (hg : ((List.range 8).filter fun g => v.getLsbD g) = [g]) : s.pwmWrite byHost 0x34000 v =
      if u.pwmRuns g then u.wrB (R.PWM_GRP_STAT_ARMED g) true else u.loadGroup g := by
  have hload : s.pwmWrite byHost 0x34000 v = u.pwmLoad v := by
    subst hu
    exact (if_pos rfl).trans (hostWrite_written hd _)
  rw [hload, State.pwmLoad, hg, each_singleton, State.armGroup]

/-- A group's control written acts on the group. -/
theorem State.pwmGroupWrite_of_decodes {g : Nat} (hg : g < 8) (hd : s.decodes (0x34100 + 0x10 * g) = true)
    (hu : u = s.written (0x34100 + 0x10 * g) v) : s.pwmGroupWrite g v = u.grpWritten g := by
  subst hu
  exact (if_neg (Nat.not_le.2 hg)).trans (hostWrite_written hd _)

/-- EN 1 waits for the next APPLY mark. -/
theorem State.grpWritten_of_enabled {g : Nat} (hen : s.is (R.PWM_GRP_CTL_EN g) = true) : s.grpWritten g = s :=
  if_pos (by rw [hen, Bool.true_or])

/-- EN 0 stops a running group at once, a load that was armed being taken. -/
theorem State.grpWritten_of_stopped {g : Nat} (hen : s.is (R.PWM_GRP_CTL_EN g) = false) (hrun : s.pwmRuns g = true)
    (hu : u = s.wrB (R.PWM_GRP_STAT_RUNNING g) false) :
    s.grpWritten g = (if u.is (R.PWM_GRP_STAT_ARMED g) then u.loadGroup g else u).showGroup g := by
  subst hu
  exact if_neg (by simp [hen, hrun])

/-! ### Staged values (R296, R298) -/

/-- A period written alone leaves the other bits of its register. -/
theorem State.stagedWrite_period {g : Fin 8} {late : Bool} (hd : s.decodes (R.PWM_GRP_CTL_PERIOD g).off = true)
    (hu : u = s.written (R.PWM_GRP_CTL_PERIOD g).off
      ((R.PWM_GRP_CTL_PERIOD g).put (s.reg (R.PWM_GRP_CTL_PERIOD g).off) v.toNat)) :
    s.stagedWrite (.period g) v late = if late then u.wrB (R.PWM_GRP_STAT_LATE g) true else u := by
  subst hu
  rw [State.stagedWrite]
  exact hostWrite_written hd _

/-- The duty of a channel whose SRC is HOST is staged. -/
theorem State.stagedWrite_duty {n : Fin 48} {late : Bool} (hd : s.decodes (R.PWM_CH_DUTY_DUTY n).off = true)
    (hsrc : s.rd (R.PWM_CH_CFG_SRC n) = 0) (hu : u = s.written (R.PWM_CH_DUTY_DUTY n).off v) :
    s.stagedWrite (.duty n) v late = if late then u.wrB (R.PWM_CH_STAT_LATE n) true else u := by
  subst hu
  rw [State.stagedWrite, if_neg (by simp [hsrc])]
  exact hostWrite_written hd _

/-- That of any other channel is discarded. -/
theorem State.stagedWrite_duty_discarded {n : Fin 48} {late : Bool}
    (hd : s.decodes (R.PWM_CH_DUTY_DUTY n).off = true) (hsrc : s.rd (R.PWM_CH_CFG_SRC n) ≠ 0) :
    s.stagedWrite (.duty n) v late = s.wakeLink byHost := by
  rw [State.stagedWrite, if_pos (by simp [hd, hsrc])]

theorem State.stagedWrite_phase {n : Fin 48} {late : Bool} (hd : s.decodes (R.PWM_CH_PHASE_PHASE n).off = true)
    (hu : u = s.written (R.PWM_CH_PHASE_PHASE n).off v) :
    s.stagedWrite (.phase n) v late = if late then u.wrB (R.PWM_CH_STAT_LATE n) true else u := by
  subst hu
  rw [State.stagedWrite]
  exact hostWrite_written hd _

/-! ### Comparators (R310, R311) -/

/-- Either re-arming register acts on the half of the channels that is its own. -/
theorem State.cmpWrite_rearm {high : Bool} {a : Nat} (ha : a = if high then 0x3601C else 0x36018)
    (hd : s.decodes a = true) (hu : u = s.written a v) :
    s.cmpWrite byHost a v = u.cmpRearm (if high then 32 else 0) v := by
  subst hu
  cases high with
  | false =>
    obtain rfl : a = 0x36018 := ha
    exact (if_pos rfl).trans (hostWrite_written hd _)
  | true =>
    obtain rfl : a = 0x3601C := ha
    exact (if_neg (by decide)).trans ((if_pos rfl).trans (hostWrite_written hd _))

/-- No channel is re-armed while "comparator trip persistent" is latched. -/
theorem State.cmpRearm_of_persistent {base : Nat} (h : s.latched 0x0E2 = true) : s.cmpRearm base v = s := if_pos h

/-- The one escalated channel that a word names is no longer escalated, counts afresh, and starts unresolved on both
sides. -/
theorem State.cmpRearm_of_single {base i c : Nat} {w : State} (h : s.latched 0x0E2 = false) (hc : c = base + i)
    (hi : ((List.range 32).filter fun i => v.getLsbD i && s.is (R.CMP_CH_STAT_ESCALATED (base + i))) = [i])
    (hw : w = (s.wrB (R.CMP_CH_STAT_ESCALATED c) false).wr (R.CMP_CH_STAT_PERSIST_CNT c) 0) :
    s.cmpRearm base v = (w.cmpStart c).showCmp [c] := by
  subst hc hw
  rw [State.cmpRearm, if_neg (Bool.eq_false_iff.1 h)]
  dsimp only
  rw [hi, List.isEmpty_cons, if_neg Bool.false_ne_true, each_singleton, List.map_singleton]

/-- The start-up rule, side by side (R308). -/
theorem State.cmpStart_eq (s : State) (c : Nat) : s.cmpStart c = (((s.wrB (cmpUnres c true) true).wrB
    (cmpRaw c true) false).wrB (cmpUnres c false) true).wrB (cmpRaw c false) false := rfl

/-- A status register that decodes has its latch bits written. -/
theorem State.latchStat_of_decodes {c : Nat} {blanked : Bool} (hc : c < 64)
    (hd : s.decodes (0x3610C + 0x10 * c) = true) :
    s.latchStat c v blanked = (s.wakeLink byHost).latchWrite c v blanked := by
  rw [State.latchStat, if_neg (Nat.not_le.2 hc)]
  exact if_neg (by simp [hd])

/-- A 1 in the high latch's place, outside blanking, releases that latch where its comparator asserts no more. -/
theorem State.latchWrite_high (s : State) (c : Nat) : s.latchWrite c 2#32 false =
    (if s.is (cmpRaw c true) then s else s.wrB (cmpLatch c true) false).showCmp [c] := by
  simp [State.latchWrite, State.releaseLatch]

end SwitchingRegisters

/-- Settles O18: each register by what it starts in the state in which the word is written. -/
theorem switchingRegistersAct : Obligations.SwitchingRegistersAct := by
  intro s u v hs
  refine ⟨?load, ?group, ?period, ?duty, ?phase, ?rearm, ?latch⟩
  case load => exact fun g hd hu hg => exec_of_effect (.inl hs) (State.pwmWrite_load hd hu hg)
  case group =>
    intro g hd hu
    have hw := State.pwmGroupWrite_of_decodes g.isLt hd hu
    exact ⟨fun hen => exec_of_effect (.inl hs) (hw.trans (State.grpWritten_of_enabled hen)),
      fun w hen hrun hstop => exec_of_effect (.inl hs) (hw.trans (State.grpWritten_of_stopped hen hrun hstop))⟩
  case period => exact fun g late hd hu => exec_of_effect (.inl hs) (State.stagedWrite_period hd hu)
  case duty =>
    exact fun n late hd => ⟨fun hsrc hu => exec_of_effect (.inl hs) (State.stagedWrite_duty hd hsrc hu),
      fun hsrc => exec_of_effect (.inl hs) (State.stagedWrite_duty_discarded hd hsrc)⟩
  case phase => exact fun n late hd hu => exec_of_effect (.inl hs) (State.stagedWrite_phase hd hu)
  case rearm =>
    rintro high a rfl hd hu
    have hw := State.cmpWrite_rearm rfl hd hu
    refine ⟨fun hp => exec_of_effect (.inl hs) (hw.trans (State.cmpRearm_of_persistent hp)), ?_⟩
    rintro i c w x hp hc hi hrearm rfl
    rw [← State.cmpStart_eq]
    exact exec_of_effect (.inl hs) (hw.trans (State.cmpRearm_of_single hp hc hi hrearm))
  case latch =>
    rintro c w hd rfl rfl
    have hw := (State.latchStat_of_decodes c.isLt hd).trans (State.latchWrite_high (s.wakeLink byHost) c)
    exact ⟨fun hraw => exec_of_effect (.inl hs) (hw.trans (by rw [if_neg (Bool.eq_false_iff.1 hraw)])),
      fun hraw => exec_of_effect (.inl hs) (hw.trans (by rw [if_pos hraw]))⟩

end Sys2Proof.Machine
end

section
/-! SUPPORT. What a group does at its boundary, and how trip pins and comparators follow their inputs (R292, R295, R301,
R302, R306, R308, R310). -/

set_option Elab.async false

namespace Sys2Proof.Machine

open Sys2Proof

section Boundaries

variable {s u : State} {g : Nat}

/-! ### Boundaries (R292, R295, R302) -/

theorem State.pwmWrap_of_running (blank : BitVec 64) (h : s.pwmRuns g = true) :
    s.pwmWrap g blank = s.pwmBoundary g (!s.is (R.PWM_GRP_CTL_SYNC g)) blank := if_pos h

theorem State.pwmWrap_of_stopped (blank : BitVec 64) (h : s.pwmRuns g = false) : s.pwmWrap g blank = s :=
  if_neg (Bool.eq_false_iff.1 h)

/-- With no comparator channel enabled no latch ends at a boundary: it is the load, then the restart. -/
theorem State.pwmBoundary_of_noComparator {load : Bool} {blank : BitVec 64}
    (hu : u = if load && s.is (R.PWM_GRP_STAT_ARMED g) then s.loadGroup g else s)
    (hoff : ∀ c, c < 64 → u.is (R.CMP_CH_CFG_EN c) = false) :
    s.pwmBoundary g load blank = each (u.pwmMembers g) State.pwmRestart u := by
  have hnone : (cmpAll.filter fun c => u.is (R.CMP_CH_CFG_EN c) && u.cmpPeriodic c &&
      decide (u.pwmGroup (u.rd (R.CMP_CH_BLANK_REF_CH c)) = g)) = [] := by
    refine List.filter_eq_nil_iff.2 fun c hc => ?_
    rw [hoff c (List.mem_range.1 hc), Bool.false_and, Bool.false_and]
    exact Bool.false_ne_true
  subst hu
  rw [State.pwmBoundary, hnone, List.isEmpty_nil, if_pos rfl]
  rfl

end Boundaries

section Comparators

variable {s u : State} {c : Nat} {hi lo on blanked : Bool}

/-! ### Comparators (R306, R308, R310) -/

theorem State.cmpChange_of_live (h : s.cmpLive c = true) : s.cmpChange c hi lo blanked =
    ((s.cmpSide c true hi blanked).cmpSide c false lo blanked).showCmp [c] := if_pos h

/-- A channel that is not powered reports nothing. -/
theorem State.cmpChange_of_unpowered (h : s.cmpLive c = false) : s.cmpChange c hi lo blanked = s :=
  if_neg (Bool.eq_false_iff.1 h)

/-- A comparator not resolved since its start follows its input from the resolution on. -/
theorem State.cmpResolve_of_unresolved (hlive : s.cmpLive c = true) (hun : s.is (cmpUnres c hi) = true) :
    s.cmpResolve c hi on blanked = ((s.wrB (cmpUnres c hi) false).cmpSide c hi on blanked).showCmp [c] :=
  if_pos (by rw [hlive, hun, Bool.and_self])

/-- A resolved side that is sensed shows its input, and an assertion that no blanking hides sets the latch. -/
theorem State.cmpSide_of_sensed (hres : s.is (cmpUnres c hi) = false) (hu : u = s.wrB (cmpRaw c hi) on)
    (hsense : u.senses c hi = true) (hesc : u.is (R.CMP_CH_STAT_ESCALATED c) = false) :
    s.cmpSide c hi on blanked =
      if on = true ∧ (blanked = false ∨ u.cmp.watch.isSome = true) then u.setLatchOf c hi else u := by
  subst hu
  rw [State.cmpSide, if_neg (Bool.eq_false_iff.1 hres)]
  dsimp only
  rw [hsense, hesc]
  exact if_congr (by simp) rfl rfl

end Comparators

/-- Settles O54: each boundary by whether its group runs, each pin by its level, each comparator by whether it is
powered and resolved. -/
theorem boundariesAndTrips : Obligations.BoundariesAndTrips := by
  intro s hs
  refine ⟨?boundary, ?stopped, ?restart, ?pin, ?follows, ?unpowered, ?resolved, ?side⟩
  case boundary => exact fun g blank hrun => exec_of_effect (.inl hs) (State.pwmWrap_of_running blank hrun)
  case stopped => exact fun g blank hrun => exec_of_effect (.inl hs) (State.pwmWrap_of_stopped blank hrun)
  case restart => exact fun g load u hu hoff => State.pwmBoundary_of_noComparator hu hoff
  case pin =>
    rintro n u
    refine ⟨exec_of_effect (.inl hs) rfl, ?_⟩
    rintro rfl
    exact exec_of_effect (.inl hs) rfl
  case follows => exact fun c hi lo bl hlive => exec_of_effect (.inl hs) (State.cmpChange_of_live hlive)
  case unpowered => exact fun c hi lo bl hlive => exec_of_effect (.inl hs) (State.cmpChange_of_unpowered hlive)
  case resolved =>
    exact fun c hi on bl hlive hun => exec_of_effect (.inl hs) (State.cmpResolve_of_unresolved hlive hun)
  case side => exact fun c hi on bl hres _ _ u hu hsense hesc => State.cmpSide_of_sensed hres hu hsense hesc

end Sys2Proof.Machine
end

section
/-! SUPPORT. What the owners of AUX_RUN, AUX_STOP and FAULT_CLEAR decide (Table 12.5, R317, R326, R400). -/

set_option Elab.async false

namespace Sys2Proof.Machine

open Sys2Proof

section DriveOwners

variable {s older : State} {c : Cmd} {n : Nat} (hn : n = c.desc.le 4 1)
  (hold : older = s.supersedeOlder c 0x60 fun x => x.le 4 1 = n)
include hn

/-! ### Drives (R317, R326) -/

include hold in
/-- An enabled drive that is set up, and that no command due leaves stopping or coasting, runs from the next mark. -/
theorem ownAuxRun_of_ready (hen : s.is (R.AUX_CTL_EN n) = true) (hpoles : s.rd (R.AUX_CTL_POLES n) ≠ 0)
    (hfault : s.driveState n ≠ .fault) (hready : s.driveReady n = true) (hstopping : older.driveSoon n ≠ .stopping)
    (hcoasting : older.driveSoon n ≠ .coasting) : ownAuxRun c s = (older.queueDue c.desc 0, vOk) := by
  subst hold hn
  simp only [ownAuxRun, hen, hpoles, hfault, hready, hstopping, hcoasting, Bool.not_true, decide_false, Bool.or_self,
    Bool.false_eq_true, if_false]

include hold in
/-- An enabled drive stops from the next mark, and a run that waited for it is taken back. -/
theorem ownAuxStop_of_enabled (hen : s.is (R.AUX_CTL_EN n) = true) :
    ownAuxStop c s = (older.showAuxPending.queueDue c.desc 0, vOk) := by
  subst hold hn
  simp only [ownAuxStop, hen, Bool.not_true, Bool.false_eq_true, if_false]

theorem ownAuxStop_of_disabled (hen : s.is (R.AUX_CTL_EN n) = false) : ownAuxStop c s = (s, vMode 0x0801) := by
  subst hn
  exact if_pos (by rw [hen, Bool.not_false])

end DriveOwners

/-! ### Clears (R400) -/

/-- Sources that are neither FATAL nor have their cause present are all granted, and SAFE is left if no cause of it
would remain. -/
theorem ownClear_of_granted {s w : State} {c : Cmd} {ls : List Nat} {leave : Bool}
    (hls : ls = s.latchedList.filter fun n => (clearScope c.desc).contains n)
    (hleave : leave = (c.desc.le 5 1).testBit 0)
    (hfatal : (ls.any fun n => decide (sourceClass n = some 2)) = false) (hcause : ls.any s.causeStands = false)
    (hsafe : leave = true → s.safeCauses ls = 0) (hw : w = s.incBy R.FLT_CNT_CLEAR_REFUSED 0) :
    ownClear c s = ({ w with flt := { w.flt with clearing := w.flt.clearing ++
      [{ scope := c.desc.le 4 1, sources := ls, refused := 0, exitSafe := leave }] } }, vOk) := by
  have hhere : ls.filter s.causeStands = [] := List.filter_eq_nil_iff.2 (List.any_eq_false.1 hcause)
  have hgone : (ls.filter fun n => !s.causeStands n && decide (sourceClass n ≠ some 2)) = ls := by
    refine List.filter_eq_self.2 fun n hn => ?_
    have hstands := List.any_eq_false.1 hcause n hn
    have hclass := List.any_eq_false.1 hfatal n hn
    simpa using ⟨Bool.eq_false_iff.2 hstands, of_decide_eq_false (Bool.eq_false_iff.2 hclass)⟩
  have hgranted : (leave && decide (s.safeCauses ls = 0)) = leave := by
    cases leave with
    | false => rfl
    | true => simp [hsafe rfl]
  subst hw
  simp only [ownClear, ← hls, ← hleave, hhere, hgone, hgranted, hfatal, List.length_nil, List.isEmpty_nil,
    Bool.not_true, Bool.and_not_self, Bool.false_eq_true, if_false]

/-- Settles O29: each command by what its owner decides of a descriptor that passes the checks before. -/
theorem drivesAndFaultClears : Obligations.DrivesAndFaultClears := by
  refine ⟨?drives, ?clear⟩
  case drives =>
    rintro s r d u rfl n hn older hold
    refine ⟨fun hpass hen hpoles hfault hready hstopping hcoasting => ?run, fun hpass hen => ?stop,
      fun hpass hen => ?disabled⟩
    case run =>
      have hown := ownAuxRun_of_ready (c := s.cmdOf r d) hn hold hen hpoles hfault hready hstopping hcoasting
      exact exec_of_owner rfl rfl hpass hown rfl
    case stop => exact exec_of_owner rfl rfl hpass (ownAuxStop_of_enabled (c := s.cmdOf r d) hn hold hen) rfl
    case disabled => exact exec_of_owner rfl rfl hpass (ownAuxStop_of_disabled (c := s.cmdOf r d) hn hen) rfl
  case clear =>
    rintro s r d hpass u rfl ls hls leave hleave x rfl hfatal hcause hsafe w hw
    have hown := ownClear_of_granted (c := s.cmdOf r d) hls hleave hfatal hcause hsafe hw
    exact exec_of_owner rfl rfl hpass hown rfl

end Sys2Proof.Machine
end

section
/-! SUPPORT. How a drive faults, decides, probes, aligns and coasts (R318, R319, R326, R328, R373). -/

set_option Elab.async false

namespace Sys2Proof.Machine

open Sys2Proof

section Drives

variable {s t u : State} {d : Nat}

/-! ### Fault inputs (R318) -/

/-- A fault input is shown, then the cause of its source; one that is enabled and asserts faults its drive. -/
theorem State.auxFaultIn_shown {a : Bool} (ht : t = State.wrB { s with aux := { s.aux with
      pins := (if a then s.aux.pins ||| BitVec.ofNat 4 (2 ^ d) else s.aux.pins &&& ~~~BitVec.ofNat 4 (2 ^ d)) } }
        (R.AUX_STAT_FLT_IN d) a)
    (hu : u = t.setActive 0x100 ([0, 1, 2, 3].any fun e => t.is (R.AUX_STAT_FLT_IN e) && t.is (R.AUX_CTL_FLT_EN e))) :
    s.auxFaultIn d a =
      if a && u.is (R.AUX_CTL_FLT_EN d) then (u.event 8 5 [(16, 1, d)]).driveFault d 0x100 4 else u := by
  subst hu ht
  rw [State.auxFaultIn]

/-! ### Decisions (R319, R373) -/

theorem State.adoptDrive_of_none (h : (s.drive d).adopt = none) : s.adoptDrive d = s := by
  rw [State.adoptDrive, h]

/-- What the partner's copy held of a drive that it had stopped is taken with the stop; a FAULT of this seat's own
would stand. -/
theorem State.adoptDrive_of_stopped {st : Nat} {a b r i : F32} (h : (s.drive d).adopt = some (st, a, b, r, i))
    (hfault : s.driveState d ≠ .fault) (hst : Drive.ofCode st = .stopped) : s.adoptDrive d =
      ((s.modDrive d fun v => { v with adopt := none }).setDrive d .stopped 1).modDrive d
        fun v => { v with psiA := a, psiB := b, ramped := r, integ := i } := by
  rw [State.adoptDrive, h, ← hst]
  exact if_neg hfault

/-- A drive that turns under control takes its samples and decides. -/
theorem State.auxDecision_of_turning (xs : List ShuntSample) (ha : (s.drive d).adopt = none)
    (hd : s.driveState d = .running ∨ s.driveState d = .stopping) :
    s.auxDecision d xs = (s.takeShunt d xs).decide_ d := by
  rw [State.auxDecision, State.adoptDrive_of_none ha]
  rcases hd with h | h <;> rw [h]

/-- One that neither turns under control nor aligns decides nothing. -/
theorem State.auxDecision_of_idle (xs : List ShuntSample) (ha : (s.drive d).adopt = none)
    (hrun : s.driveState d ≠ .running) (hstop : s.driveState d ≠ .stopping) (halign : s.driveState d ≠ .aligning) :
    s.auxDecision d xs = s := by
  rw [State.auxDecision, State.adoptDrive_of_none ha]
  cases h : s.driveState d with
  | running => exact absurd h hrun
  | stopping => exact absurd h hstop
  | aligning => exact absurd h halign
  | _ => rfl

/-! ### Probes (R328) -/

/-- A valid set with too little current counts towards a rotor at rest. -/
theorem State.probeSet_of_low {xs : List MarkSample} {p : Probe} (hd : s.driveState d = .catching)
    (hp : s.probeOf d xs = some p) (hlow : p.m2 < s.par (R.AUX_CATCH_I_MIN d) * s.par (R.AUX_CATCH_I_MIN d)) :
    s.probeSet d xs = s.probeLow d p := by
  rw [State.probeSet, if_neg (not_not.2 hd), hp]
  exact if_pos hlow

/-- With no set before it a set with enough current is what the next one is compared to. -/
theorem State.probeSet_of_first {xs : List MarkSample} {p : Probe} (hd : s.driveState d = .catching)
    (hp : s.probeOf d xs = some p) (hlow : ¬ p.m2 < s.par (R.AUX_CATCH_I_MIN d) * s.par (R.AUX_CATCH_I_MIN d))
    (hfirst : (s.drive d).prevSet = none) :
    s.probeSet d xs = s.modDrive d fun y => { y with low := 0, prevSet := some (p.iA, p.iB) } := by
  rw [State.probeSet, if_neg (not_not.2 hd), hp]
  dsimp only
  rw [if_neg hlow, hfirst]

/-- One low set does not tell a rotor at rest. -/
theorem State.probeLow_of_first (p : Probe) (hlow : (s.drive d).low = 0) :
    s.probeLow d p = s.modDrive d fun y => { y with low := 1, prevSet := some (p.iA, p.iB) } := by
  rw [State.probeLow, hlow]
  exact if_neg (by decide)

/-! ### Alignment and coasting (R326, R328, R330) -/

theorem State.alignDone_of_aligning (hd : s.driveState d = .aligning)
    (hu : u = s.advanceByTicks ((s.drive d).since + 500000 * s.rd (R.AUX_CTL_ALIGN_T d))) :
    s.alignDone d = u.driveRuns d 0 (u.f32 (R.AUX_PSI_M d)) 0 1 := by
  subst hu
  exact if_pos hd

/-- A coast ends in a new catch where one is to be tried, and else stopped. -/
theorem State.coastEnd_of_coasting (hd : s.driveState d = .coasting)
    (hu : u = s.advanceByTicks ((s.drive d).since + 5000000 * s.rd (R.AUX_TIME_COAST_T d))) : s.coastEnd d =
      if (u.drive d).recatch then (u.setDrive d .catching 3).modDrive d fun v =>
        { v with recatch := false, low := 0, prevSet := none, disagree := 0, rots := [], cur := [] }
      else (u.setDrive d .stopped 5).auxStopped d := by
  subst hu
  exact if_pos hd

end Drives

/-- Settles O55: each input and timer by the state in which it finds its drive. -/
theorem drivesTakeTheirSteps : Obligations.DrivesTakeTheirSteps := by
  intro s d hs
  refine ⟨?input, ?decision, ?adopted, ?low, ?first, ?lowOnce, ?aligned, ?coasted, ?reset⟩
  case input =>
    intro a t u ht hu
    have hin := State.auxFaultIn_shown ht hu
    refine ⟨fun ha hen => exec_of_effect (.inl hs) (hin.trans (if_pos (by rw [ha, hen, Bool.and_self]))),
      fun h => exec_of_effect (.inl hs) (hin.trans (if_neg ?_))⟩
    rcases h with h | h <;> simp [h]
  case decision =>
    exact fun xs ha => ⟨fun hd => exec_of_effect (.inl hs) (State.auxDecision_of_turning xs ha hd),
      fun hrun hstop halign => exec_of_effect (.inl hs) (State.auxDecision_of_idle xs ha hrun hstop halign)⟩
  case adopted =>
    rintro st a b r i u ha hfault hst rfl
    exact State.adoptDrive_of_stopped ha hfault hst
  case low => exact fun xs p hd hp hlow => exec_of_effect (.inl hs) (State.probeSet_of_low hd hp hlow)
  case first =>
    exact fun xs p hd hp hlow hfirst => exec_of_effect (.inl hs) (State.probeSet_of_first hd hp hlow hfirst)
  case lowOnce => exact fun p hlow => State.probeLow_of_first p hlow
  case aligned => exact fun u hd hu => exec_of_effect (.inl hs) (State.alignDone_of_aligning hd hu)
  case coasted =>
    intro u hd hu
    have hend := State.coastEnd_of_coasting hd hu
    exact ⟨fun h => exec_of_effect (.inl hs) (hend.trans (if_neg (Bool.eq_false_iff.1 h))),
      fun h => exec_of_effect (.inl hs) (hend.trans (if_pos h))⟩
  case reset => exact exec_recatchReset hs

end Sys2Proof.Machine
end

section
/-! SUPPORT. What the owners of ROLE_SWAP and DEBUG_UNLOCK decide (Table 14.9, R378, R419, R420). -/

set_option Elab.async false

namespace Sys2Proof.Machine

open Sys2Proof

/-! ### Swaps (R378) -/

section SwapOwner

variable {s : State} {c : Cmd} {t : Nat} (ht : t = c.desc.le 8 8)
  (htime : t = 0 ∨ (c.fetchTime ≤ t ∧ t ≤ c.fetchTime + 100000000))
include htime

/-- Zero, or from the fetch on and at most 100 ms after it, is a time that may be named. -/
theorem swapTime_named :
    ¬ (decide (t ≠ 0) && (decide (t < c.fetchTime) || decide (c.fetchTime + 100000000 < t))) = true := by
  simp only [Bool.and_eq_true, Bool.or_eq_true, decide_eq_true_eq]
  omega

include ht

/-- A swap that nothing of Table 14.9 refuses is started. -/
theorem ownSwap_of_granted (h : s.swapRefused (decide (s.rd R.RED_STAT_HEALTH = 1)) = none) : ownSwap c s =
    (s.swapStart t false, { status := .ok, effect := some ((s.swapCycle t + 1) % 65536) }) := by
  simp only [ownSwap, ← ht, if_neg (swapTime_named htime), h]

theorem ownSwap_of_refused {det : Nat} (h : s.swapRefused (decide (s.rd R.RED_STAT_HEALTH = 1)) = some det) :
    ownSwap c s = (s, vMode det) := by
  simp only [ownSwap, ← ht, if_neg (swapTime_named htime), h]

end SwapOwner

/-- A swap started is noted, shown as pending, and announced for its cycle. -/
theorem State.swapStart_eq {s w : State} {t cyc : Nat} {watchdog : Bool} {x : Swap} (hc : cyc = s.swapCycle t)
    (hx : x = { s := cyc, watchdog := watchdog, released := false, confirmed := false })
    (hw : w = State.wrB { s with red := { s.red with swap := some x } } R.RED_STAT_SWAP_PENDING true) :
    s.swapStart t watchdog = w.sendNotice w.claim 5 cyc := by
  subst hw hx hc
  rw [State.swapStart]

/-! ### Debug levels (R419, R420) -/

section UnlockOwner

variable {s : State} {c : Cmd} {resp : Bytes} {i : Nat} (hi : i = c.desc.le 6 1)
include hi

/-- A challenge that nothing refuses is issued and written to the host buffer. -/
theorem ownUnlock_of_challenge {level : Nat} (hop : c.desc.le 4 1 = 0) (hl : level = c.desc.le 5 1)
    (h : s.challengeRefused i level = none) : ownUnlock resp c s =
      ((s.issueChallenge i level).2.emit (.record (c.desc.le 8 8) (s.issueChallenge i level).1), vOk) := by
  subst hi hl
  simp only [ownUnlock, hop, h, if_true]

theorem ownUnlock_of_challengeRefused {level det : Nat} (hop : c.desc.le 4 1 = 0) (hl : level = c.desc.le 5 1)
    (h : s.challengeRefused i level = some det) : ownUnlock resp c s = (s, { status := .auth, detail := det }) := by
  subst hi hl
  simp only [ownUnlock, hop, h, if_true]

/-- A response to no challenge has failed. -/
theorem ownUnlock_of_unasked (hop : c.desc.le 4 1 = 1) (h : (s.sec.challenges.find? fun p => p.1 = i) = none) :
    ownUnlock resp c s = (s.failResponse i, { status := .auth, detail := 0x0C04 }) := by
  subst hi
  have hanswer : s.answer (c.desc.le 6 1) resp = (s.failResponse (c.desc.le 6 1), some 0x0C04) := by
    rw [State.answer, h]
  simp only [ownUnlock, hop, hanswer, Nat.one_ne_zero, if_false, if_true]

/-- RELOCK takes the interface to its default level. -/
theorem ownUnlock_of_relock (hop : c.desc.le 4 1 = 2) : ownUnlock resp c s = (s.relock i, vOk) := by
  subst hi
  simp only [ownUnlock, hop, OfNat.ofNat_ne_zero, OfNat.ofNat_ne_one, if_false]

end UnlockOwner

/-- Settles O30: each command by what its owner decides of a descriptor that passes the checks before. -/
theorem swapsAndUnlocks : Obligations.SwapsAndUnlocks := by
  refine ⟨?swap, ?unlock⟩
  case swap =>
    rintro s r d hpass u rfl t ht cyc hc x hx w hw htime healthy rfl
    refine ⟨fun hgranted => ?granted, fun det hrefused => ?refused⟩
    case granted =>
      have hown := ownSwap_of_granted (c := s.cmdOf r d) ht htime hgranted
      rw [State.swapStart_eq hc hx hw, ← hc] at hown
      exact exec_of_owner rfl rfl hpass hown rfl
    case refused => exact exec_of_owner rfl rfl hpass (ownSwap_of_refused (c := s.cmdOf r d) ht htime hrefused) rfl
  case unlock =>
    rintro s r d resp hpass u rfl i hi level hl
    refine ⟨fun hop hissue => ?issued, fun det hop hrefused => ?refused, fun hop hnone => ?unasked, fun hop => ?relock⟩
    case issued =>
      exact exec_of_owner rfl rfl hpass (ownUnlock_of_challenge (c := s.cmdOf r d) hi hop hl hissue) rfl
    case refused =>
      exact exec_of_owner rfl rfl hpass (ownUnlock_of_challengeRefused (c := s.cmdOf r d) hi hop hl hrefused) rfl
    case unasked => exact exec_of_owner rfl rfl hpass (ownUnlock_of_unasked (c := s.cmdOf r d) hi hop hnone) rfl
    case relock => exact exec_of_owner rfl rfl hpass (ownUnlock_of_relock (c := s.cmdOf r d) hi hop) rfl

end Sys2Proof.Machine
end

section
/-! SUPPORT. How a seat's claim follows its partner's line, its own conditions, its keeper and its gate (R357, R359 to
R361, R363, R373, log entries 93 and 119). -/

set_option Elab.async false

namespace Sys2Proof.Machine

open Sys2Proof

section PartnerLine

variable {s u v w : State}

/-! ### The partner's line (R357, R359, R360) -/

section Asserted

variable (hline : s.is R.RED_PARTNER_LINE = false) (hu : u = s.wrB R.RED_PARTNER_LINE true)
  (hv : v = { u with red := { u.red with deassertedAt := none, everHeld := true } })
include hline hu hv

/-- A line seen asserted is noted, and is a contest for a seat that claims: a line fault for one alone. -/
theorem State.partnerAsserted_eq : s.partnerAsserted =
    if !v.paired then if v.claim = 0 then v else ((v.claimTo 3 0).setActive 0x143 true).raise 0x143 0
    else if (v.setActive 0x143 false).claim = 0 then v.setActive 0x143 false
    else if ((v.setActive 0x143 false).claimTo 3 0).seatB then ((v.setActive 0x143 false).claimTo 3 0).releaseClaim 8
    else (v.setActive 0x143 false).claimTo 3 0 := by
  subst hv hu
  exact if_neg (Bool.eq_false_iff.1 hline)

/-- A seat of a pair that claims nothing leaves the line to its partner. -/
theorem State.partnerAsserted_of_released (hp : v.paired = true) (hclaim : (v.setActive 0x143 false).claim = 0) :
    s.partnerAsserted = v.setActive 0x143 false := by
  rw [State.partnerAsserted_eq hline hu hv, if_neg (by simp [hp]), if_pos hclaim]

/-- One that claims is CONTESTED, and seat B releases. -/
theorem State.partnerAsserted_of_claiming (hp : v.paired = true) (hw : w = v.setActive 0x143 false)
    (hclaim : w.claim ≠ 0) : s.partnerAsserted =
      if (w.claimTo 3 0).seatB then (w.claimTo 3 0).releaseClaim 8 else w.claimTo 3 0 := by
  subst hw
  rw [State.partnerAsserted_eq hline hu hv, if_neg (by simp [hp]), if_neg hclaim]

/-- A seat alone that claims has a line fault. -/
theorem State.partnerAsserted_of_alone (hp : v.paired = false) (hclaim : v.claim ≠ 0) :
    s.partnerAsserted = ((v.claimTo 3 0).setActive 0x143 true).raise 0x143 0 := by
  rw [State.partnerAsserted_eq hline hu hv, if_pos (by simp [hp]), if_neg hclaim]

end Asserted

/-- The line gone, a CONTESTED seat of a pair waits. -/
theorem State.partnerDeasserted_of_paired (hline : s.is R.RED_PARTNER_LINE = true)
    (hu : u = s.wrB R.RED_PARTNER_LINE false)
    (hv : v = { u with red := { u.red with deassertedAt := some u.tsn.local_ } }) (hp : v.paired = true) :
    s.partnerDeasserted = if v.claim = 3 then v.claimTo 1 0 else v := by
  subst hv hu
  rw [State.partnerDeasserted, if_neg (by simp [hline])]
  dsimp only
  rw [if_pos hp]

end PartnerLine

section Claiming

variable {s u v : State} {t : Nat}

/-! ### Claims (R361) -/

section Released

variable (ht : s.red.deassertedAt = some t) (hclaim : s.claim = 0) (hp : s.paired = true) (hb : s.bootDone = true)
include ht hclaim hp hb

/-- A RELEASED seat, its partner released too, claims once it meets every other condition. -/
theorem State.claimAssert_of_met (hrel : s.partnerReleased = true) (hmay : s.mayClaim = true)
    (hu : u = s.advanceByTicks (t + 500))
    (hv : v = { u with red := { u.red with coldTaken := !u.is R.RED_STAT_TAKE_READY && u.red.everHeld } }) :
    s.claimAssert = State.claimTo { v with red := { v.red with refreshedAt := v.tsn.local_ } } 1 1 := by
  subst hv hu
  rw [State.claimAssert, ht]
  dsimp only
  rw [if_neg (by simp [hclaim, hp, hb]), if_neg (by simp [hrel]), if_neg (by simp [hmay])]

theorem State.claimAssert_of_unmet (hrel : s.partnerReleased = true) (hmay : s.mayClaim = false) :
    s.claimAssert = s := by
  rw [State.claimAssert, ht]
  dsimp only
  rw [if_neg (by simp [hclaim, hp, hb]), if_neg (by simp [hrel]), if_pos (by simp [hmay])]

/-- A partner that shows a claim with its line gone for 2 µs has a line fault. -/
theorem State.claimAssert_of_partnerClaiming (hrel : s.partnerReleased = false) :
    s.claimAssert = if t + 1000 < s.tsn.local_ then s.lineFault else s := by
  rw [State.claimAssert, ht]
  dsimp only
  rw [if_neg (by simp [hclaim, hp, hb]), if_pos (by simp [hrel])]

end Released

/-- A seat that claims already, or whose partner's line stands, does not claim. -/
theorem State.claimAssert_of_held (h : s.claim ≠ 0 ∨ s.red.deassertedAt = none) : s.claimAssert = s := by
  rw [State.claimAssert]
  cases ht : s.red.deassertedAt with
  | none => rfl
  | some t => exact if_pos (by simp [h.resolve_right (by simp [ht])])

/-! ### The gate (R359, R373) -/

section Gate

variable (ht : s.red.deassertedAt = some t) (hclaim : s.claim = 1)
  (hu : u = (s.advanceByTicks (t + 1000)).claimTo 2 2)
include ht hclaim hu

/-- Alone a seat whose gate opens takes nothing over. -/
theorem State.gateOpens_of_alone (hp : u.paired = false) : s.gateOpens = u := by
  subst hu
  rw [State.gateOpens, ht]
  dsimp only
  rw [if_neg (by simp [hclaim]), if_pos (by simp [hp])]

/-- In a pair the gate's opening is a take-over, counted and told with its cause and its gap; one taken cold goes to
HOLD. -/
theorem State.gateOpens_of_paired {w x : State} {c : Nat} (hp : u.paired = true)
    (hc : c = if !u.red.everHeld then 3 else if u.is R.RED_STAT_LINK_UP then 2 else 1)
    (hv : v = State.inc { u with red := { u.red with everHeld := true }, tsn := { u.tsn with holderSel := none } }
      R.RED_STAT_SWITCHES)
    (hw : w = v.judgeSelection v.anyLocked)
    (hx : x = if w.red.coldTaken then
      { w with red := { w.red with coldTaken := false }, sys := { w.sys with follow := some .hold } } else w) :
    s.gateOpens = x.event 0xA 3 [(16, 1, c), (18, 2, min 65535 (if c = 3 then 0 else u.switchGap t))] := by
  subst hx hw hv hc
  rw [State.gateOpens, ht]
  dsimp only
  rw [if_neg (by simp [hclaim]), ← hu, if_neg (by simp [hp])]

end Gate

/-- Only a seat that waits opens its gate. -/
theorem State.gateOpens_of_notWaiting (hclaim : s.claim ≠ 1) : s.gateOpens = s := by
  rw [State.gateOpens]
  cases s.red.deassertedAt with
  | none => rfl
  | some t => exact if_pos hclaim

/-! ### Contests and the keeper (R360, R363) -/

/-- Seat A of a pair gives up a contest too long, and claims again only with the link up. -/
theorem State.contestedTimeout_of_contested (hp : s.paired = true) (hseat : s.seatB = false) (hclaim : s.claim = 3)
    (hu : u = (s.releaseClaim 8).raise 0x142 0) :
    s.contestedTimeout = { u with red := { u.red with onlyLinked := true } } := by
  subst hu
  exact if_pos (by simp [hp, hseat, hclaim])

/-- A keeper not refreshed takes the claim away. -/
theorem State.keeperExpired_of_claiming (hp : s.paired = true) (hclaim : s.claim ≠ 0) (hpow : s.power ≠ .towpath)
    (hu : u = s.advanceByTicks (s.red.refreshedAt + s.keeperNs / 2)) :
    s.keeperExpired = ((u.inc R.RED_CNT_KEEPER).raise 0x141 0).releaseClaim 3 := by
  subst hu
  exact if_pos (by simp [hp, hclaim, hpow])

end Claiming

/-- Settles O56: each change of the line, and each timer of a claim, by the claim in which it finds the seat. -/
theorem claimsFollowTheLine : Obligations.ClaimsFollowTheLine := by
  intro s hs
  refine ⟨?asserted, ?deasserted, ?claim, rfl, ?held, ?gate, ?shut, ?contest, ?keeper, exec_startTExpiry hs⟩
  case asserted =>
    exact fun u v hline hu hv =>
      ⟨fun hp hclaim => exec_of_effect (.inl hs) (State.partnerAsserted_of_released hline hu hv hp hclaim),
        fun hp w hw hclaim => exec_of_effect (.inl hs) (State.partnerAsserted_of_claiming hline hu hv hp hw hclaim),
        fun hp hclaim => exec_of_effect (.inl hs) (State.partnerAsserted_of_alone hline hu hv hp hclaim)⟩
  case deasserted =>
    intro u v hline hu hv hp
    have hgone := State.partnerDeasserted_of_paired hline hu hv hp
    exact ⟨fun hclaim => exec_of_effect (.inl hs) (hgone.trans (if_pos hclaim)),
      fun hclaim => exec_of_effect (.inl hs) (hgone.trans (if_neg hclaim))⟩
  case claim =>
    intro t ht hclaim hp hb
    exact ⟨fun u v hrel hmay hu hv =>
        exec_of_effect (.inl hs) (State.claimAssert_of_met ht hclaim hp hb hrel hmay hu hv),
      fun hrel hmay => exec_of_effect (.inl hs) (State.claimAssert_of_unmet ht hclaim hp hb hrel hmay),
      fun hrel => exec_of_effect (.inl hs) (State.claimAssert_of_partnerClaiming ht hclaim hp hb hrel)⟩
  case held => exact fun h => exec_of_effect (.inl hs) (State.claimAssert_of_held h)
  case gate =>
    exact fun t u v c ht hclaim hu =>
      ⟨fun hp => exec_of_effect (.inl hs) (State.gateOpens_of_alone ht hclaim hu hp),
        fun hp hc hv w x hw hx =>
          exec_of_effect (.inl hs) (State.gateOpens_of_paired ht hclaim hu hp hc hv hw hx)⟩
  case shut => exact fun hclaim => exec_of_effect (.inl hs) (State.gateOpens_of_notWaiting hclaim)
  case contest =>
    exact fun u hp hseat hclaim hu =>
      exec_of_effect (.inl hs) (State.contestedTimeout_of_contested hp hseat hclaim hu)
  case keeper =>
    exact fun u hp hclaim hpow hu =>
      exec_of_effect (.inl hs) (State.keeperExpired_of_claiming hp hclaim hpow hu)

end Sys2Proof.Machine
end

section
/-! SUPPORT. How the messages of a pair are taken by the seat they are for, and how a swap runs and ends (R358, R365 to
R368, R370, R371, R376, R379, R380). -/

set_option Elab.async false

namespace Sys2Proof.Machine

open Sys2Proof

section Messages

variable {s r u v w x : State} {b : Bytes}

/-! ### Heartbeats and notices (R358, R365 to R368) -/

/-- A heartbeat over the lock-link shows the partner, is checked for its identity, and is followed; a partner that no
longer takes aborts a swap. -/
theorem State.heartbeatIn_of_heard (hp : s.paired = true) (hlanes : s.linkLanes ≠ []) (hlen : b.length = 128)
    (hr : r = s.forgetFar b) (hu : u = { r with red := { r.red with partner := b, missed := 0 } })
    (hv : v = (((u.wr R.RED_PARTNER_PART (leAt b 0 2)).wr R.RED_PARTNER_REV (leAt b 2 1)).wr R.RED_PARTNER_SEAT
      (leAt b 3 1 % 2)).wrB R.RED_PARTNER_VALID true)
    (hw : w = ((((v.wrB R.RED_PARTNER_TAKE_READY ((leAt b 3 1).testBit 3)).wr R.RED_PARTNER_HEALTH
      (leAt b 5 1 % 4)).judgeLink.checkIdentity b).partnerClaim (leAt b 3 1 / 2 % 4)))
    (hx : x = (if leAt b 3 1 / 2 % 4 = 2 then w.noteSent (w.fullCycle (leAt b 6 2)) else w).followHolder b) :
    s.heartbeatIn b = State.judgeTake
      (if v.is R.RED_PARTNER_TAKE_READY && !(leAt b 3 1).testBit 3 then x.swapAbort else x) := by
  have hheard : ¬ (!s.paired || s.linkLanes.isEmpty || decide (b.length ≠ 128)) = true := by
    simp [hp, hlen, List.isEmpty_iff, hlanes]
  have hnote : (w.when (decide (leAt b 3 1 / 2 % 4 = 2)) fun s => s.noteSent (s.fullCycle (leAt b 6 2))) =
      if leAt b 3 1 / 2 % 4 = 2 then w.noteSent (w.fullCycle (leAt b 6 2)) else w :=
    if_congr decide_eq_true_iff rfl rfl
  rw [State.heartbeatIn, if_neg hheard]
  dsimp only
  rw [← hr, ← hu, ← hv, ← hw, hnote, ← hx]

/-- A seat alone, without a lock-link, or given another length hears no heartbeat. -/
theorem State.heartbeatIn_of_unheard (h : s.paired = false ∨ s.linkLanes = [] ∨ b.length ≠ 128) :
    s.heartbeatIn b = s := if_pos (by rcases h with h | h | h <;> simp [h])

/-- A NOTICE that speaks of no swap shows the partner's claim; one released is known to have sent until now. -/
theorem State.noticeIn_of_claim (hp : s.paired = true) (hlen : b.length = 4) (hcause : leAt b 1 1 ≠ 5)
    (hu : u = if s.rd R.RED_PARTNER_CLAIM = 2 ∧ leAt b 0 1 % 4 = 0 then s.noteSent (s.windowsAt s.nowNs).toNat else s) :
    s.noticeIn b = u.partnerClaim (leAt b 0 1 % 4) := by
  have hnote : (s.when (decide (s.rd R.RED_PARTNER_CLAIM = 2) && decide (leAt b 0 1 % 4 = 0))
      fun s => s.noteSent (s.windowsAt s.nowNs).toNat) = u := by
    rw [hu]
    exact if_congr (by simp) rfl rfl
  rw [State.noticeIn, if_neg (by simp [hp, hlen])]
  dsimp only
  rw [hnote, if_pos hcause]

/-! ### MIRROR, HEALTH and COPY (R370, R371, R376) -/

/-- At the standby a mirrored command waits for its mark. -/
theorem State.mirrorIn_of_standby {d : Desc} {m : Mirror} (hrole : s.role = .standby) (hlen : b.length = 36)
    (hd : d = Desc.mk (BitVec.ofNat 8 (leAt b 0 1)) (BitVec.ofNat 8 (leAt b 1 1)) (BitVec.ofNat 16 (leAt b 2 2))
      ((b.drop 4).take 20))
    (hm : m = Mirror.mk d (leAt b 24 1) (s.fullCycle (leAt b 28 2)) (BitVec.ofNat 32 (leAt b 32 4))) :
    s.mirrorIn b = { s with red := { s.red with mirrors := s.red.mirrors ++ [m] } } := by
  subst hm hd
  exact if_neg (by simp [hrole, hlen])

theorem State.mirrorIn_of_notStandby (hrole : s.role ≠ .standby) : s.mirrorIn b = s := if_pos (by simp [hrole])

theorem State.copyIn_of_notStandby (hrole : s.role ≠ .standby) : s.copyIn b = s := if_pos (by simp [hrole])

/-- HEALTH over the link is the holder's to show. -/
theorem State.healthIn_of_active (hrole : s.role = .active) (hlink : s.is R.RED_STAT_LINK_UP = true)
    (hlen : b.length = 16) :
    s.healthIn b = s.setHealth (leAt b 14 1 % 4) (leAt b 6 2) (BitVec.ofNat 32 (leAt b 8 4)) :=
  if_pos (by simp [hrole, hlink, hlen])

/-- The first segment of a copy begins to gather it. -/
theorem State.copyIn_of_first {c : CopyIn} (hlink : s.is R.RED_STAT_LINK_UP = true) (hrole : s.role = .standby)
    (hlen : 8 ≤ b.length) (hnone : s.red.copyIn = none)
    (hc : c = CopyIn.mk (leAt b 0 2) (leAt b 4 2) [(leAt b 2 2, b.drop 8)]) :
    s.copyIn b = { s with red := { s.red with copyIn := some c } } := by
  subst hc
  rw [State.copyIn, if_neg (by simp [hlink, hrole, hlen])]
  dsimp only
  rw [hnone]

end Messages

/-! ### Swaps (R379, R380) -/

section Swaps

variable {s : State} {x : Swap} (hswap : s.red.swap = some x)
include hswap

/-- At APPLY of its cycle the holder releases a claim whose swap is confirmed, and aborts one that is not. -/
theorem State.swapRun_of_due (hgate : s.gateOpen = true) (hheld : x.released = false) (hdue : x.s ≤ s.sys.k) :
    s.swapRun = if x.confirmed then
        State.releaseClaim { s with red := { s.red with swap := some { x with released := true } } } 5
      else s.swapEnd 2 := by
  rw [State.swapRun, hswap]
  exact if_pos (by simp [hgate, hheld, hdue])

/-- A swap handed over has ended once the partner holds, and has failed where it does not. -/
theorem State.swapDone_of_released (hrel : x.released = true) : s.swapDone =
    if s.rd R.RED_PARTNER_CLAIM = 2 then (s.inc R.RED_STAT_SWITCHES).swapEnd 0 else (s.swapEnd 1).raise 0x148 0 := by
  rw [State.swapDone, hswap]
  dsimp only
  rw [hrel, if_neg (by simp), if_pos rfl, if_pos rfl]
  exact if_congr decide_eq_true_iff rfl rfl

/-- One that this seat should have taken over has failed with its gate shut. -/
theorem State.swapDone_of_standby (hrel : x.released = false) (hrole : s.role = .standby) (hgate : s.gateOpen = false) :
    s.swapDone = (s.swapEnd 1).raise 0x148 0 := by
  rw [State.swapDone, hswap]
  dsimp only
  rw [hrel, hrole, hgate, if_neg (by simp)]
  rfl

end Swaps

/-- Settles O57: each message by whether it is for this seat, each end of a swap by what has been handed over. -/
theorem pairMessagesAreTaken : Obligations.PairMessagesAreTaken := by
  refine ⟨fun s hs => ⟨?heartbeat, ?unheard, ?notice, ?mirror, ?other, ?health, ?copy⟩, ?swaps⟩
  case heartbeat =>
    exact fun b r u v w x hp hlanes hlen hr hu hv hw hx =>
      exec_of_effect (.inl hs) (State.heartbeatIn_of_heard hp hlanes hlen hr hu hv hw hx)
  case unheard => exact fun b h => exec_of_effect (.inl hs) (State.heartbeatIn_of_unheard h)
  case notice =>
    exact fun b u hp hlen hcause hu => exec_of_effect (.inl hs) (State.noticeIn_of_claim hp hlen hcause hu)
  case mirror =>
    exact fun b d m hrole hlen hd hm => exec_of_effect (.inl hs) (State.mirrorIn_of_standby hrole hlen hd hm)
  case other =>
    exact fun b hrole => ⟨exec_of_effect (.inl hs) (State.mirrorIn_of_notStandby hrole),
      exec_of_effect (.inl hs) (State.copyIn_of_notStandby hrole)⟩
  case health => exact fun b hrole hlink hlen => exec_of_effect (.inl hs) (State.healthIn_of_active hrole hlink hlen)
  case copy =>
    exact fun b x hlink hrole hlen hnone hx =>
      exec_of_effect (.inl hs) (State.copyIn_of_first hlink hrole hlen hnone hx)
  case swaps =>
    intro s x hs hswap
    refine ⟨fun hgate hheld hdue => ?due, fun hrel hclaim => ?handed, fun hrel hclaim => ?late,
      fun hrel hrole hgate => ?shut⟩
    case due =>
      have hrun := State.swapRun_of_due hswap hgate hheld hdue
      refine ⟨?_, fun hconf => exec_of_effect (.inl hs) (hrun.trans (if_neg (Bool.eq_false_iff.1 hconf)))⟩
      rintro y hconf rfl
      exact exec_of_effect (.inl hs) (hrun.trans (if_pos hconf))
    case handed =>
      exact exec_of_effect (.inl hs) ((State.swapDone_of_released hswap hrel).trans (if_pos hclaim))
    case late =>
      exact exec_of_effect (.inl hs) ((State.swapDone_of_released hswap hrel).trans (if_neg hclaim))
    case shut => exact exec_of_effect (.inl hs) (State.swapDone_of_standby hswap hrel hrole hgate)

end Sys2Proof.Machine
end

section
/-! SUPPORT. How sources reach the collector, and how its own failures, shadow windows and capture windows end (R385,
R387, R391, R392, R399, log entry 38). -/

set_option Elab.async false

namespace Sys2Proof.Machine

open Sys2Proof

section Sources

variable {s : State} {n inst : Nat} {i : FaultInfo}

/-! ### Pairs as they are seen (R385, R387) -/

section Live

variable {k : Nat} (hs : s.collects = true) (hn : sourceClass n = some k)
include hs hn

theorem State.sourceSeen_of_pulse : s.sourceSeen n inst 0 i = s.raiseWith n inst i := by
  rw [State.sourceSeen, if_neg (by simp [hs, hn]), if_neg (by decide), if_neg (by simp), if_neg (by decide)]

/-- A pair that stands, newly or for another unit than the last logged, shows active and raises its fault. -/
theorem State.sourceSeen_of_level (hnew : s.active n = false ∨ SMap.get (fun _ => 0) s.flt.lastInst n ≠ inst + 1) :
    s.sourceSeen n inst 1 i = (s.setActive n true).raiseWith n inst i := by
  have hfirst : ¬ (1 = 1 ∧ s.active n = true ∧ SMap.get (fun _ => 0) s.flt.lastInst n = inst + 1) := by
    rintro ⟨-, hactive, hlast⟩
    exact hnew.elim (fun h => Bool.false_ne_true (h.symm.trans hactive)) fun h => h hlast
  rw [State.sourceSeen, if_neg (by simp [hs, hn]), if_neg (by decide), if_neg hfirst, if_pos rfl]

/-- One that has stood since it was last logged asserts nothing new. -/
theorem State.sourceSeen_of_standing (hactive : s.active n = true)
    (hlast : SMap.get (fun _ => 0) s.flt.lastInst n = inst + 1) : s.sourceSeen n inst 1 i = s := by
  rw [State.sourceSeen, if_neg (by simp [hs, hn]), if_neg (by decide), if_pos ⟨rfl, hactive, hlast⟩]

/-- One that clears shows inactive, and its pair whole again. -/
theorem State.sourceSeen_of_clear : s.sourceSeen n inst 2 i =
    State.setActive { s with flt := { s.flt with broken := s.flt.broken.filter (· ≠ n) } } n false := by
  rw [State.sourceSeen, if_neg (by simp [hs, hn]), if_pos rfl]

/-- A pair found broken stands as asserted, and is reported. -/
theorem State.pairBroken_of_whole (hwhole : s.flt.broken.contains n = false) : s.pairBroken n =
    ((State.setActive { s with flt := { s.flt with broken := s.flt.broken ++ [n] } } n true).raise n 0).raise 0x160 n :=
  if_neg (by simp only [hs, hn, hwhole, Option.isNone_some, Bool.not_true, Bool.or_self, Bool.false_eq_true,
    not_false_eq_true])

end Live

/-- A reserved source never asserts. -/
theorem State.sourceSeen_of_reserved (pair : Nat) (hn : sourceClass n = none) : s.sourceSeen n inst pair i = s :=
  if_pos (by simp [hn])

/-! ### The collector itself (R392, R399) -/

/-- A collector fault opens the hardwired safe state, and a holder gives up its claim. -/
theorem State.integrity_of_collects {u : State} (hs : s.collects = true)
    (hu : u = ((s.wrB R.FLT_STAT_HW_SAFE true).wrBit R.FLT_SAFE_CAUSE_CAUSE 5 true).pwmOffAll.raise 0x161 0) :
    s.integrity = if u.role = .active then u.releaseClaim 4 else u := by
  subst hu
  exact if_neg (by simp [hs])

/-- While marks run the capture ends at its mark. -/
theorem State.captureWindowEnd_of_marks (hm : s.marksRun = true) : s.captureWindowEnd = s := if_pos hm

/-- With none a capture that is provisional is final, and its entry carries FIRST. -/
theorem State.captureWindowEnd_of_provisional (hm : s.marksRun = false) (hvalid : s.is R.FLT_FIRST0_VALID = true)
    (hprov : s.is R.FLT_FIRST0_PROVISIONAL = true) : s.captureWindowEnd =
      (s.wrB R.FLT_FIRST0_PROVISIONAL false).modLog (s.rd R.FLT_FIRST6_ENTRY)
        fun e => { e with flags := e.flags ||| 1 } := by
  rw [State.captureWindowEnd, if_neg (Bool.eq_false_iff.1 hm), State.captureFinal,
    if_pos (by rw [hvalid, hprov, Bool.and_self])]

end Sources

/-! ### Shadow windows (R391) -/

/-- A suppressed assertion joins those noted at the window's end, once for its source. -/
def noteHit (acc : List (Nat × Nat)) (h : Nat × Nat × Bool) : List (Nat × Nat) :=
  if acc.any fun p => p.1 = h.1 then acc else acc ++ [(h.1, h.2.1)]

/-- Where no source was suppressed twice every assertion is noted. -/
theorem foldl_noteHit_of_nodup {hits : List (Nat × Nat × Bool)} {acc : List (Nat × Nat)}
    (h : (acc.map (·.1) ++ hits.map (·.1)).Nodup) : hits.foldl noteHit acc = acc ++ hits.map fun h => (h.1, h.2.1) := by
  induction hits generalizing acc with
  | nil => exact (List.append_nil acc).symm
  | cons x xs ih =>
    have hx : ¬ (acc.any fun p => p.1 = x.1) = true := by
      simp only [List.any_eq_true, decide_eq_true_eq, not_exists, not_and]
      intro p hp heq
      exact (List.nodup_append.1 h).2.2 p.1 (List.mem_map_of_mem hp) x.1 List.mem_cons_self heq
    rw [List.foldl_cons, noteHit, if_neg hx, ih (by simpa using h)]
    simp

/-- Of a window's assertions those whose source still asserts, each with its unit. -/
theorem foldl_noteHit_filter {hits : List (Nat × Nat × Bool)} (h : (hits.map (·.1)).Nodup)
    (p : Nat × Nat × Bool → Bool) : (hits.filter p).foldl noteHit [] = (hits.filter p).map fun h => (h.1, h.2.1) :=
  foldl_noteHit_of_nodup (h.sublist (List.filter_sublist.map _))

section Shadows

variable {s v : State} {b : Nat}

theorem State.shadowEnd_of_none (h : ∀ w ∈ s.flt.shadows, w.block ≠ b) : s.shadowEnd b = s := by
  have hnone : (s.flt.shadows.find? fun w => w.block = b) = none :=
    List.find?_eq_none.2 fun w hw => by simpa using h w hw
  rw [State.shadowEnd, hnone]

/-- A window ends: each source noted of it latches late, and its counts are told. -/
theorem State.shadowEnd_of_noted {w : Shadow} {late : List (Nat × Nat)}
    (hw : (s.flt.shadows.find? fun w => w.block = b) = some w)
    (hlate : late = (w.hits.filter fun h => s.active h.1).foldl noteHit []) : s.shadowEnd b =
      (each late (fun t p => (t.inc (R.FLT_SHADOW_CNT_LATE b)).raiseWith p.1 p.2 { flags := 0x10 })
        { s with flt := { s.flt with shadows := s.flt.shadows.filter fun x => x.block ≠ b } }).event 0xB 5
          [(16, 1, b), (18, 2, min 0xFFFF w.hits.length), (20, 2, min 0xFFFF late.length)] := by
  subst hlate
  rw [State.shadowEnd, hw]
  rfl

/-- Where no source was suppressed twice each assertion whose source still asserts latches late. -/
theorem State.shadowEnd_of_distinct {w : Shadow} (hw : (s.flt.shadows.find? fun w => w.block = b) = some w)
    (hdup : (w.hits.map (·.1)).Nodup)
    (hv : v = each (w.hits.filter fun h => s.active h.1)
      (fun t h => (t.inc (R.FLT_SHADOW_CNT_LATE b)).raiseWith h.1 h.2.1 { flags := 0x10 })
      { s with flt := { s.flt with shadows := s.flt.shadows.filter fun x => x.block ≠ b } }) :
    s.shadowEnd b = v.event 0xB 5 [(16, 1, b), (18, 2, min 0xFFFF w.hits.length),
      (20, 2, min 0xFFFF (w.hits.filter fun h => s.active h.1).length)] := by
  rw [State.shadowEnd_of_noted hw (foldl_noteHit_filter hdup _).symm, List.length_map, each, List.foldl_map, hv, each]

end Shadows

/-- Settles O45: each pair by how it is seen, each window by what it holds at its end. -/
theorem sourcesReachTheCollector : Obligations.SourcesReachTheCollector := by
  intro s hs
  refine ⟨?seen, ?reserved, ?broken, ?collector, ?noShadow, ?shadow, ?marks, ?capture⟩
  case seen =>
    rintro n inst a m x i k hk rfl
    exact ⟨exec_of_effect (.inl hs) (State.sourceSeen_of_pulse hs hk),
      fun hnew => exec_of_effect (.inl hs) (State.sourceSeen_of_level hs hk hnew),
      fun hactive hlast => exec_of_effect (.inl hs) (State.sourceSeen_of_standing hs hk hactive hlast),
      exec_of_effect (.inl hs) (State.sourceSeen_of_clear hs hk)⟩
  case reserved => exact fun n inst p a m x hn => exec_of_effect (.inl hs) (State.sourceSeen_of_reserved _ hn)
  case broken =>
    exact fun n k hk hwhole => exec_of_effect (.inl hs) (State.pairBroken_of_whole hs hk hwhole)
  case collector =>
    intro u hu
    have hfault := State.integrity_of_collects hs hu
    exact ⟨fun hrole => exec_of_effect (.inl hs) (hfault.trans (if_neg hrole)),
      fun hrole => exec_of_effect (.inl hs) (hfault.trans (if_pos hrole))⟩
  case noShadow => exact fun b h => exec_of_effect (.inl hs) (State.shadowEnd_of_none h)
  case shadow => exact fun b w v hw hdup hv => exec_of_effect (.inl hs) (State.shadowEnd_of_distinct hw hdup hv)
  case marks => exact fun hm => exec_of_effect (.inl hs) (State.captureWindowEnd_of_marks hm)
  case capture =>
    exact fun hm hvalid hprov => exec_of_effect (.inl hs) (State.captureWindowEnd_of_provisional hm hvalid hprov)

end Sys2Proof.Machine
end

section
/-! SUPPORT. What each axis of mode refuses, and that the first axis that refuses decides the DETAIL (Table 17.3, R427,
R428, log entry 99). -/

set_option Elab.async false

namespace Sys2Proof.Machine

open Sys2Proof

section Columns

variable {d : Desc} {op : Nat} (hop : op = d.opcode.toNat)
include hop

/-! ### What a command asks beyond the limit of its column (Table 17.3) -/

theorem Desc.opcode_eq_iff {n : Nat} (hn : n < 2 ^ 8) : d.opcode = BitVec.ofNat 8 n ↔ op = n := by
  rw [hop, ← BitVec.toNat_inj, BitVec.toNat_ofNat, Nat.mod_eq_of_lt hn]

/-- GRID_MODE is limited to IDLE, CELL_BYPASS to PARK, SLUICE to STOP. -/
theorem Desc.limited_eq : d.limited =
    if op = 0x10 then decide (d.le 4 1 = 0)
    else if op = 0x42 then decide (d.le 6 1 = 0)
    else if op = 0x50 then decide (d.le 4 1 = 1)
    else false := by
  have hcode {n : Nat} (hn : n < 2 ^ 8) := Desc.opcode_eq_iff hop hn
  simp only [Desc.limited, hcode (n := 0x10) (by decide), hcode (n := 0x42) (by decide), hcode (n := 0x50) (by decide)]

theorem Desc.limited_grid (h : op = 0x10) : d.limited = decide (d.le 4 1 = 0) := by
  rw [Desc.limited_eq hop, if_pos h]

theorem Desc.limited_bypass (h : op = 0x42) : d.limited = decide (d.le 6 1 = 0) := by
  rw [Desc.limited_eq hop, if_neg (by omega), if_pos h]

theorem Desc.limited_sluice (h : op = 0x50) : d.limited = decide (d.le 4 1 = 1) := by
  rw [Desc.limited_eq hop, if_neg (by omega), if_neg (by omega), if_pos h]

/-! ### Columns of Table 17.3 -/

theorem safeRefuses_of_asked
    (h : op ∈ [0x10, 0x20, 0x21, 0x40, 0x60] ∨ (op = 0x42 ∧ d.le 6 1 ≠ 0) ∨ (op = 0x50 ∧ d.le 4 1 ≠ 1)) :
    safeRefuses op d.limited = true := by
  rcases h with h | ⟨h, hask⟩ | ⟨h, hask⟩
  · simp only [List.mem_cons, List.not_mem_nil, or_false] at h
    exact if_pos (by simpa only [Bool.or_eq_true, decide_eq_true_eq, or_assoc] using h)
  · simp [safeRefuses, Desc.limited_bypass hop h, h, hask]
  · simp [safeRefuses, Desc.limited_sluice hop h, h, hask]

theorem holdRefuses_of_asked
    (h : op ∈ [0x40, 0x60] ∨ (op = 0x10 ∧ d.le 4 1 ≠ 0) ∨ (op = 0x42 ∧ d.le 6 1 ≠ 0) ∨ (op = 0x50 ∧ d.le 4 1 ≠ 1)) :
    holdRefuses op d.limited = true := by
  rcases h with h | ⟨h, hask⟩ | ⟨h, hask⟩ | ⟨h, hask⟩
  · simp only [List.mem_cons, List.not_mem_nil, or_false] at h
    exact if_pos (by simpa only [Bool.or_eq_true, decide_eq_true_eq] using h)
  · simp [holdRefuses, Desc.limited_grid hop h, h, hask]
  · simp [holdRefuses, Desc.limited_bypass hop h, h, hask]
  · simp [holdRefuses, Desc.limited_sluice hop h, h, hask]

/-- On the backup clock all is refused but what R428 names; POWER_STATE has its own order. -/
theorem backupLets_of_other (hpower : op ≠ 0x02) (h : op ∉ [0x01, 0x03, 0x70, 0x91]) : backupLets d = false := by
  have hcode {n : Nat} (hn : n < 2 ^ 8) := Desc.opcode_eq_iff hop hn
  simp only [List.mem_cons, List.not_mem_nil, or_false, not_or] at h
  simp only [backupLets, hcode (n := 0x01) (by decide), hcode (n := 0x02) (by decide), hcode (n := 0x03) (by decide),
    hcode (n := 0x70) (by decide), hcode (n := 0x91) (by decide), h, hpower, decide_false, Bool.false_and, Bool.or_self]

end Columns

theorem towpathRefuses_of_other {op : Nat} (hpower : op ≠ 0x02) (h : op ∉ [0x01, 0x03, 0x61, 0x70, 0x90, 0x91]) :
    towpathRefuses op = true := by
  simp only [List.mem_cons, List.not_mem_nil, or_false, not_or] at h
  simp [towpathRefuses, h, hpower]

theorem standbyRefuses_of_other {op : Nat} (hpower : op ≠ 0x02) (h : op ∉ [0x01, 0x03, 0x51, 0x70, 0x90, 0x91]) :
    standbyRefuses op = true := by
  simp only [List.mem_cons, List.not_mem_nil, or_false, not_or] at h
  simp [standbyRefuses, h, hpower]

theorem retiredRefuses_of_record {op : Nat} (h : op ∈ [0x51, 0x90]) : retiredRefuses op = true := by
  simpa [retiredRefuses] using h

/-! ### The order of the axes (R427) -/

section Axes

variable {s : State} {d : Desc} {op : Nat} (hop : op = d.opcode.toNat) (hpower : op ≠ 0x02)
include hop hpower

theorem State.modeRefusal_of_safe (hsafe : s.isSafe = true) (h : safeRefuses op d.limited = true) :
    s.modeRefusal d = some 3 := by
  subst hop
  simp only [State.modeRefusal, hpower, hsafe, h, Bool.and_self, if_false, if_true]

section NotSafe

variable (hsafe : s.isSafe = false)
include hsafe

theorem State.modeRefusal_of_backup (hback : s.onBackup 0 = true) (h : backupLets d = false) :
    s.modeRefusal d = some 0xF := by
  subst hop
  simp only [State.modeRefusal, hpower, hsafe, hback, h, Bool.false_and, Bool.not_false, Bool.and_self,
    Bool.false_eq_true, if_false, if_true]

variable (hback : s.onBackup 0 = false)
include hback

theorem State.modeRefusal_of_hold (hpow : s.power = .hold) (h : holdRefuses op d.limited = true) :
    s.modeRefusal d = some 0xD := by
  subst hop
  simp only [State.modeRefusal, hpower, hsafe, hback, hpow, h, Bool.false_and, Bool.false_eq_true, decide_true,
    Bool.and_self, if_false, if_true]

theorem State.modeRefusal_of_towpath (hpow : s.power = .towpath) (h : towpathRefuses op = true) :
    s.modeRefusal d = some 0xD := by
  subst hop
  simp only [State.modeRefusal, hpower, hsafe, hback, hpow, h, reduceCtorEq, Bool.false_and, Bool.false_eq_true,
    decide_true, decide_false, Bool.and_self, if_false, if_true]

section Running

variable (hpow : s.power = .run)
include hpow

theorem State.modeRefusal_of_retired (hlc : s.rd R.SEC_LC_STATE = 3) (h : retiredRefuses op = true) :
    s.modeRefusal d = some 0xE := by
  subst hop
  simp only [State.modeRefusal, hpower, hsafe, hback, hpow, hlc, h, reduceCtorEq, Bool.false_and, Bool.false_eq_true,
    decide_true, decide_false, Bool.and_self, if_false, if_true]

variable (hlc : s.rd R.SEC_LC_STATE ≠ 3)
include hlc

theorem State.modeRefusal_of_standby (hrole : s.role = .standby) (h : standbyRefuses op = true) :
    s.modeRefusal d = some 4 := by
  subst hop
  simp only [State.modeRefusal, hpower, hsafe, hback, hpow, hlc, hrole, h, reduceCtorEq, Bool.false_and,
    Bool.false_eq_true, decide_true, decide_false, Bool.and_self, if_false, if_true]

variable (hrole : s.role ≠ .standby)
include hrole

/-- A host-loss plan refuses all that does not end it (R120). -/
theorem State.modeRefusal_of_plan (hplan : s.planActive = true) (h : op ∉ [0x01, 0x03]) :
    s.modeRefusal d = some 2 := by
  simp only [List.mem_cons, List.not_mem_nil, or_false, not_or] at h
  subst hop
  simp only [State.modeRefusal, hpower, hsafe, hback, hpow, hlc, hrole, hplan, h, reduceCtorEq, Bool.false_and,
    Bool.false_eq_true, decide_false, Bool.or_self, Bool.not_false, Bool.and_self, if_false, if_true]

/-- With no plan only an overlay can still refuse, a drive or a pound (R429). -/
theorem State.modeRefusal_of_none (hplan : s.planActive = false) (h : op ∉ [0x40, 0x60]) :
    s.modeRefusal d = none := by
  simp only [List.mem_cons, List.not_mem_nil, or_false, not_or] at h
  subst hop
  simp only [State.modeRefusal, hpower, hsafe, hback, hpow, hlc, hrole, hplan, h, reduceCtorEq, Bool.false_and,
    Bool.false_eq_true, decide_false, if_false]

end Running

end NotSafe

omit hpower in
/-- No axis refuses HEARTBEAT and HOST_RESUME. -/
theorem State.modeRefusal_of_host (h : op = 0x01 ∨ op = 0x03) : s.modeRefusal d = none := by
  have hcode {n : Nat} (hn : n < 2 ^ 8) := Desc.opcode_eq_iff hop hn
  have hlets : backupLets d = true := by
    simp only [backupLets, hcode (n := 0x01) (by decide), hcode (n := 0x03) (by decide)]
    rcases h with h | h <;> simp [h]
  subst hop
  rcases h with h | h <;>
    simp [State.modeRefusal, h, hlets, safeRefuses, holdRefuses, towpathRefuses, retiredRefuses, standbyRefuses]

end Axes

/-- Settles O21: each axis where none before it refuses. -/
theorem modesRefuseInOrder : Obligations.ModesRefuseInOrder := by
  intro s d op hop hpower
  refine ⟨fun hsafe h => ?safe, fun hsafe hback h => ?backup,
    fun hsafe hback => ⟨fun hpow h => ?hold, fun hpow h => ?towpath, fun hpow hlc h => ?retired,
      fun hpow hlc hrole h => ?standby, fun hpow hlc hrole hplan h => ?plan, fun hpow hlc hrole hplan h => ?none⟩,
    fun h => ?host⟩
  case safe => exact State.modeRefusal_of_safe hop hpower hsafe (safeRefuses_of_asked hop h)
  case backup => exact State.modeRefusal_of_backup hop hpower hsafe hback (backupLets_of_other hop hpower h)
  case hold => exact State.modeRefusal_of_hold hop hpower hsafe hback hpow (holdRefuses_of_asked hop h)
  case towpath => exact State.modeRefusal_of_towpath hop hpower hsafe hback hpow (towpathRefuses_of_other hpower h)
  case retired => exact State.modeRefusal_of_retired hop hpower hsafe hback hpow hlc (retiredRefuses_of_record h)
  case standby =>
    exact State.modeRefusal_of_standby hop hpower hsafe hback hpow hlc hrole (standbyRefuses_of_other hpower h)
  case plan => exact State.modeRefusal_of_plan hop hpower hsafe hback hpow hlc hrole hplan h
  case none => exact State.modeRefusal_of_none hop hpower hsafe hback hpow hlc hrole hplan h
  case host => exact State.modeRefusal_of_host hop (by simpa using h)

end Sys2Proof.Machine
end
